-- ==== Sys2Proof/Word.lean ====
section
/-! DEFINITION. Words, bytes and the names of the things the OZ96 has a fixed number of. -/

namespace Sys2Proof

/-- A 32-bit register word (R8, R9). -/
abbrev Word := BitVec 32
/-- A byte of device memory. -/
abbrev Byte := BitVec 8
/-- A device address (R31): 40 bits. -/
abbrev Addr := BitVec 40

/-- Tile t = 0 to 95 (R35). -/
abbrev TileId := Fin 96
/-- Link k: 0 HL-A, 1 HL-B, 2 HL-X, 3 HL-H, 4 HL-XA, 5 HL-XB (R26). -/
abbrev LinkId := Fin 6
/-- Partition PART0 to PART3 (R373); also SDIO port p. -/
abbrev PartId := Fin 4
/-- Hub 0 = HA, 1 = HB (R35). -/
abbrev HubId := Fin 2
/-- DDR subchannel s of a hub (R36). -/
abbrev Sub := Fin 4
/-- Camera port 0 to 11 (R35). -/
abbrev Port := Fin 12
/-- Channel of a shared engine (R349). -/
abbrev Chan := Fin 16
/-- Stream engine S0 or S1 of a tile. -/
abbrev StrmId := Fin 2
/-- Switched power domain d (R446). -/
abbrev Domain := Fin 26
/-- Temperature sensor T00 to T31 (R14). -/
abbrev Sensor := Fin 32

/-- The four dies (R14). -/
inductive Die where
  | cd | ha | hb | xd
  deriving DecidableEq, Repr

/-- The engines of a tile that have a command queue, in commit order (R168, R183). -/
inductive Engine where
  | lane | vec | s0 | s1
  deriving DecidableEq, Repr

/-- The shared engines (R347). -/
inductive SharedEng where
  | warp | codec | token
  deriving DecidableEq, Repr

/-- The register page types of R36. -/
inductive PageKind where
  | tile | seq | lane | vec | spad | strm0 | strm1 | scale | stats
  | cam | isp | tap | hub | hubDdr | hubLlc | part
  | clk | pwr | thm | snt | fum | cal | sec | warp | codec | token | sdio | xcore
  deriving DecidableEq, Repr

/-- A register page: its type and its instance, as PAGE_ID numbers them (R36). -/
structure PageKey where
  kind : PageKind
  inst : Nat
  deriving DecidableEq, Repr

/-- Who issues a request or a register write, with what R374 takes the tag from. -/
inductive Requester where
  /-- The host on SDIO port p. -/
  | host (p : PartId)
  /-- The firmware cores acting for partition p; `safe` is the criticality of the job they act for. -/
  | fw (p : PartId) (safe : Bool)
  /-- An engine of tile t. -/
  | tile (t : TileId) (q : Engine)
  /-- The sequencer of tile t. -/
  | seq (t : TileId)
  /-- A camera port and its taps. -/
  | camera (n : Port)
  /-- A channel of a shared engine. -/
  | channel (e : SharedEng) (c : Chan)
  deriving DecidableEq, Repr

/-- An output ring of buffers (R338, R359): a camera port's pipeline, one of its taps, or a shared-engine channel. -/
inductive RingId where
  | cam (n : Port)
  | tap (n : Port) (k : Fin 4)
  | chan (e : SharedEng) (c : Chan)
  deriving DecidableEq, Repr

/-- What an error-correcting read found (R249, R288): nothing, one corrected bit, or an uncorrectable error. -/
inductive EccOutcome where
  | clean | corrected | uncorrectable
  deriving DecidableEq, Repr

/-- What a DDR read found (R287, R288). -/
inductive DdrEcc where
  | clean | corrected | uncorrectable | tagMismatch
  deriving DecidableEq, Repr

/-- What an LLC lookup found (R297). -/
inductive LlcEcc where
  | clean | corrected | uncorrectable | tagParity
  deriving DecidableEq, Repr

end Sys2Proof
end

