-- ==== Sys2Proof/Syntax.lean ====
section
/-! DEFINITION. The commands of the block: one constructor per row of the table of operations and events. -/

namespace Sys2Proof

/-- A request of the device address space (R31): `len` bytes read from, or `data` written to, the address. -/
structure Req where
  write : Bool
  addr : Addr
  len : Nat
  data : List Byte
  deriving DecidableEq, Repr


/-- The end of a vector command: its tile, and the residue flags raised while it ran, each a lane and its parity (R103). -/
structure VecEnd where
  tile : TileId
  flags : List (Fin 32 × Bool)
  deriving DecidableEq, Repr


/-- What a camera port sees of its camera in the start check (R332). -/
structure CamObs where
  /-- Edges seen in time on PCLK, and on the pins now taken as HS and VS. -/
  pclk : Bool
  hs : Bool
  vs : Bool
  /-- Periods of the signals on those two pins, in PCLK cycles. -/
  hsPeriod : Nat
  vsPeriod : Nat
  /-- Active and inactive phases, in PCLK cycles, of four lines of the signal that carries HS. -/
  hsActive : List Nat
  hsInactive : List Nat
  /-- Active and inactive phase of the signal that carries VS. -/
  vsActive : Nat
  vsInactive : Nat
  /-- The lines of a frame, as D[15:0]. -/
  frame : List (List (BitVec 16))
  deriving DecidableEq, Repr


/-- What the boot sequence finds outside the registers: whether every fuse word is correctable, whether the digest of the
last snapshot verifies, and what SPI NOR returns from offset 0 (R476, R478, R489). -/
structure BootObs where
  fuseOk : Bool
  digestOk : Bool
  image : List Byte
  deriving DecidableEq, Repr

/-- The commands, in the order of spec/opcode_table.json. -/
inductive Instr where
  /-- LINK_PACKET_RECEIVE (R21): A packet arrives over a Horuatre link; a good CRC is acknowledged, a bad CRC asks the sender for a replay. -/
  | linkPacketReceive (k : LinkId) (crcGood : Bool)
  /-- LINK_REPLAY (R16): The sender replays an unacknowledged packet from its replay buffer, adding 48 FABRIC cycles. -/
  | linkReplay (k : LinkId)
  /-- REPLAY_INTERVAL_END (R21): A 1,600,000-cycle counting interval of an UP link ends and the replay count restarts at 0. -/
  | replayIntervalEnd (k : LinkId)
  /-- REPLAY_LIMIT (R21): The replay count of one interval exceeds REPLAY_LIMIT; the link enters RETRAIN, traffic is held for a detour, and fault 0x0F/0x01 is recorded. -/
  | replayLimit (k : LinkId)
  /-- RETRAIN_DONE (R22): A retrain succeeds, possibly sparing lanes, and the link returns to UP. -/
  | retrainDone (k : LinkId) (spared : Bool)
  /-- RETRAIN_FAIL (R22): A retrain fails; it is repeated, and the third consecutive failure puts the link DOWN with fault 0x0F/0x02. -/
  | retrainFail (k : LinkId)
  /-- DETOUR_READY (R23): The detour around a link out of service is in place, and held traffic takes it in order of arrival. -/
  | detourReady (k : LinkId)
  /-- DETOUR_RELEASE (R25): Every request outstanding on a detour has completed after the link returned to UP, and traffic goes back to the direct link. -/
  | detourRelease (k : LinkId)
  /-- LINK_TRAINED (R26): A training link reaches UP and the requests held for it are sent. -/
  | linkTrained (k : LinkId)
  /-- LINK_TRAIN_TIMEOUT (R26): A training has not reached UP within 30 us; it counts as a failed retrain and is started again. -/
  | linkTrainTimeout (k : LinkId)
  /-- FORCE_DOWN (R28): PART0 sets a FORCE_DOWN bit of HUB_LINK_CTRL; the link is taken out of service and traffic detours. -/
  | forceDown (who : Requester) (h : HubId) (k : LinkId)
  /-- FORCE_DOWN_RELEASE (R28): PART0 writes a FORCE_DOWN bit back to 0, which starts a retrain that counts under R22. -/
  | forceDownRelease (who : Requester) (h : HubId) (k : LinkId)
  /-- DEVICE_REQUEST (R31): A requester issues a request into the 40-bit device address space; it is decoded, routed and checked by the firewalls of the serving die. -/
  | deviceRequest (who : Requester) (req : Req)
  /-- RESPONSE_RECEIVE (R185): A completion or error response reaches its requester; for a tile engine an error response kills all four spans and faults the job, and stale epochs are discarded. -/
  | responseReceive (id : Nat)
  /-- REGISTER_WRITE (R9): A write to a register that has no behaviour of its own, applied by its access type and checked against width, owner, lock and domain. -/
  | registerWrite (who : Requester) (pg : PageKey) (off : Nat) (width : Nat) (v : Word)
  /-- PAGE_ENABLE (R48): CTRL.EN is written 1 and the page moves by the state table, requesting its domain where needed. -/
  | pageEnable (who : Requester) (pg : PageKey)
  /-- PAGE_DISABLE (R48): CTRL.EN is written 0 and the page moves by the state table. -/
  | pageDisable (who : Requester) (pg : PageKey)
  /-- PAGE_TURN_ON_DONE (R48): A TURNING_ON transition completes; the page enters ON, or TURNING_OFF if EN was cleared meanwhile. -/
  | pageTurnOnDone (pg : PageKey) (ok : Bool)
  /-- PAGE_TURN_OFF_DONE (R48): A TURNING_OFF transition completes; the page enters OFF, then TURNING_ON if a pending enable is held. -/
  | pageTurnOffDone (pg : PageKey)
  /-- SOFT_RST (R51): A soft reset acts once any transition has completed: fields reset, the commit group aborts, EN and IRQ_RAW clear, STATE becomes OFF. -/
  | softRst (who : Requester) (pg : PageKey)
  /-- IRQ_STAT_CLEAR (R42): Writing 1s to IRQ_STAT clears the corresponding IRQ_RAW bits unless an event arrives in the same cycle. -/
  | irqStatClear (who : Requester) (pg : PageKey) (bits : Word) (arriving : Word)
  /-- FAULT_CLR (R41): Writing FAULT.CLR clears CLASS, DETAIL and MORE. -/
  | faultClr (who : Requester) (pg : PageKey)
  /-- OWNER_WRITE (R47): PART0 writes OWNER; a change of PART aborts the page's commit group while running work continues. -/
  | ownerWrite (who : Requester) (pg : PageKey) (v : Word)
  /-- LOCK_CFG_SET (R46): LOCK.CFG is set, freezing RW and TX fields at 0x100 and above until package reset. -/
  | lockCfgSet (who : Requester) (pg : PageKey)
  /-- LOCK_OWN_SET (R46): LOCK.OWN is set, freezing OWNER until package reset. -/
  | lockOwnSet (who : Requester) (pg : PageKey)
  /-- TXN_OPEN (R54): TXN_CTRL OP = OPEN opens or joins a commit group of the writing partition, or is refused. -/
  | txnOpen (who : Requester) (pg : PageKey) (v : Word)
  /-- TXN_COMMIT (R58): TXN_CTRL OP = COMMIT commits an IMMEDIATE group on every member page. -/
  | txnCommit (who : Requester) (pg : PageKey)
  /-- TXN_ABORT (R63): TXN_CTRL OP = ABORT discards every member's staged values and shows ABORTED. -/
  | txnAbort (who : Requester) (pg : PageKey)
  /-- TX_WRITE (R55): A write to a TX field or window word is staged in the open group, or commits at once with no group open. -/
  | txWrite (who : Requester) (pg : PageKey) (off : Nat) (v : Word)
  /-- COMMIT_APPLY_REMOTE (R59): The commit message of an event reaches another die and its member pages apply their staged values together. -/
  | commitApplyRemote (d : Die)
  /-- SH_WRITE (R65): A write to an SH field is staged in the port's standing shadow group for its next FRAME_END. -/
  | shWrite (who : Requester) (pg : PageKey) (off : Nat) (v : Word)
  /-- LOADW (R75): A LOADW dispatches and reads one plane line per cycle into the shadow plane. -/
  | loadw (t : TileId)
  /-- PLANE_VALID (R75): The last write of a LOADW lands and the shadow plane becomes valid. -/
  | planeValid (t : TileId)
  /-- STREAM (R72): A STREAM dispatches, possibly swapping planes, and pushes its rows through the lane pipeline. -/
  | stream (t : TileId)
  /-- STREAM_ROW_READABLE (R89): An accumulator row becomes readable; its checksum is compared, V is set, and a drain converts and writes it. -/
  | streamRowReadable (t : TileId) (j : Fin 32) (err : BitVec 40)
  /-- STREAM_COMPLETE (R73): A STREAM completes, after its last row or its last drain write. -/
  | streamComplete (t : TileId)
  /-- VEC (R172): A VEC command dispatches and performs its element-wise operation over its rows. -/
  | vec (t : TileId)
  /-- POOL (R174): A POOL command dispatches and computes maximum or average windows. -/
  | pool (t : TileId)
  /-- SOFTMAX (R97): A SOFTMAX command dispatches and normalises a vector in three passes. -/
  | softmax (t : TileId)
  /-- NORM (R97): A NORM command dispatches and normalises a vector in two passes with scale and offset. -/
  | norm (t : TileId)
  /-- STATS (R175): A STATS command copies statistics records to scratchpad, clearing AMAX and SATCNT at commit if asked. -/
  | stats (t : TileId)
  /-- VEC_ROW_READ (R209): The vector unit reads an accumulator row, checked against V, pending STREAMs and the writer tag. -/
  | vecRowRead (t : TileId) (flags : List (Fin 32 × Bool))
  /-- VEC_CMD_COMPLETE (R96): A vector-unit command completes in the cycle after its last write. -/
  | vecCmdComplete (v : VecEnd)
  /-- LUT_WRITE_APPLY (R102): A table write held while a command uses the table is applied once that command completes. -/
  | lutWriteApply (t : TileId)
  /-- LANE_CLR_ROWS (R107): LANE_CNT_CLR.ROWS clears the rows-streamed counter. -/
  | laneClrRows (who : Requester) (t : TileId)
  /-- LANE_CLR_CONFLICT (R107): LANE_CNT_CLR.CONFLICT clears LANE_CONFLICT. -/
  | laneClrConflict (who : Requester) (t : TileId)
  /-- LANE_CLR_RES (R107): LANE_CNT_CLR.RES clears LANE_RES_CNT and LANE_RES_LAST. -/
  | laneClrRes (who : Requester) (t : TileId)
  /-- VEC_CLR_RES (R109): VEC_CNT_CLR.RES clears VEC_RES_CNT and VEC_RES_LAST. -/
  | vecClrRes (who : Requester) (t : TileId)
  /-- VEC_CLR_NAN (R109): VEC_CNT_CLR.NAN clears VEC_NAN_CNT. -/
  | vecClrNan (who : Requester) (t : TileId)
  /-- VEC_CLR_CONFLICT (R109): VEC_CNT_CLR.CONFLICT clears VEC_CONFLICT. -/
  | vecClrConflict (who : Requester) (t : TileId)
  /-- SCALE_CLR_ADAPT (R126): SCALE_CNT_CLR.ADAPT clears SCALE_ADAPT_CNT. -/
  | scaleClrAdapt (who : Requester) (t : TileId)
  /-- STATS_CLR_SEL (R131): STATS_CNT_CLR.SEL clears AMAX and SATCNT of the selected record. -/
  | statsClrSel (who : Requester) (t : TileId)
  /-- STATS_CLR_ALL (R131): STATS_CNT_CLR.ALL clears AMAX and SATCNT of all records. -/
  | statsClrAll (who : Requester) (t : TileId)
  /-- STATS_CLR_WIDE (R131): STATS_CNT_CLR.WIDE clears STATS_WIDE_CNT. -/
  | statsClrWide (who : Requester) (t : TileId)
  /-- STATS_CLR_CLIP (R131): STATS_CNT_CLR.CLIP clears STATS_CLIP_CNT. -/
  | statsClrClip (who : Requester) (t : TileId)
  /-- STATS_WH_CFG_WRITE (R131): A write to STATS_WHk_CFG sets a history slot, and writing VALID 0 frees it and clears its history. -/
  | statsWhCfgWrite (who : Requester) (t : TileId) (k : Fin 16) (v : Word)
  /-- TILE_JOB_END (R389): A job leaves a tile: the frame step starts, frame fields clear, wide histories shift, the descriptor store empties and channels disarm. -/
  | tileJobEnd (t : TileId)
  /-- FRAME_STEP_DONE (R141): The frame step's last cycle changes EXP and LOWRUN of adaptive entries, after which a JOB_END group may apply on the SCALE page. -/
  | frameStepDone (t : TileId)
  /-- MOVE (R176): A MOVE dispatches and copies its source region to its destination with conversion and padding. -/
  | move (t : TileId) (q : Engine)
  /-- REGROUP (R223): A REGROUP dispatches and performs space-to-depth or depth-to-space. -/
  | regroup (t : TileId) (e : StrmId)
  /-- GATHER (R177): A GATHER dispatches and writes table rows by index, with out-of-range ids padded and tagged INVALID. -/
  | gather (t : TileId) (e : StrmId)
  /-- SIGNAL (R178): A SIGNAL command adds its count to a barrier at its commit. -/
  | signal (t : TileId) (q : Engine)
  /-- WAIT (R178): A WAIT command blocks its queue until the barrier count reaches its threshold. -/
  | wait (t : TileId) (q : Engine)
  /-- COMMIT (R179): A COMMIT command reaches the head of its queue and marks the end of the engine's open span. -/
  | commit (t : TileId) (q : Engine)
  /-- MARK (R178): A MARK command reports its MARK_ID to the deadline monitor at commit. -/
  | mark (t : TileId) (q : Engine)
  /-- COMMIT_POINT (R180): An engine's commit point arrives; the span is tested for residue, saturation and dependencies and then commits or is killed. -/
  | commitPoint (t : TileId) (q : Engine)
  /-- STRM_CMD_COMPLETE (R258): A stream command's last write is acknowledged and the command completes. -/
  | strmCmdComplete (t : TileId) (e : StrmId)
  /-- TILE_KILL (R186): A write to TILE_KILL starts a kill of the named engines' open spans. -/
  | tileKill (who : Requester) (t : TileId) (v : Word)
  /-- KILL_DONE (R186): A kill completes after its restore phases; KILL_DONE is set and the engines may dispatch again. -/
  | killDone (t : TileId) (d : Fin 148)
  /-- TILE_RESUME (R189): TILE_RUN.RESUME clears HALTED and lets dispatch resume. -/
  | tileResume (who : Requester) (t : TileId)
  /-- FINFO_CLR (R190): TILE_FINFO.CLR clears VALID and releases the fault capture. -/
  | finfoClr (who : Requester) (t : TileId)
  /-- DESC_LOAD (R151): A write to TILE_DESC_LOAD starts the copy of a handle's descriptor into the store. -/
  | descLoad (who : Requester) (t : TileId) (v : Word)
  /-- DESC_COPY_RESPONSE (R152): A descriptor copy's read returns; the copy enters the store or fails and the job faults. -/
  | descCopyResponse (t : TileId) (h : Nat) (bad : Bool)
  /-- SLOT_FILL (R163): TILE_SLOT_FILL with GO marks buffers of a ring FULL, or is refused with RING_BUSY. -/
  | slotFill (who : Requester) (t : TileId) (v : Word)
  /-- SEQ_START (R194): SEQ_START with GO resets counters and the loop stack and starts the sequencer at PC. -/
  | seqStart (who : Requester) (t : TileId) (v : Word)
  /-- DELAY (R196): The DELAY instruction issues and idles for N cycles. -/
  | delay (t : TileId)
  /-- SET (R196): The SET instruction loads a counter or comparator reference. -/
  | set (t : TileId)
  /-- ADDI (R196): The ADDI instruction adds a signed immediate to a counter. -/
  | addi (t : TileId)
  /-- LOOP (R198): The LOOP instruction pushes a hardware loop. -/
  | loop (t : TileId)
  /-- ENDL (R198): The ENDL instruction advances the innermost loop counter and loops or pops. -/
  | endl (t : TileId)
  /-- CMPJ (R196): The CMPJ instruction jumps when a counter compares true with a reference. -/
  | cmpj (t : TileId)
  /-- EMIT (R201): The EMIT instruction fills a template's address fields and pushes the command into its queue. -/
  | emit (t : TileId)
  /-- WAITB (R205): The WAITB instruction stalls the sequencer until a barrier reaches its threshold. -/
  | waitb (t : TileId)
  /-- SEQ_SIGNAL (R205): The sequencer's SIGNAL instruction pushes a SIGNAL command into a queue. -/
  | seqSignal (t : TileId)
  /-- SEQ_MARK (R205): The sequencer's MARK instruction pushes a MARK command into a queue. -/
  | seqMark (t : TileId)
  /-- FENCE (R206): The FENCE instruction pushes COMMITs, applies staged instruction words and may wait for the commits. -/
  | fence (t : TileId)
  /-- HALT (R207): The HALT instruction stops issue, applies staged words and brings each open span to a commit point. -/
  | halt (t : TileId)
  /-- UNDEFINED_OP (R199): An instruction with an undefined OP faults the job with BAD_INSTR. -/
  | undefinedOp (t : TileId)
  /-- SEQ_DONE (R207): After HALT all queues are empty and every span committed; the sequencer enters DONE. -/
  | seqDone (t : TileId)
  /-- IMEM_STAGE (R213): A write to SEQ_IMEM while the sequencer runs is staged in the instruction group. -/
  | imemStage (who : Requester) (t : TileId) (idx : Fin 4096) (v : Word)
  /-- IMEM_TXN_TIMEOUT (R215): No FENCE or HALT issues within SEQ_TXN_TIMEOUT of the first staged word; the instruction group aborts. -/
  | imemTxnTimeout (t : TileId) (cycles : Nat)
  /-- ILOCK_LIMIT (R212): An interlocked wait exceeds SEQ_ILOCK_LIMIT and ends in the violation it replaced. -/
  | ilockLimit (t : TileId) (q : Engine) (waited : Nat)
  /-- SEQ_FAULT_CLR (R217): SEQ_FAULT.CLR clears CAUSE and PC. -/
  | seqFaultClr (who : Requester) (t : TileId)
  /-- SEQ_CLR_VIOL (R217): SEQ_CNT_CLR.VIOL clears SEQ_VIOL_CNT. -/
  | seqClrViol (who : Requester) (t : TileId)
  /-- SEQ_CLR_STALL (R217): SEQ_CNT_CLR.STALL clears SEQ_STALL_CYC. -/
  | seqClrStall (who : Requester) (t : TileId)
  /-- SPAD_ACCESS (R249): An access reaches a scratchpad bank and is checked for power, ring overlap, ownership and ECC. -/
  | spadAccess (t : TileId) (port : Fin 6) (write : Bool) (slot : Bool) (line : Fin 16384) (data : List Byte) (ecc : EccOutcome)
  /-- SPAD_CLR_ECC (R280): SPAD_CNT_CLR.ECC clears SPAD_ECC_CNT and SPAD_FLT_ADDR. -/
  | spadClrEcc (who : Requester) (t : TileId)
  /-- SPAD_CLR_CONFLICT (R280): SPAD_CNT_CLR.CONFLICT clears every SPAD_CONFLICTp. -/
  | spadClrConflict (who : Requester) (t : TileId)
  /-- SPAD_CLR_STALL (R280): SPAD_CNT_CLR.STALL clears every SPAD_STALLc. -/
  | spadClrStall (who : Requester) (t : TileId)
  /-- CHANNEL_ARM (R270): An arming MOVE commits and a persistent channel is armed. -/
  | channelArm (t : TileId) (e : StrmId)
  /-- REARM (R273): A REARM MOVE commits and writes the channel's shadow, applied at once if the channel is idle. -/
  | rearm (t : TileId) (e : StrmId)
  /-- CHANNEL_BLOCK_DONE (R271): A channel block's last write completes and the block commits; after the last block the shadow applies or the channel goes idle. -/
  | channelBlockDone (t : TileId) (e : StrmId) (c : Fin 4)
  /-- SEND (R275): A multicast SEND MOVE dispatches and delivers each line to every receiver tile. -/
  | send (t : TileId) (e : StrmId)
  /-- RECV (R276): A multicast RECV MOVE dispatches, pairs with a SEND and grants credits. -/
  | recv (t : TileId) (e : StrmId)
  /-- MULTICAST_DROP (R277): A receiver's lag exceeds STRM_MC_LAG_LIMIT and it is dropped from the group, falling back to unicast. -/
  | multicastDrop (t : TileId) (e : StrmId) (r : TileId) (tag : Byte) (lag : Nat)
  /-- STRM_CLR_DROP (R282): STRM_CNT_CLR.DROP clears STRM_MC_DROP_CNT and STRM_MC_DROP_LAST. -/
  | strmClrDrop (who : Requester) (t : TileId) (e : StrmId)
  /-- STRM_CLR_LINES (R282): STRM_CNT_CLR.LINES clears the lines-moved counter. -/
  | strmClrLines (who : Requester) (t : TileId) (e : StrmId)
  /-- REMOTE_SLOT_STEP (R259): A ring tile answers a remote slot-step request once the buffer reaches the state the step needs. -/
  | remoteSlotStep (t : TileId) (sl : Fin 32) (step : Nat)
  /-- BARRIER_UPDATE (R266): A barrier count change reaches a tile, and WAITs and WAITBs it meets end. -/
  | barrierUpdate (p : PartId) (b : Fin 64)
  /-- HUB_REQUEST (R294): A request reaches a hub; it is classed, budgeted, looked up in the LLC and served from LLC, window or DDR. -/
  | hubRequest (h : HubId) (server : Fin 12) (cls : Fin 3) (ecc : LlcEcc)
  /-- BW_PERIOD_END (R301): A server's wheel period ends; unused budget lapses, held requests become eligible and committed wheel and shares take effect. -/
  | bwPeriodEnd (h : HubId) (server : Fin 12)
  /-- DDR_READ_DATA (R288): A DDR burst returns; single-bit errors are corrected and uncorrectable or tag-mismatched lines give an error response. -/
  | ddrReadData (h : HubId) (sub : Sub) (ecc : DdrEcc)
  /-- ECC_WRITEBACK (R288): A corrected line is written back to DDR in a free WRITE position. -/
  | eccWriteback (h : HubId) (sub : Sub)
  /-- SCRUB_READ (R289): Patrol scrub reads the next line in a free position and corrects it. -/
  | scrubRead (h : HubId) (sub : Sub) (ecc : DdrEcc)
  /-- CE_RATE_WINDOW (R289): A one-second correction-count window ends, recording CE_RATE if the limit was exceeded. -/
  | ceRateWindow (h : HubId) (sub : Sub)
  /-- REFRESH (R309): A rank's refresh interval expires and all-bank or same-bank refresh is issued. -/
  | refresh (h : HubId) (sub : Sub) (rank : Fin 2) (mr4 : Fin 8)
  /-- RFM (R309): A bank's activate count reaches the device threshold and RFM is issued. -/
  | rfm (h : HubId) (sub : Sub) (rank : Fin 2) (bank : Fin 32)
  /-- LIVE_CALIBRATION (R310): A subchannel's calibration time arrives and it measures drift and moves lane centrings. -/
  | liveCalibration (h : HubId) (sub : Sub) (drift : List Int) (centre : List Int) (osc : BitVec 16)
  /-- WAY_TRANSITION_DONE (R296): An LLC way finishes its mode or owner transition; BUSY clears and WAY_DONE is set. -/
  | wayTransitionDone (h : HubId) (w : Fin 16)
  /-- LLC_FLUSH (R322): A write to HUB_LLC_FLUSH starts write-back of the named CACHE ways. -/
  | llcFlush (who : Requester) (h : HubId) (v : Word)
  /-- FLUSH_DONE (R322): An LLC flush completes and FLUSH_DONE is set. -/
  | flushDone (h : HubId)
  /-- HUB_LOAD_INTERVAL (R318): A 1 ms load interval ends and HUB_LOAD_VALp take the budget use of the interval. -/
  | hubLoadInterval (h : HubId)
  /-- HUB_BW_CLR (R318): HUB_BW_CLR.HELD clears every HUB_BW_HELDp. -/
  | hubBwClr (who : Requester) (h : HubId)
  /-- HUB_DDR_CLR_ECC (R319): HUB_DDR_CNT_CLR.ECC clears HUB_DDR_ECC and HUB_DDR_ECC_ADDR. -/
  | hubDdrClrEcc (who : Requester) (h : HubId) (sub : Sub)
  /-- HUB_DDR_CLR_CAL (R319): HUB_DDR_CNT_CLR.CAL clears HUB_DDR_CAL_STAT. -/
  | hubDdrClrCal (who : Requester) (h : HubId) (sub : Sub)
  /-- HUB_LLC_CLR_STAT (R321): HUB_LLC_CNT_CLR.STAT clears HUB_LLC_HITS and HUB_LLC_MISSES. -/
  | hubLlcClrStat (who : Requester) (h : HubId)
  /-- HUB_LLC_CLR_ECC (R321): HUB_LLC_CNT_CLR.ECC clears HUB_LLC_ECC and HUB_LLC_ECC2. -/
  | hubLlcClrEcc (who : Requester) (h : HubId)
  /-- FRAME_BEGIN (R325): An active VS edge begins a frame, taking a ring buffer or dropping the frame, and completes a CAM TURNING_ON. -/
  | frameBegin (n : Port)
  /-- FRAME_END (R325): A camera frame ends; the port's shadow and FRAME_END groups commit and the frame's sample is finished. -/
  | frameEnd (n : Port) (lines : List (List (BitVec 16)))
  /-- FRAME_TIMEOUT (R325): CAM_FRAME_TIMEOUT elapses in a frame; FRAME_END occurs and the sample is corrupt. -/
  | frameTimeout (n : Port)
  /-- FRAME_DONE (R327): Every write and record of a frame has been acknowledged. -/
  | frameDone (n : Port)
  /-- INPUT_OVERFLOW (R326): The input FIFO is full, pixels are discarded and every sample of the frame becomes corrupt. -/
  | inputOverflow (n : Port)
  /-- OUTPUT_OVERFLOW (R326): The port's output buffer overflows and every sample of the frame becomes corrupt. -/
  | outputOverflow (n : Port)
  /-- PWR_FAULT (R328): FLT_N is held low for 10 us while PWREN is high; PWREN drops, the batch closes and the port enters FAULT. -/
  | pwrFault (n : Port)
  /-- PIN_TEST (R330): The camera pin test runs its pulls and reports shorts and bridges. -/
  | pinTest (n : Port) (high : BitVec 19) (low : BitVec 19) (bridged : BitVec 19)
  /-- PWR_DELAY (R329): The camera start time CAM_TEST.PWR_DELAY expires and TURNING_ON proceeds to the start check. -/
  | pwrDelay (n : Port)
  /-- START_CHECK (R332): The start check judges the live camera output and applies or reports corrections. -/
  | startCheck (n : Port) (obs : CamObs)
  /-- SAMPLE_STATUS_WRITE (R341): After its body writes are acknowledged a sample's status record is written, and auto-chained channels are queued. -/
  | sampleStatusWrite (r : RingId)
  /-- BATCH_DONE (R341): The status record of a batch's last sample is acknowledged and BATCH_DONE is set. -/
  | batchDone (r : RingId)
  /-- RING_REL (R339): Software releases ring buffers, oldest first, and pending geometry applies once all are free. -/
  | ringRel (who : Requester) (r : RingId) (count : Nat)
  /-- BATCH_CLOSE (R346): A stopping producer fills the open batch's remaining positions with STOPPED samples as buffers free. -/
  | batchClose (r : RingId)
  /-- CAM_CLR_ERR (R358): CAM_CNT_CLR.ERR clears CAM_ERR_CNT. -/
  | camClrErr (who : Requester) (n : Port)
  /-- CAM_CLR_AVOID (R358): CAM_CNT_CLR.AVOID clears CAM_POISON_AVOID. -/
  | camClrAvoid (who : Requester) (n : Port)
  /-- SLICE_SWITCH (R347): A shared engine's slice entry ends; unfinished work is suspended and the next entry begins. -/
  | sliceSwitch (e : SharedEng)
  /-- CH_SUBMIT (R350): CHc_SUB_CTL GO queues a work entry to a channel, or is refused when 8 are queued. -/
  | chSubmit (who : Requester) (e : SharedEng) (c : Chan) (v : Word)
  /-- WARP_SAMPLE (R352): A warp channel starts a sample, reads its mesh and produces the warped output. -/
  | warpSample (c : Chan)
  /-- CODEC_DECODE (R355): A codec channel decodes one access unit or JPEG image after its bounds checks. -/
  | codecDecode (c : Chan)
  /-- CODEC_ENCODE (R354): A codec channel encodes one sample into an access unit. -/
  | codecEncode (c : Chan)
  /-- TOKENIZE (R357): A tokenizer channel walks its dictionary over the submitted bytes and writes tokens. -/
  | tokenize (c : Chan)
  /-- CMD0 (R366): An SDIO CMD0 is received and answered. -/
  | cmd0 (p : PartId) (arg : Word)
  /-- CMD3 (R366): An SDIO CMD3 is received and answered, enumerating the port. -/
  | cmd3 (p : PartId) (arg : Word)
  /-- CMD5 (R366): An SDIO CMD5 is answered with S18A by the bank voltage. -/
  | cmd5 (p : PartId) (arg : Word)
  /-- CMD7 (R366): An SDIO CMD7 selects or deselects the card. -/
  | cmd7 (p : PartId) (arg : Word)
  /-- CMD11 (R366): An SDIO CMD11 completes without a change of signalling level. -/
  | cmd11 (p : PartId) (arg : Word)
  /-- CMD15 (R366): An SDIO CMD15 is received and handled. -/
  | cmd15 (p : PartId) (arg : Word)
  /-- CMD19 (R514): An SDIO CMD19 runs a tuning block for SDR104. -/
  | cmd19 (p : PartId) (arg : Word)
  /-- CMD52 (R368): An SDIO CMD52 byte access, staged or latched into 32-bit register accesses. -/
  | cmd52 (p : PartId) (arg : Word)
  /-- CMD53 (R368): An SDIO CMD53 block or byte transfer through F1 or F2 to device or page addresses. -/
  | cmd53 (p : PartId) (arg : Word) (data : List Byte)
  /-- ILLEGAL_COMMAND (R366): An unsupported SDIO command is answered as illegal. -/
  | illegalCommand (p : PartId) (idx : Fin 64)
  /-- MBOX_WRITE (R370): A 64 B write to F2 0x1000 queues a message for the firmware, or is discarded when full. -/
  | mboxWrite (p : PartId) (data : List Byte)
  /-- MBOX_READ (R370): A 64 B read from F2 0x1400 takes the oldest message from the firmware. -/
  | mboxRead (p : PartId)
  /-- BULK_WRITE (R370): A CMD53 write to F2 0x1_0000 appends bytes to the bulk ring, holding DAT0 busy while it lacks room. -/
  | bulkWrite (p : PartId) (data : List Byte)
  /-- BULK_TIMEOUT (R370): Room has not appeared for a bulk block within 10 ms; the block is discarded with a CRC status error. -/
  | bulkTimeout (p : PartId)
  /-- SDIO_CNT_CLR (R372): SDIO_CNT_CLR.ERR clears SDIO_ERR_CNT. -/
  | sdioCntClr (who : Requester) (p : PartId)
  /-- JOB_SUBMIT (R383): PART_JOB_SUB_HI with GO submits a job descriptor, queued or refused. -/
  | jobSubmit (who : Requester) (p : PartId) (v : Word)
  /-- JOB_RELEASE (R385): A queued job is released by its trigger once a completion entry is free. -/
  | jobRelease (p : PartId)
  /-- JOB_PLACEMENT (R386): A released job is placed on tiles when tiles and barriers are available, pre-empting QM jobs for a SAFE job. -/
  | jobPlacement (p : PartId)
  /-- JOB_START (R388): After loading, the firmware preloads descriptors, zeroes barriers and writes SEQ_START GO on every tile. -/
  | jobStart (p : PartId) (j : Nat)
  /-- JOB_END (R389): A job ends normally, by fault or by abort on its last tile; its completion record is written and a fallback may be released. -/
  | jobEnd (p : PartId) (j : Nat)
  /-- JOB_CANCEL (R389): PART_JOB_CANCEL with GO aborts a job or removes it from the queue. -/
  | jobCancel (who : Requester) (p : PartId) (v : Word)
  /-- CPL_REL (R390): PART_CPL_REL releases completion ring entries. -/
  | cplRel (who : Requester) (p : PartId) (v : Word)
  /-- CTX_FREEZE (R404): TILE_CTX_CTL.FREEZE stops or resumes sequencer issue on a tile. -/
  | ctxFreeze (who : Requester) (t : TileId) (v : Word)
  /-- CTX_SAVE (R392): TILE_CTX_CTL.SAVE starts writing the control block and selected banks to the save area. -/
  | ctxSave (who : Requester) (t : TileId) (v : Word)
  /-- CTX_RESTORE (R393): TILE_CTX_CTL.RESTORE starts reading a saved context back into the tile. -/
  | ctxRestore (who : Requester) (t : TileId) (v : Word)
  /-- CTX_DONE (R404): A save or restore completes and TILE_CTX_STAT.BUSY clears. -/
  | ctxDone (t : TileId)
  /-- JOB_RESUME (R393): A pre-empted QM job's tiles and barriers are free and it is restored and resumed. -/
  | jobResume (p : PartId) (j : Nat)
  /-- MARK_MISSED (R395): A mark's deadline arrives before the mark is reached; the job is aborted with class 0x0C MARK_MISSED. -/
  | markMissed (p : PartId) (j : Nat) (m : Nat)
  /-- JOB_BUDGET_MISSED (R395): START + JOB_BUDGET arrives before JOB_END; the job is aborted with class 0x0C JOB_BUDGET. -/
  | jobBudgetMissed (p : PartId) (j : Nat)
  /-- WINDOW_RESERVE (R398): A frame window's reserve begins; running jobs are aborted with WINDOW_END. -/
  | windowReserve (p : PartId)
  /-- WINDOW_CLOSE (R398): A frame window ends and a waiting FRAME_START release may open the next. -/
  | windowClose (p : PartId)
  /-- PART_SYNC (R401): A write to PART_SYNC issues SYNC tokens that commit the partition's SYNC groups. -/
  | partSync (who : Requester) (p : PartId) (v : Word)
  /-- PART_CNT_READ (R402): A read of PART_CNT_LO returns the low half and latches the high half. -/
  | partCntRead (who : Requester) (p : PartId)
  /-- EVIDENCE_RECORD (R409): Caldera's intake accepts one evidence record. -/
  | evidenceRecord
  /-- TILE_HEARTBEAT (R410): A tile of a running SAFE job sends its periodic or final heartbeat. -/
  | tileHeartbeat (t : TileId)
  /-- TILE_LOST (R410): No heartbeat arrives within CAL_HB_LIMIT and Caldera declares the tile lost. -/
  | tileLost (t : TileId)
  /-- EVIDENCE_TIMEOUT (R417): A job's evidence is incomplete CAL_EVID_LIMIT after its JOB_END, making it LATE. -/
  | evidenceTimeout (j : Nat)
  /-- VERDICT_WRITE (R419): Caldera writes verdict records into the ring, or holds them while it is full. -/
  | verdictWrite
  /-- CAL_VRING_REL (R419): CAL_VRING_REL releases verdict ring entries. -/
  | calVringRel (who : Requester) (v : Word)
  /-- LOCKSTEP (R408): Caldera's paired cores or intake units disagree; it restarts, or enters FAULT on a second mismatch within 1 s. -/
  | lockstep
  /-- CALDERA_RESTART_DONE (R408): Caldera's restart self-test passes and it returns to NORMAL. -/
  | calderaRestartDone (pass : Bool)
  /-- CAL_FW_HB (R409): The firmware writes its heartbeat to CAL_FW_HB. -/
  | calFwHb (who : Requester) (v : Word)
  /-- FW_LOST (R407): No firmware heartbeat arrives within CAL_FW_HB_LIMIT; Caldera enters DEGRADED. -/
  | fwLost
  /-- CLR_DEGRADED (R407): CAL_CTRL.CLR_DEGRADED returns Caldera to NORMAL if its conditions hold. -/
  | clrDegraded (who : Requester)
  /-- CAL_ECC (R407): An uncorrectable Caldera SRAM error puts Caldera in FAULT. -/
  | calEcc
  /-- CAL_TILE_FORCE (R440): PART0 takes a named tile out of service through CAL_TILE_FORCE. -/
  | calTileForce (who : Requester) (v : Word)
  /-- CAL_CLR_VCNT (R440): CAL_CNT_CLR.VCNT clears every CAL_VCNTv. -/
  | calClrVcnt (who : Requester)
  /-- CAL_CLR_ST (R440): CAL_CNT_CLR.ST clears the self-test counts and CAL_ST_DEFER. -/
  | calClrSt (who : Requester)
  /-- GEYSER_SLICE_START (R422): The Geyser slice begins; the next tile group is selected and loaded with the golden patch. -/
  | geyserSliceStart
  /-- GEYSER_RESULT (R423): The Geyser slice ends; tiles are judged, failing tiles removed, verdicts amended or the slice counted missed. -/
  | geyserResult
  /-- SELFTEST_SLICE_START (R426): A tile-group or Caldera self-test slice starts when its conditions hold, or is deferred. -/
  | selftestSliceStart (caldera : Bool)
  /-- SELFTEST_SLICE_DONE (R427): A self-test slice ends; a failing tile leaves service and a failing Caldera enters FAULT. -/
  | selftestSliceDone (fails : BitVec 8)
  /-- COVERAGE (R426): A coverage interval passes without its self-test slice; a record and IRQ_RAW.COVERAGE result. -/
  | coverage (grp : Fin 13)
  /-- TILE_REMAP (R429): The firmware remaps a halted or lost SAFE tile onto a spare tile. -/
  | tileRemap (t : TileId) (bad : Bool)
  /-- REDIRECT_ENABLE (R430): A CAL_REDIRk entry is written and requests to tile FROM go to tile TO. -/
  | redirectEnable (who : Requester) (k : Fin 4) (v : Word)
  /-- PMBUS_TRANSACTION (R443): A PMBus transaction with a regulator completes, or is retried once and then faulted. -/
  | pmbusTransaction (acked : Bool)
  /-- PMBUS_POLL (R444): Every 1 ms the part reads READ_VOUT and READ_IOUT of each regulator and checks VDD_CD. -/
  | pmbusPoll (vout : BitVec 16)
  /-- VAON_LOW (R445): VAON falls below 0.74 V for 1 us; the Fumarole flush starts and admission stops. -/
  | vaonLow
  /-- WAKE_REQUEST (R447): A domain receives a wake request and its prerequisites are requested. -/
  | wakeRequest (d : Domain)
  /-- WAKE_WINDOW (R449): A wake window boundary arrives and queued requests are admitted within the budget. -/
  | wakeWindow
  /-- DOMAIN_POWER_GOOD (R446): An admitted domain's ramp completes and it is powered with clocks running. -/
  | domainPowerGood (d : Domain)
  /-- WAKE_TIMEOUT (R450): A ramp misses power-good within 50 us; the domain is switched off and its pages fault. -/
  | wakeTimeout (d : Domain)
  /-- DOMAIN_OFF (R448): A domain's off conditions have held for PWR_OFF_DELAY and it turns off. -/
  | domainOff (d : Domain)
  /-- ALERT (R466): PWR_ALERT_N falls; the alert floor goes to P5, admission freezes and class 0x08 ALERT is recorded. -/
  | alert
  /-- ALERT_RELEASE (R450): PWR_ALERT_N returns high; admission resumes at the next window. -/
  | alertRelease
  /-- ALERT_HOLD_EXPIRY (R466): PWR_ALERT_N has been high for HOLD_US and the alert floor returns to P0. -/
  | alertHoldExpiry
  /-- DEEP_IDLE_ENTER (R451): PWR_IDLE.ENTER puts the part into deep idle, or is refused. -/
  | deepIdleEnter (who : Requester)
  /-- WAKE_N (R452): WAKE_N low for 3 AON cycles ends deep idle and starts the exit sequence. -/
  | wakeN
  /-- SDIO_START_BIT (R452): A start bit on an SDIO CMD line ends deep idle. -/
  | sdioStartBit (p : PartId)
  /-- PWR_WAKE_TIMER (R452): PWR_WAKE_TIMER expires in deep idle and ends it. -/
  | pwrWakeTimer
  /-- ROOT_SWITCH (R456): A write to CLK_ROOT.SRC starts a root switch, or is refused. -/
  | rootSwitch (who : Requester) (v : Word)
  /-- ROOT_SWITCH_DONE (R456): A root switch completes and SWITCHING clears. -/
  | rootSwitchDone
  /-- SOURCE_READY (R454): A clock source becomes ready, a PLL locks or a crystal settles. -/
  | sourceReady (src : Fin 6)
  /-- CLOCK_MONITOR (R457): Every 10 us sources are compared with FOSC; a failed source is marked and a failed root falls back to FOSC. -/
  | clockMonitor (src : Fin 6) (lost : Bool)
  /-- PSTATE_CHANGE (R460): The effective ARITH state changes; slower changes switch the divisor, faster ones command the voltage first. -/
  | pstateChange
  /-- VOLTAGE_SETTLED (R460): VDD_CD is within 10 mV or 200 us have passed, and a faster divisor is switched in. -/
  | voltageSettled (mv : Nat)
  /-- SENSOR_SAMPLE (R461): A temperature sensor is sampled, validated and compared with its thresholds. -/
  | sensorSample (sensor : Sensor) (reading : Int)
  /-- THERMAL_STEP (R462): STEP_US passes with a sensor at LIMIT and the thermal floor rises one state. -/
  | thermalStep
  /-- THERMAL_RELAX (R462): THM_RELAX passes with all sensors below LIMIT minus HYST and the thermal floor falls one state. -/
  | thermalRelax
  /-- POWER_ESTIMATE (R464): Every 10 us the package power estimate is updated. -/
  | powerEstimate (mw : BitVec 17)
  /-- POWER_RECALIBRATE (R464): Every 1 ms the estimate's factors are recalibrated against READ_IOUT and READ_VOUT. -/
  | powerRecalibrate
  /-- CAP_THROTTLE (R465): Every 10 us the cap controller adds or removes one throttle step. -/
  | capThrottle
  /-- POR (R471): VAON rises and stays in range for 1 ms; the package resets and boots with no retention. -/
  | por
  /-- PIN (R471): RESET_N low for at least 1 us resets the package after a Fumarole flush. -/
  | pin
  /-- SEC_RST_ARM (R472): SEC_RST_CTL.ARM arms a soft reset for 1 ms. -/
  | secRstArm (who : Requester)
  /-- SOFT (R472): SEC_RST_CTL.GO against an armed ARM resets the package after a flush. -/
  | soft (who : Requester) (v : Word)
  /-- WDOG_KICK (R471): SEC_WDOG.KICK restarts the watchdog. -/
  | wdogKick (who : Requester)
  /-- WDOG (R471): The watchdog expires and the package resets after a flush. -/
  | wdog
  /-- BOOT_SEQUENCE (R473): After a reset the boot sequence powers XCORES, reads fuses and Sinter, starts clocks and links, obtains, checks and starts the image. -/
  | bootSequence (o : BootObs)
  /-- BOOT_IMAGE (R476): The BOOT_IMAGE mailbox service checks a pushed image and starts it or rewinds the ring. -/
  | bootImage (p : PartId)
  /-- ATTEST (R482): The ATTEST service signs a digest of the image, partition configuration and nonce and writes the result. -/
  | attest (p : PartId)
  /-- CERT (R480): The CERT service writes the unit's certificate to the requester's address. -/
  | cert (p : PartId)
  /-- FUSE_CUSTKEY (R480): The FUSE_CUSTKEY service programs the customer key digest. -/
  | fuseCustkey (p : PartId) (good : Bool)
  /-- FUSE_REVOKE (R480): The FUSE_REVOKE service programs VENDOR_REVOKED. -/
  | fuseRevoke (p : PartId) (good : Bool)
  /-- ARB_ADVANCE (R480): The ARB_ADVANCE service advances the anti-rollback counter. -/
  | arbAdvance (p : PartId) (good : Bool)
  /-- BOOT_DISABLE (R480): The BOOT_DISABLE service programs SPI_BOOT_DIS or SDIO_BOOT_DIS. -/
  | bootDisable (p : PartId) (good : Bool)
  /-- UNKNOWN (R480): A mailbox message with an unknown SERVICE is answered with SERVICE 0xFF and its TAG. -/
  | unknown (p : PartId)
  /-- SEC_ARB_ADV (R479): A write to SEC_ARB_ADV blows rollback bits up to min(N, SEC_FW_VER). -/
  | secArbAdv (who : Requester) (v : Word) (good : Bool)
  /-- SNT_SNAP (R485): SNT_SNAP.GO starts a snapshot, or is held as one pending request. -/
  | sntSnap (who : Requester)
  /-- SNAPSHOT_COLLECTED (R485): A snapshot's values have been collected from every page and its slot write begins. -/
  | snapshotCollected
  /-- SNAPSHOT (R485): A snapshot's marker is written and it becomes the retained copy. -/
  | snapshot
  /-- IGNORE_WRITE (R488): A write to SNT_CTRL.IGNORE is stored at once in the flag block. -/
  | ignoreWrite (who : Requester) (v : Word)
  /-- TAG_WRITE (R490): A word of the user tag area is programmed, or discarded if its block is locked. -/
  | tagWrite (who : Requester) (idx : Fin 256) (v : Word)
  /-- TAG_LOCK (R490): A write to SNT_TAG_LOCK permanently locks tag blocks. -/
  | tagLock (who : Requester) (v : Word)
  /-- FUMAROLE_RECORD (R493): A record arrives at Fumarole and, if its bucket has a token, enters the buffer or is lost when full. -/
  | fumaroleRecord
  /-- FLUSH (R493): A Fumarole flush starts, by FUM_CTRL.FLUSH or another trigger, writing buffered records to Sinter. -/
  | flush (who : Requester)
  /-- FLUSHED (R493): A Fumarole flush completes and FLUSHED is set. -/
  | flushed
  /-- CLR_RING (R493): FUM_CTRL.CLR_RING empties the Fumarole ring. -/
  | clrRing (who : Requester)
  /-- TOKEN_REFILL (R495): A rate-limit bucket below BURST gains a token. -/
  | tokenRefill
  /-- SUPPRESSED (R495): One second passes with no suppression and a non-zero count; a SUPPRESSED record is written. -/
  | suppressed
  /-- FW_SRAM_ECC (R501): An uncorrectable firmware SRAM error stops every firmware core. -/
  | fwSramEcc (corrected : Bool)
  /-- XCORE_CNT_CLR (R500): XCORE_CNT_CLR.ECC clears XCORE_ECC. -/
  | xcoreCntClr (who : Requester)
  /-- CAL_LOAD_INTERVAL (R413): A 1 ms interval of Caldera's intake ends and CAL_LOAD takes the fraction of intake cycles that held a record in it. -/
  | calLoadInterval
  deriving DecidableEq, Repr

end Sys2Proof
end

