-- ==== Sys2Proof/Decode.lean ====
section
/-! DEFINITION. Commands spelled by words: the table of operations and events gives no row any bits, so no word spells
a command. -/

namespace Sys2Proof

/-- The command a word of `nbits` bits spells: none, whatever the word (every row of the table has no fields). -/
def decodeTableWord (_nbits _w : Nat) : Option Instr := none

end Sys2Proof
end

