-- ==== Sys2Proof/Config.lean ====
section
/-! DEFINITION. What the spec leaves open: opaque constants with no body, so that nothing can be proved from a value of
theirs (log 7). A statement holds whatever they are. -/

namespace Sys2Proof

/-- The n-th free value: a value the spec does not state. `n` is the state's own counter, so each use is fresh. -/
opaque Config.freeNat (n : Nat) : Nat
/-- The function e^x on FP32 bit patterns as the part's approximation gives it, within the bound of R97. -/
opaque Config.expApprox (x : Word) : Word
/-- The reciprocal as the part's approximation gives it, within the bound of R97. -/
opaque Config.recipApprox (x : Word) : Word
/-- The reciprocal square root as the part's approximation gives it, within the bound of R97. -/
opaque Config.rsqrtApprox (x : Word) : Word

/-- Where the part splits a floating-point sum of `n` terms whose order the spec does not give (R96, R97). -/
opaque Config.sumSplit (n : Nat) : Nat
/-- The lane tree's BF16 sum of the products, as exact pairs (mantissa, exponent), within the bound of R147. -/
opaque Config.laneSum (products : List (Int × Int)) : Word
/-- Conversion of a finite FP32 value to an integer: true rounds up where the value lies between two integers and
the spec names no rounding. -/
opaque Config.roundUp (x : Word) : Bool

/-- Does an exact quotient that lies between two integers round up, where the spec names no rounding? -/
opaque Config.quotUp (num den : Int) : Bool
/-- A value the spec does not state, by what it is and what it depends on (log 7). -/
opaque Config.openValue (what : Nat) (args : List Int) : Nat
/-- A colour the demosaic interpolates from its 5 × 5 window; R334 gives no formula. -/
opaque Config.demosaic (colour site thr : Nat) (window : List Nat) : Nat

/-- What the codec reads from an access unit or a JPEG image by the coding standards R354 names. -/
structure CodecPic where
  /-- The headers parse, and what follows has no error and no unsupported feature. -/
  headOk : Bool
  bodyOk : Bool
  width : Nat
  height : Nat
  /-- Within level 5.1. -/
  levelOk : Bool
  intra : Bool
  /-- An IDR or IRAP picture. -/
  idr : Bool
  blocks : Nat
  poc : Nat
  deriving DecidableEq, Repr, Inhabited

/-- Parsing by the standards of R354. -/
opaque Config.codecParse (mode : Nat) (unit : List Byte) : CodecPic
/-- The picture of the last of the access units since an IDR picture, by the standards of R354. -/
opaque Config.codecDecode (mode : Nat) (units : List (List Byte)) : List Byte
/-- The access unit of the last of the pictures since an IDR picture, by the standards of R354. -/
opaque Config.codecEncode (mode qp : Nat) (pictures : List (List Byte)) : List Byte

/-- VDDIO_SDn of a port is at 1.8 V; the board decides it (R366, R514). -/
opaque Config.vddioSd18 (port : Nat) : Bool
/-- SHAKE256 with a 64-byte output (R475, R477, R481, R482); the published function. -/
opaque Config.shake256 (data : List Byte) : List Byte
/-- Verification of a Falcon-1024 signature over a digest with a public key (R475, R477). -/
opaque Config.falconVerify (key sig digest : List Byte) : Bool
/-- The device key's Falcon-1024 signature over a digest; no register shows the key (R481, R482). -/
opaque Config.deviceSign (digest : List Byte) : List Byte
/-- The unit's certificate in Sinter, byte by byte (R481). -/
opaque Config.certificate (offset : Nat) : Byte

end Sys2Proof
end

