-- ==== Sys2Proof/Machine/Bits.lean ====
section
/-! DEFINITION. Bit fields, sign extension and byte order (R8), and the table type the state is made of. -/

namespace Sys2Proof.Machine

/-! ## Bit fields -/

/-- A register field: the register's offset in its page, the lowest bit and the width. -/
structure Fld where
  off : Nat
  lo : Nat
  width : Nat
  deriving DecidableEq, Repr

/-- Bits `[lo+width-1:lo]` of a natural number. -/
def bitsOf (v lo width : Nat) : Nat := (v / 2 ^ lo) % 2 ^ width

/-- Field `f` of the word `w`. -/
def Fld.get (f : Fld) (w : Word) : Nat := bitsOf w.toNat f.lo f.width

/-- The mask of the bits `[lo+width-1:lo]`. -/
def maskOf (lo width : Nat) : Word := BitVec.ofNat 32 ((2 ^ width - 1) * 2 ^ lo)

/-- The word `w` with field `f` set to `v` modulo the field's width. -/
def Fld.put (f : Fld) (w : Word) (v : Nat) : Word :=
  (w &&& ~~~ maskOf f.lo f.width) ||| BitVec.ofNat 32 ((v % 2 ^ f.width) * 2 ^ f.lo)

/-- Bit `i` of a word. -/
def bitAt (w : Word) (i : Nat) : Bool := w.getLsbD i

/-- The word with only bit `i` set. -/
def oneBit (i : Nat) : Word := BitVec.ofNat 32 (2 ^ i)

/-- 1 for true, 0 for false. -/
def b2n (b : Bool) : Nat := if b then 1 else 0

/-- Two's complement reading of the low `width` bits of `v`. -/
def signed (width v : Nat) : Int :=
  let u := v % 2 ^ width
  if u < 2 ^ (width - 1) then (u : Int) else (u : Int) - (2 ^ width : Nat)

/-- The `width`-bit two's complement pattern of an integer. -/
def unsignedOf (width : Nat) (i : Int) : Nat := (i % (2 ^ width : Nat)).toNat

/-- Saturation of an integer to `[lo, hi]`. -/
def clampI (lo hi v : Int) : Int := if v < lo then lo else if hi < v then hi else v

/-- Addition that saturates at `2^width - 1`, as the part's saturating counters do. -/
def satAdd (width a b : Nat) : Nat := min (a + b) (2 ^ width - 1)

/-- Division by a power of two, rounded to nearest, ties to even: `⌊a / 2^k⌉`. -/
def rneShift (a : Int) (k : Nat) : Int :=
  let d : Int := (2 ^ k : Nat)
  let q := a / d
  let r := a % d
  if 2 * r < d then q else if d < 2 * r then q + 1 else if q % 2 = 0 then q else q + 1

/-- Ceiling division of naturals. -/
def ceilDiv (a b : Nat) : Nat := (a + b - 1) / b

/-! ## Byte order (R8: little-endian) -/

/-- The number the bytes stand for, lowest byte first. -/
def leNat : List Byte → Nat
  | [] => 0
  | b :: r => b.toNat + 256 * leNat r

/-- The low `n` bytes of a number, lowest first. -/
def leBytes : Nat → Nat → List Byte
  | 0, _ => []
  | n + 1, v => BitVec.ofNat 8 v :: leBytes n (v / 256)

/-- The four bytes of a word. -/
def wordBytes (w : Word) : List Byte := leBytes 4 w.toNat

/-- The words of a byte string, four bytes each, zero filled. -/
def wordsOf : List Byte → List Word
  | a :: b :: c :: d :: r => BitVec.ofNat 32 (leNat [a, b, c, d]) :: wordsOf r
  | [] => []
  | l => [BitVec.ofNat 32 (leNat l)]

/-! ## Tables: plain data with a default value -/

/-- A table from keys to values; a key that is not listed has a default the reader names. -/
abbrev Tab (κ α : Type) := List (κ × α)

/-- The value at a key. -/
def Tab.get {κ α : Type} [DecidableEq κ] (d : α) : Tab κ α → κ → α
  | [], _ => d
  | (k', v) :: r, k => if k = k' then v else Tab.get d r k

/-- The table without the keys that satisfy `p`. -/
def Tab.drop {κ α : Type} (t : Tab κ α) (p : κ → Bool) : Tab κ α := t.filter (fun e => !p e.1)

/-- The table with one key set. -/
def Tab.put {κ α : Type} [DecidableEq κ] (t : Tab κ α) (k : κ) (v : α) : Tab κ α :=
  (k, v) :: Tab.drop t (fun k' => decide (k' = k))

/-- The sum of a list. -/
def sumN (l : List Nat) : Nat := l.foldl (· + ·) 0

/-- The numbers `0, 1, …, n-1`. -/
def upTo (n : Nat) : List Nat := List.range n

/-- The list with element `i` replaced; unchanged when there is none. -/
def setAt {α : Type} (l : List α) (i : Nat) (v : α) : List α := l.set i v

/-- Element `i`, or `d` past the end. -/
def nth {α : Type} (d : α) (l : List α) (i : Nat) : α := l.getD i d

/-- Is `b` a member of the part `[lo, hi]` of the numbers. -/
def within (lo hi b : Nat) : Bool := decide (lo ≤ b ∧ b ≤ hi)

end Sys2Proof.Machine
end

