-- ==== Sys2Proof/Machine/Float.lean ====
section
/-! DEFINITION. Floating point as R99, R116 and R120 give it: FP32 and BF16, round to nearest even, subnormals flushed
to zero of the same sign, one NaN pattern. Finite values are exact: an integer times a power of two. -/

namespace Sys2Proof.Machine

/-- A floating value: NaN, an infinity (true is negative), or `± m · 2^e`. -/
inductive FV where
  | nan
  | inf (neg : Bool)
  | fin (neg : Bool) (m : Nat) (e : Int)
  deriving DecidableEq, Repr

/-- The value of an FP32 pattern; a subnormal reads as zero of its sign (R99). -/
def fv32 (w : Nat) : FV :=
  let neg := bitsOf w 31 1 = 1
  let ex := bitsOf w 23 8
  let fr := bitsOf w 0 23
  if ex = 255 then (if fr = 0 then .inf neg else .nan)
  else if ex = 0 then .fin neg 0 0
  else .fin neg (fr + 2 ^ 23) ((ex : Int) - 150)

/-- The value of a BF16 pattern, the upper half of an FP32 (R111). -/
def fv16 (w : Nat) : FV := fv32 (bitsOf w 0 16 * 2 ^ 16)

/-- `a / 2^k` rounded to nearest even, on naturals. -/
def rneNat (a k : Nat) : Nat :=
  let d := 2 ^ k
  let q := a / d
  let r := a % d
  if 2 * r < d then q else if d < 2 * r then q + 1 else if q % 2 = 0 then q else q + 1

/-- Round to `p` significant bits, to nearest even: the mantissa (p bits, or 0) and its exponent. -/
def roundSig (p m : Nat) (e : Int) : Nat × Int :=
  if m = 0 then (0, 0) else
  let n := m.log2 + 1
  if n ≤ p then (m * 2 ^ (p - n), e - (p - n : Nat))
  else
    let r := rneNat m (n - p)
    if r = 2 ^ p then (2 ^ (p - 1), e + (n - p : Nat) + 1) else (r, e + (n - p : Nat))

/-- The pattern, in the upper `9 + (p-1)` bits' own width, of a value rounded to `p` significant bits: FP32 for 24,
BF16 for 8. Results too small for a normal number become zero of the same sign (R99); too large ones infinity. -/
def packP (p : Nat) : FV → Nat
  | .nan => (0x7FC0 : Nat) * 2 ^ (p - 8)
  | .inf neg => (b2n neg * 256 + 255) * 2 ^ (p - 1)
  | .fin neg m e =>
    let r := roundSig p m e
    if r.1 = 0 then b2n neg * 2 ^ (p + 7) else
    let ex : Int := r.2 + (p - 1 : Nat) + 127
    if ex < 1 then b2n neg * 2 ^ (p + 7)
    else if 254 < ex then (b2n neg * 256 + 255) * 2 ^ (p - 1)
    else (b2n neg * 256 + ex.toNat) * 2 ^ (p - 1) + (r.1 - 2 ^ (p - 1))

/-- The FP32 pattern of a value. -/
def pack32 (v : FV) : Nat := packP 24 v
/-- The BF16 pattern of a value. -/
def pack16 (v : FV) : Nat := packP 8 v

/-- The signed mantissa. -/
def sgn (neg : Bool) (m : Nat) : Int := if neg then -(m : Int) else m

/-- The value of an exact `i · 2^e`; zero takes the sign given. -/
def fvOf (zneg : Bool) (i e : Int) : FV := if i = 0 then .fin zneg 0 0 else .fin (decide (i < 0)) i.natAbs e

/-- Negation. -/
def FV.neg : FV → FV
  | .nan => .nan
  | .inf n => .inf (!n)
  | .fin n m e => .fin (!n) m e

/-- Exact sum before rounding. -/
def FV.add : FV → FV → FV
  | .nan, _ => .nan
  | _, .nan => .nan
  | .inf a, .inf b => if a = b then .inf a else .nan
  | .inf a, .fin _ _ _ => .inf a
  | .fin _ _ _, .inf b => .inf b
  | .fin n m e, .fin n' m' e' =>
    let lo := min e e'
    fvOf (n && n') (sgn n m * (2 ^ (e - lo).toNat : Nat) + sgn n' m' * (2 ^ (e' - lo).toNat : Nat)) lo

/-- Exact product before rounding. -/
def FV.mul : FV → FV → FV
  | .nan, _ => .nan
  | _, .nan => .nan
  | .inf a, .inf b => .inf (a != b)
  | .inf a, .fin n m _ => if m = 0 then .nan else .inf (a != n)
  | .fin n m _, .inf b => if m = 0 then .nan else .inf (n != b)
  | .fin n m e, .fin n' m' e' => .fin (n != n') (m * m') (e + e')

/-- `a ≤ b` on values that are not NaN; the two zeros are equal. -/
def FV.le : FV → FV → Bool
  | .nan, _ => false
  | _, .nan => false
  | .inf true, _ => true
  | _, .inf false => true
  | .inf false, _ => false
  | _, .inf true => false
  | .fin n m e, .fin n' m' e' =>
    let lo := min e e'
    decide (sgn n m * (2 ^ (e - lo).toNat : Nat) ≤ sgn n' m' * (2 ^ (e' - lo).toNat : Nat))

def FV.isNan : FV → Bool
  | .nan => true
  | _ => false
def FV.isFin : FV → Bool
  | .fin _ _ _ => true
  | _ => false

/-- FP32 addition, multiplication and fused multiply-add on patterns (R99). -/
def f32add (a b : Nat) : Nat := pack32 ((fv32 a).add (fv32 b))
def f32sub (a b : Nat) : Nat := pack32 ((fv32 a).add (fv32 b).neg)
def f32mul (a b : Nat) : Nat := pack32 ((fv32 a).mul (fv32 b))
def f32fma (a b c : Nat) : Nat := pack32 (((fv32 a).mul (fv32 b)).add (fv32 c))

/-- Minimum and maximum; a NaN operand gives NaN (R99). -/
def f32min (a b : Nat) : Nat :=
  let x := fv32 a
  let y := fv32 b
  if x.isNan || y.isNan then pack32 .nan else if x.le y then pack32 x else pack32 y
def f32max (a b : Nat) : Nat :=
  let x := fv32 a
  let y := fv32 b
  if x.isNan || y.isNan then pack32 .nan else if x.le y then pack32 y else pack32 x

/-- FP32 of an integer times 2^e. -/
def f32ofInt (i : Int) (e : Int := 0) : Nat := pack32 (fvOf false i e)

/-- `⌊v⌋` of a finite value. -/
def FV.floor : FV → Int
  | .fin n m e => if 0 ≤ e then sgn n m * (2 ^ e.toNat : Nat) else sgn n m / (2 ^ (-e).toNat : Nat)
  | _ => 0

/-- A finite value rounded to an integer, to nearest even (R99); the infinities saturate in the caller. -/
def FV.toIntRne : FV → Int
  | .fin n m e => if 0 ≤ e then sgn n m * (2 ^ e.toNat : Nat) else rneShift (sgn n m) (-e).toNat
  | _ => 0

/-- A floating-point sum whose order the spec does not give: a tree whose split points are free (R96, R97, log 7). -/
def sumTree (add : Nat → Nat → Nat) : Nat → List Nat → Nat
  | _, [] => 0
  | _, [x] => x
  | 0, x :: r => r.foldl add x
  | k + 1, l =>
    let i := 1 + Config.sumSplit l.length % (l.length - 1)
    add (sumTree add k (l.take i)) (sumTree add k (l.drop i))

/-- The FP32 sum of a list in the part's own order. -/
def f32sum (l : List Nat) : Nat := sumTree f32add l.length l

/-- The quotient of a finite value by a positive integer, exact but for a sticky last bit far below any rounding. -/
def FV.divNat (f : FV) (n : Nat) : FV :=
  match f with
  | .fin s m e => .fin s (2 * (m * 2 ^ 64 / n) + b2n (m * 2 ^ 64 % n != 0)) (e - 65)
  | f => f

/-! ## The built-in functions of group 3: within 2 units in the last place (R99)

The function is computed in fixed point, far beyond FP32; the part's value is free within two units in the last place of
it. -/

/-- One in fixed point. -/
def fxOne : Nat := 2 ^ 96
/-- ln 2 with 96 fraction bits. -/
def fxLn2 : Nat := 54916777467707473351141471128

/-- `e^r` for `0 ≤ r < 1` in fixed point: the Taylor sum by Horner from term `k` down. -/
def fxExp (r : Nat) : Nat → Nat → Nat
  | 0, acc => acc
  | k + 1, acc => fxExp r k (fxOne + r * acc / fxOne / (k + 1))

/-- `e^x` in fixed point. -/
def expRef (w : Nat) : FV :=
  match fv32 w with
  | .nan => .nan
  | .inf neg => if neg then .fin false 0 0 else .inf false
  | .fin n m e =>
    if 8 ≤ e + (m.log2 : Int) then (if n then .fin false 0 0 else .inf false) else
    let x : Int := if 0 ≤ e + 96 then sgn n m * (2 ^ (e + 96).toNat : Nat) else sgn n m / (2 ^ (-(e + 96)).toNat : Nat)
    let k := x / (fxLn2 : Int)
    let r := (x - k * (fxLn2 : Int)).toNat
    .fin false (fxExp r 30 fxOne) (k - 96)

/-- `1/x` in fixed point. -/
def recipRef (w : Nat) : FV :=
  match fv32 w with
  | .nan => .nan
  | .inf neg => .fin neg 0 0
  | .fin n m e => if m = 0 then .inf n else .fin n (2 ^ 96 / m) (-e - 96)

/-- `1/√x` in fixed point. -/
def rsqrtRef (w : Nat) : FV :=
  match fv32 w with
  | .nan => .nan
  | .inf neg => if neg then .nan else .fin false 0 0
  | .fin n m e =>
    if m = 0 then .inf n else if n then .nan else
    let me := if e % 2 = 0 then (m, e) else (2 * m, e - 1)
    .fin false (Nat.sqrt (2 ^ 192 / me.1)) (-(me.2 / 2) - 96)

/-- The normal finite value `a` lies within two units in the last place of the value `v`, less 2^-30 of one for what the
fixed point leaves out. -/
def within2 (a v : FV) : Bool :=
  match a, v with
  | .fin n m e, .fin n' m' e' =>
    let lo := min e (min e' (-150 - 30))
    let x := sgn n m * (2 ^ (e - lo).toNat : Nat)
    let y := sgn n' m' * (2 ^ (e' - lo).toNat : Nat)
    let ulp : Int := (2 ^ (e' + (m'.log2 : Int) - 23 - 30 - lo).toNat : Nat)
    decide ((x - y).natAbs ≤ (2 ^ 31 - 1) * ulp.natAbs)
  | _, _ => false

/-- The part's value where the spec gives a bound of two units in the last place: the free value if it lies within them,
else the value rounded to nearest even. -/
def near2 (free : Nat) (v : FV) : Nat :=
  if bitsOf (pack32 v) 23 8 = 0 || bitsOf free 23 8 = 0 || !(fv32 (pack32 v)).isFin then pack32 v
  else if within2 (fv32 free) v then free else pack32 v

def f32exp (w : Nat) : Nat := near2 (Config.expApprox (BitVec.ofNat 32 w)).toNat (expRef w)
def f32recip (w : Nat) : Nat := near2 (Config.recipApprox (BitVec.ofNat 32 w)).toNat (recipRef w)
def f32rsqrt (w : Nat) : Nat := near2 (Config.rsqrtApprox (BitVec.ofNat 32 w)).toNat (rsqrtRef w)

end Sys2Proof.Machine
end

