-- ==== Sys2Proof/Machine/Fields.lean ====
section
/-! DEFINITION. The named fields of every register page: the common header (R38 to R44, R53) and the pages' own
tables. A register that comes in numbers takes its index. A field of the shared-engine pages that WARP, CODEC and
TOKEN have alike is named once, `Fl.ch…` or `Fl.eng…` (R363). -/

namespace Sys2Proof.Machine

/-- CTRL.EN (R39). -/
def Fl.ctrlEn : Fld := ⟨0x008, 0, 1⟩
/-- STATE.STATE (R39). -/
def Fl.state : Fld := ⟨0x00C, 0, 3⟩
/-- IRQ_RAW, all bits (R41). -/
def Fl.irqRaw : Fld := ⟨0x010, 0, 32⟩
/-- IRQ_MASK.MASK (R41). -/
def Fl.irqMask : Fld := ⟨0x014, 0, 32⟩
/-- FAULT.DETAIL (R41). -/
def Fl.faultDetail : Fld := ⟨0x01C, 0, 8⟩
/-- FAULT.CLASS (R41). -/
def Fl.faultClass : Fld := ⟨0x01C, 8, 8⟩
/-- FAULT.MORE (R41). -/
def Fl.faultMore : Fld := ⟨0x01C, 16, 1⟩
/-- TXN_STAT.GSTATE (R53). -/
def Fl.txnGstate : Fld := ⟨0x024, 0, 3⟩
/-- TXN_STAT.GID (R53). -/
def Fl.txnGid : Fld := ⟨0x024, 4, 4⟩
/-- TXN_STAT.EVENT (R53). -/
def Fl.txnEvent : Fld := ⟨0x024, 8, 3⟩
/-- TXN_STAT.ARG (R53). -/
def Fl.txnArg : Fld := ⟨0x024, 12, 4⟩
/-- TXN_STAT.REOPEN (R53). -/
def Fl.txnReopen : Fld := ⟨0x024, 16, 1⟩
/-- TXN_STAT.STAGED (R53). -/
def Fl.txnStaged : Fld := ⟨0x024, 17, 7⟩
/-- TXN_STAT.ROUND (R53). -/
def Fl.txnRound : Fld := ⟨0x024, 24, 8⟩
/-- OWNER.PART (R44). -/
def Fl.ownerPart : Fld := ⟨0x028, 0, 2⟩
/-- OWNER.SHARED (R44). -/
def Fl.ownerShared : Fld := ⟨0x028, 8, 1⟩
/-- LOCK.CFG (R44). -/
def Fl.lockCfg : Fld := ⟨0x02C, 0, 1⟩
/-- LOCK.OWN (R44). -/
def Fl.lockOwn : Fld := ⟨0x02C, 1, 1⟩
/-- HUB_LINK_STATk.STATE (R27). -/
def Fl.hubLinkStatState (i : Nat) : Fld := ⟨0x800 + 0x4 * i, 0, 3⟩
/-- HUB_LINK_STATk.DETOUR (R27). -/
def Fl.hubLinkStatDetour (i : Nat) : Fld := ⟨0x800 + 0x4 * i, 3, 1⟩
/-- HUB_LINK_STATk.SPARED (R27). -/
def Fl.hubLinkStatSpared (i : Nat) : Fld := ⟨0x800 + 0x4 * i, 4, 1⟩
/-- HUB_LINK_STATk.RETRAIN_CNT (R27). -/
def Fl.hubLinkStatRetrainCnt (i : Nat) : Fld := ⟨0x800 + 0x4 * i, 8, 8⟩
/-- HUB_LINK_STATk.REPLAY_CNT (R27). -/
def Fl.hubLinkStatReplayCnt (i : Nat) : Fld := ⟨0x800 + 0x4 * i, 16, 16⟩
/-- HUB_LINK_CTRL.FORCE_DOWN (R28). -/
def Fl.hubLinkCtrlForceDown : Fld := ⟨0x820, 0, 6⟩
/-- HUB_LINK_CTRL.REPLAY_LIMIT (R28). -/
def Fl.hubLinkCtrlReplayLimit : Fld := ⟨0x820, 16, 8⟩
/-- TILE_ID.ID (R106). -/
def Fl.tileIdId : Fld := ⟨0x100, 0, 7⟩
/-- TILE_ID.X (R106). -/
def Fl.tileIdX : Fld := ⟨0x100, 8, 3⟩
/-- TILE_ID.Y (R106). -/
def Fl.tileIdY : Fld := ⟨0x100, 12, 4⟩
/-- TILE_BANK_OWN0.OWNERS (R106). -/
def Fl.tileBankOwn0Owners : Fld := ⟨0x104, 0, 32⟩
/-- TILE_BANK_OWN1.OWNERS (R106). -/
def Fl.tileBankOwn1Owners : Fld := ⟨0x108, 0, 32⟩
/-- TILE_QSTAT.LANE_Q (R106). -/
def Fl.tileQstatLaneQ : Fld := ⟨0x110, 0, 5⟩
/-- TILE_QSTAT.VEC_Q (R106). -/
def Fl.tileQstatVecQ : Fld := ⟨0x110, 8, 5⟩
/-- TILE_QSTAT.S0_Q (R106). -/
def Fl.tileQstatS0Q : Fld := ⟨0x110, 16, 6⟩
/-- TILE_QSTAT.S1_Q (R106). -/
def Fl.tileQstatS1Q : Fld := ⟨0x110, 24, 6⟩
/-- LANE_STATUS.BUSY (R107). -/
def Fl.laneStatusBusy : Fld := ⟨0x100, 0, 1⟩
/-- LANE_STATUS.LOAD_BUSY (R107). -/
def Fl.laneStatusLoadBusy : Fld := ⟨0x100, 1, 1⟩
/-- LANE_STATUS.ACTIVE_VALID (R107). -/
def Fl.laneStatusActiveValid : Fld := ⟨0x100, 2, 1⟩
/-- LANE_STATUS.SHADOW_VALID (R107). -/
def Fl.laneStatusShadowValid : Fld := ⟨0x100, 3, 1⟩
/-- LANE_STATUS.ACTIVE_PLANE (R107). -/
def Fl.laneStatusActivePlane : Fld := ⟨0x100, 4, 1⟩
/-- LANE_STATUS.FMT (R107). -/
def Fl.laneStatusFmt : Fld := ⟨0x100, 5, 2⟩
/-- LANE_STATUS.PERLANE (R107). -/
def Fl.laneStatusPerlane : Fld := ⟨0x100, 7, 1⟩
/-- LANE_ACC_V0L.V (R107). -/
def Fl.laneAccV0lV : Fld := ⟨0x110, 0, 32⟩
/-- LANE_ACC_V0H.V (R107). -/
def Fl.laneAccV0hV : Fld := ⟨0x114, 0, 32⟩
/-- LANE_ACC_V1L.V (R107). -/
def Fl.laneAccV1lV : Fld := ⟨0x118, 0, 32⟩
/-- LANE_ACC_V1H.V (R107). -/
def Fl.laneAccV1hV : Fld := ⟨0x11C, 0, 32⟩
/-- LANE_ACC_OVFx.OVF (R107). -/
def Fl.laneAccOvfOvf (i : Nat) : Fld := ⟨0x120 + 0x4 * i, 0, 32⟩
/-- LANE_ROWS_LO.ROWS (R107). -/
def Fl.laneRowsLoRows : Fld := ⟨0x130, 0, 32⟩
/-- LANE_ROWS_HI.ROWS (R107). -/
def Fl.laneRowsHiRows : Fld := ⟨0x134, 0, 16⟩
/-- LANE_CONFLICT.CYCLES (R107). -/
def Fl.laneConflictCycles : Fld := ⟨0x138, 0, 32⟩
/-- LANE_RES_CNT.MISMATCH (R107). -/
def Fl.laneResCntMismatch : Fld := ⟨0x13C, 0, 16⟩
/-- LANE_RES_CNT.SKIPPED (R107). -/
def Fl.laneResCntSkipped : Fld := ⟨0x13C, 16, 16⟩
/-- LANE_RES_LAST.ROW (R107). -/
def Fl.laneResLastRow : Fld := ⟨0x140, 0, 6⟩
/-- LANE_RES_LAST.BANK (R107). -/
def Fl.laneResLastBank : Fld := ⟨0x140, 6, 1⟩
/-- LANE_RES_LAST.MODE (R107). -/
def Fl.laneResLastMode : Fld := ⟨0x140, 8, 2⟩
/-- LANE_RES_LAST.PERLANE (R107). -/
def Fl.laneResLastPerlane : Fld := ⟨0x140, 16, 1⟩
/-- LANE_RES_LAST.LANE (R107). -/
def Fl.laneResLastLane : Fld := ⟨0x140, 24, 5⟩
/-- LANE_CNT_CLR.ROWS (R107). -/
def Fl.laneCntClrRows : Fld := ⟨0x14C, 0, 1⟩
/-- LANE_CNT_CLR.CONFLICT (R107). -/
def Fl.laneCntClrConflict : Fld := ⟨0x14C, 1, 1⟩
/-- LANE_CNT_CLR.RES (R107). -/
def Fl.laneCntClrRes : Fld := ⟨0x14C, 2, 1⟩
/-- VEC_STATUS.BUSY (R109). -/
def Fl.vecStatusBusy : Fld := ⟨0x100, 0, 1⟩
/-- VEC_STATUS.GROUP (R109). -/
def Fl.vecStatusGroup : Fld := ⟨0x100, 4, 4⟩
/-- VEC_LUTA_XMIN.XMIN (R109). -/
def Fl.vecLutaXminXmin : Fld := ⟨0x110, 0, 32⟩
/-- VEC_LUTA_SCALE.SCALE (R109). -/
def Fl.vecLutaScaleScale : Fld := ⟨0x114, 0, 32⟩
/-- VEC_LUTA_MODE.OUTSIDE (R109). -/
def Fl.vecLutaModeOutside : Fld := ⟨0x118, 0, 1⟩
/-- VEC_LUTB_XMIN.XMIN (R109). -/
def Fl.vecLutbXminXmin : Fld := ⟨0x120, 0, 32⟩
/-- VEC_LUTB_SCALE.SCALE (R109). -/
def Fl.vecLutbScaleScale : Fld := ⟨0x124, 0, 32⟩
/-- VEC_LUTB_MODE.OUTSIDE (R109). -/
def Fl.vecLutbModeOutside : Fld := ⟨0x128, 0, 1⟩
/-- VEC_RES_CNT.FLAGS (R109). -/
def Fl.vecResCntFlags : Fld := ⟨0x130, 0, 16⟩
/-- VEC_RES_LAST.GROUP (R109). -/
def Fl.vecResLastGroup : Fld := ⟨0x134, 0, 4⟩
/-- VEC_RES_LAST.LANE (R109). -/
def Fl.vecResLastLane : Fld := ⟨0x134, 8, 5⟩
/-- VEC_RES_LAST.PARITY (R109). -/
def Fl.vecResLastParity : Fld := ⟨0x134, 16, 1⟩
/-- VEC_NAN_CNT.COUNT (R109). -/
def Fl.vecNanCntCount : Fld := ⟨0x138, 0, 16⟩
/-- VEC_CONFLICT.CYCLES (R109). -/
def Fl.vecConflictCycles : Fld := ⟨0x13C, 0, 32⟩
/-- VEC_CNT_CLR.RES (R109). -/
def Fl.vecCntClrRes : Fld := ⟨0x14C, 0, 1⟩
/-- VEC_CNT_CLR.NAN (R109). -/
def Fl.vecCntClrNan : Fld := ⟨0x14C, 1, 1⟩
/-- VEC_CNT_CLR.CONFLICT (R109). -/
def Fl.vecCntClrConflict : Fld := ⟨0x14C, 2, 1⟩
/-- VEC_LUTA.COEF (R109). -/
def Fl.vecLutaCoef (i : Nat) : Fld := ⟨0x400 + 0x4 * i, 0, 32⟩
/-- VEC_LUTB.COEF (R109). -/
def Fl.vecLutbCoef (i : Nat) : Fld := ⟨0x800 + 0x4 * i, 0, 32⟩
/-- SCALE_CTRL.ADAPT_EN (R126). -/
def Fl.scaleCtrlAdaptEn : Fld := ⟨0x100, 0, 1⟩
/-- SCALE_JOB_CNT.JOBS (R126). -/
def Fl.scaleJobCntJobs : Fld := ⟨0x104, 0, 32⟩
/-- SCALE_ADAPT_CNT.UP (R126). -/
def Fl.scaleAdaptCntUp : Fld := ⟨0x108, 0, 16⟩
/-- SCALE_ADAPT_CNT.DOWN (R126). -/
def Fl.scaleAdaptCntDown : Fld := ⟨0x108, 16, 16⟩
/-- SCALE_CNT_CLR.ADAPT (R126). -/
def Fl.scaleCntClrAdapt : Fld := ⟨0x10C, 0, 1⟩
/-- STATS_CFG.WIDE_ALERT (R131). -/
def Fl.statsCfgWideAlert : Fld := ⟨0x100, 0, 6⟩
/-- STATS_CFG.WIDE_EN (R131). -/
def Fl.statsCfgWideEn : Fld := ⟨0x100, 8, 1⟩
/-- STATS_SEL.ENTRY (R131). -/
def Fl.statsSelEntry : Fld := ⟨0x104, 0, 10⟩
/-- STATS_DATA0.AMAX (R131). -/
def Fl.statsData0Amax : Fld := ⟨0x108, 0, 16⟩
/-- STATS_DATA0.SATCNT (R131). -/
def Fl.statsData0Satcnt : Fld := ⟨0x108, 16, 16⟩
/-- STATS_DATA1.FMAX (R131). -/
def Fl.statsData1Fmax : Fld := ⟨0x10C, 0, 16⟩
/-- STATS_DATA1.LOWRUN (R131). -/
def Fl.statsData1Lowrun : Fld := ⟨0x10C, 16, 8⟩
/-- STATS_DATA1.FSAT (R131). -/
def Fl.statsData1Fsat : Fld := ⟨0x10C, 24, 1⟩
/-- STATS_WIDE_CNT.RERUNS (R131). -/
def Fl.statsWideCntReruns : Fld := ⟨0x110, 0, 16⟩
/-- STATS_WIDE_CNT.UNTRACKED (R131). -/
def Fl.statsWideCntUntracked : Fld := ⟨0x110, 16, 16⟩
/-- STATS_CLIP_CNT.ELEMENTS (R131). -/
def Fl.statsClipCntElements : Fld := ⟨0x114, 0, 32⟩
/-- STATS_CNT_CLR.SEL (R131). -/
def Fl.statsCntClrSel : Fld := ⟨0x118, 0, 1⟩
/-- STATS_CNT_CLR.ALL (R131). -/
def Fl.statsCntClrAll : Fld := ⟨0x118, 1, 1⟩
/-- STATS_CNT_CLR.WIDE (R131). -/
def Fl.statsCntClrWide : Fld := ⟨0x118, 2, 1⟩
/-- STATS_CNT_CLR.CLIP (R131). -/
def Fl.statsCntClrClip : Fld := ⟨0x118, 3, 1⟩
/-- STATS_WHk_CFG.BASE (R131). -/
def Fl.statsWhCfgBase (i : Nat) : Fld := ⟨0x200 + 0x10 * i, 0, 10⟩
/-- STATS_WHk_CFG.VALID (R131). -/
def Fl.statsWhCfgValid (i : Nat) : Fld := ⟨0x200 + 0x10 * i, 31, 1⟩
/-- STATS_WHk_LO.HIST (R131). -/
def Fl.statsWhLoHist (i : Nat) : Fld := ⟨0x204 + 0x10 * i, 0, 32⟩
/-- STATS_WHk_HI.HIST (R131). -/
def Fl.statsWhHiHist (i : Nat) : Fld := ⟨0x208 + 0x10 * i, 0, 32⟩
/-- STATS_WHk_CNT.ONES (R131). -/
def Fl.statsWhCntOnes (i : Nat) : Fld := ⟨0x20C + 0x10 * i, 0, 7⟩
/-- TILE_SLOTr_CFG.BASE (R189). -/
def Fl.tileSlotCfgBase (i : Nat) : Fld := ⟨0x200 + 0x10 * i, 0, 20⟩
/-- TILE_SLOTr_CFG.NBUF_M1 (R189). -/
def Fl.tileSlotCfgNbufM1 (i : Nat) : Fld := ⟨0x200 + 0x10 * i, 24, 4⟩
/-- TILE_SLOTr_CFG.VALID (R189). -/
def Fl.tileSlotCfgValid (i : Nat) : Fld := ⟨0x200 + 0x10 * i, 31, 1⟩
/-- TILE_SLOTr_SIZE.LINES (R189). -/
def Fl.tileSlotSizeLines (i : Nat) : Fld := ⟨0x204 + 0x10 * i, 0, 15⟩
/-- TILE_SLOTr_SIZE.WR_IDX (R189). -/
def Fl.tileSlotSizeWrIdx (i : Nat) : Fld := ⟨0x204 + 0x10 * i, 16, 4⟩
/-- TILE_SLOTr_SIZE.RD_IDX (R189). -/
def Fl.tileSlotSizeRdIdx (i : Nat) : Fld := ⟨0x204 + 0x10 * i, 20, 4⟩
/-- TILE_SLOTr_STATE.BUFS (R189). -/
def Fl.tileSlotStateBufs (i : Nat) : Fld := ⟨0x208 + 0x10 * i, 0, 32⟩
/-- TILE_SLOTr_TAG.WIDE (R189). -/
def Fl.tileSlotTagWide (i : Nat) : Fld := ⟨0x20C + 0x10 * i, 0, 16⟩
/-- TILE_SLOTr_TAG.INVALID (R189). -/
def Fl.tileSlotTagInvalid (i : Nat) : Fld := ⟨0x20C + 0x10 * i, 16, 16⟩
/-- TILE_DESC_LOAD.HANDLE (R189). -/
def Fl.tileDescLoadHandle : Fld := ⟨0x400, 0, 16⟩
/-- TILE_DESC_STAT.USED (R189). -/
def Fl.tileDescStatUsed : Fld := ⟨0x404, 0, 7⟩
/-- TILE_DESC_STAT.WAIT (R189). -/
def Fl.tileDescStatWait : Fld := ⟨0x404, 16, 16⟩
/-- TILE_KILL.ENG (R189). -/
def Fl.tileKillEng : Fld := ⟨0x410, 0, 4⟩
/-- TILE_KILL_STAT.BUSY (R189). -/
def Fl.tileKillStatBusy : Fld := ⟨0x414, 0, 1⟩
/-- TILE_KILL_STAT.CYCLES (R189). -/
def Fl.tileKillStatCycles : Fld := ⟨0x414, 8, 8⟩
/-- TILE_KILL_STAT.COUNT (R189). -/
def Fl.tileKillStatCount : Fld := ⟨0x414, 16, 16⟩
/-- TILE_RUN.HALTED (R189). -/
def Fl.tileRunHalted : Fld := ⟨0x418, 0, 1⟩
/-- TILE_RUN.RESUME (R189). -/
def Fl.tileRunResume : Fld := ⟨0x418, 8, 1⟩
/-- TILE_SPANq.OPEN (R189). -/
def Fl.tileSpanOpen (i : Nat) : Fld := ⟨0x420 + 0x4 * i, 0, 6⟩
/-- TILE_SPANq.COMMITS (R189). -/
def Fl.tileSpanCommits (i : Nat) : Fld := ⟨0x420 + 0x4 * i, 16, 16⟩
/-- TILE_FCMDi.CMD (R189). -/
def Fl.tileFcmdCmd (i : Nat) : Fld := ⟨0x440 + 0x4 * i, 0, 32⟩
/-- TILE_FINFO.QUEUE (R189). -/
def Fl.tileFinfoQueue : Fld := ⟨0x450, 0, 2⟩
/-- TILE_FINFO.CLASS (R189). -/
def Fl.tileFinfoClass : Fld := ⟨0x450, 8, 8⟩
/-- TILE_FINFO.DETAIL (R189). -/
def Fl.tileFinfoDetail : Fld := ⟨0x450, 16, 8⟩
/-- TILE_FINFO.VALID (R189). -/
def Fl.tileFinfoValid : Fld := ⟨0x450, 30, 1⟩
/-- TILE_FINFO.CLR (R189). -/
def Fl.tileFinfoClr : Fld := ⟨0x450, 31, 1⟩
/-- TILE_GATHER_OOR.COUNT (R189). -/
def Fl.tileGatherOorCount : Fld := ⟨0x454, 0, 32⟩
/-- TILE_SLOT_FILL.RING (R189). -/
def Fl.tileSlotFillRing : Fld := ⟨0x458, 0, 5⟩
/-- TILE_SLOT_FILL.COUNT_M1 (R189). -/
def Fl.tileSlotFillCountM1 : Fld := ⟨0x458, 8, 4⟩
/-- TILE_SLOT_FILL.GO (R189). -/
def Fl.tileSlotFillGo : Fld := ⟨0x458, 31, 1⟩
/-- SEQ_CTRL.ILOCK (R217). -/
def Fl.seqCtrlIlock : Fld := ⟨0x100, 0, 1⟩
/-- SEQ_CTRL.AUTO_ILOCK (R217). -/
def Fl.seqCtrlAutoIlock : Fld := ⟨0x100, 1, 1⟩
/-- SEQ_STATUS.STATE (R217). -/
def Fl.seqStatusState : Fld := ⟨0x104, 0, 2⟩
/-- SEQ_STATUS.IL_ACTIVE (R217). -/
def Fl.seqStatusIlActive : Fld := ⟨0x104, 2, 1⟩
/-- SEQ_STATUS.AUTO_IL (R217). -/
def Fl.seqStatusAutoIl : Fld := ⟨0x104, 3, 1⟩
/-- SEQ_STATUS.WIDE_IL (R217). -/
def Fl.seqStatusWideIl : Fld := ⟨0x104, 4, 1⟩
/-- SEQ_STATUS.VIOL (R217). -/
def Fl.seqStatusViol : Fld := ⟨0x104, 5, 1⟩
/-- SEQ_STATUS.LOOP_DEPTH (R217). -/
def Fl.seqStatusLoopDepth : Fld := ⟨0x104, 8, 3⟩
/-- SEQ_STATUS.STALL (R217). -/
def Fl.seqStatusStall : Fld := ⟨0x104, 12, 3⟩
/-- SEQ_PC.PC (R217). -/
def Fl.seqPcPc : Fld := ⟨0x108, 0, 12⟩
/-- SEQ_START.PC (R217). -/
def Fl.seqStartPc : Fld := ⟨0x10C, 0, 12⟩
/-- SEQ_START.GO (R217). -/
def Fl.seqStartGo : Fld := ⟨0x10C, 31, 1⟩
/-- SEQ_FAULT.CAUSE (R217). -/
def Fl.seqFaultCause : Fld := ⟨0x110, 0, 4⟩
/-- SEQ_FAULT.PC (R217). -/
def Fl.seqFaultPc : Fld := ⟨0x110, 16, 12⟩
/-- SEQ_FAULT.CLR (R217). -/
def Fl.seqFaultClr : Fld := ⟨0x110, 31, 1⟩
/-- SEQ_CNTi.VALUE (R217). -/
def Fl.seqCntValue (i : Nat) : Fld := ⟨0x120 + 0x4 * i, 0, 24⟩
/-- SEQ_CMPk.REF (R217). -/
def Fl.seqCmpRef (i : Nat) : Fld := ⟨0x140 + 0x4 * i, 0, 24⟩
/-- SEQ_TXN_TIMEOUT.CYCLES (R217). -/
def Fl.seqTxnTimeoutCycles : Fld := ⟨0x150, 0, 32⟩
/-- SEQ_IMEM_STAT.GSTATE (R217). -/
def Fl.seqImemStatGstate : Fld := ⟨0x154, 0, 3⟩
/-- SEQ_IMEM_STAT.STAGED (R217). -/
def Fl.seqImemStatStaged : Fld := ⟨0x154, 4, 13⟩
/-- SEQ_IMEM_STAT.ROUND (R217). -/
def Fl.seqImemStatRound : Fld := ⟨0x154, 24, 8⟩
/-- SEQ_ILOCK_LIMIT.CYCLES (R217). -/
def Fl.seqIlockLimitCycles : Fld := ⟨0x158, 0, 24⟩
/-- SEQ_TPL_CNT.COUNT (R217). -/
def Fl.seqTplCntCount : Fld := ⟨0x15C, 0, 7⟩
/-- SEQ_ISSUED.COUNT (R217). -/
def Fl.seqIssuedCount : Fld := ⟨0x160, 0, 32⟩
/-- SEQ_EMITTED.COUNT (R217). -/
def Fl.seqEmittedCount : Fld := ⟨0x164, 0, 32⟩
/-- SEQ_VIOL_CNT.COUNT (R217). -/
def Fl.seqViolCntCount : Fld := ⟨0x168, 0, 16⟩
/-- SEQ_STALL_CYC.CYCLES (R217). -/
def Fl.seqStallCycCycles : Fld := ⟨0x16C, 0, 32⟩
/-- SEQ_CNT_CLR.VIOL (R217). -/
def Fl.seqCntClrViol : Fld := ⟨0x170, 0, 1⟩
/-- SEQ_CNT_CLR.STALL (R217). -/
def Fl.seqCntClrStall : Fld := ⟨0x170, 1, 1⟩
/-- SEQ_AGg_Tj.CNT (R217). -/
def Fl.seqAgTCnt (i j : Nat) : Fld := ⟨0x400 + 0x10 * i + 0x4 * j, 0, 3⟩
/-- SEQ_AGg_Tj.EN (R217). -/
def Fl.seqAgTEn (i j : Nat) : Fld := ⟨0x400 + 0x10 * i + 0x4 * j, 7, 1⟩
/-- SEQ_AGg_Tj.STRIDE (R217). -/
def Fl.seqAgTStride (i j : Nat) : Fld := ⟨0x400 + 0x10 * i + 0x4 * j, 16, 16⟩
/-- SEQ_TBINDt.AG0 (R217). -/
def Fl.seqTbindAg0 (i : Nat) : Fld := ⟨0x600 + 0x4 * i, 0, 5⟩
/-- SEQ_TBINDt.EN0 (R217). -/
def Fl.seqTbindEn0 (i : Nat) : Fld := ⟨0x600 + 0x4 * i, 7, 1⟩
/-- SEQ_TBINDt.AG1 (R217). -/
def Fl.seqTbindAg1 (i : Nat) : Fld := ⟨0x600 + 0x4 * i, 8, 5⟩
/-- SEQ_TBINDt.EN1 (R217). -/
def Fl.seqTbindEn1 (i : Nat) : Fld := ⟨0x600 + 0x4 * i, 15, 1⟩
/-- SEQ_TBINDt.AG2 (R217). -/
def Fl.seqTbindAg2 (i : Nat) : Fld := ⟨0x600 + 0x4 * i, 16, 5⟩
/-- SEQ_TBINDt.EN2 (R217). -/
def Fl.seqTbindEn2 (i : Nat) : Fld := ⟨0x600 + 0x4 * i, 23, 1⟩
/-- SPAD_ECC_CNT.CORRECTED (R280). -/
def Fl.spadEccCntCorrected : Fld := ⟨0x100, 0, 16⟩
/-- SPAD_ECC_CNT.UNCORR (R280). -/
def Fl.spadEccCntUncorr : Fld := ⟨0x100, 16, 16⟩
/-- SPAD_FLT_ADDR.OFFSET (R280). -/
def Fl.spadFltAddrOffset : Fld := ⟨0x104, 0, 20⟩
/-- SPAD_FLT_ADDR.PORT (R280). -/
def Fl.spadFltAddrPort : Fld := ⟨0x104, 24, 3⟩
/-- SPAD_FLT_ADDR.WRITE (R280). -/
def Fl.spadFltAddrWrite : Fld := ⟨0x104, 28, 1⟩
/-- SPAD_FLT_ADDR.ECC (R280). -/
def Fl.spadFltAddrEcc : Fld := ⟨0x104, 29, 1⟩
/-- SPAD_CONFLICTp.CYCLES (R280). -/
def Fl.spadConflictCycles (i : Nat) : Fld := ⟨0x110 + 0x4 * i, 0, 32⟩
/-- SPAD_STALLc.CYCLES (R280). -/
def Fl.spadStallCycles (i : Nat) : Fld := ⟨0x140 + 0x4 * i, 0, 32⟩
/-- SPAD_BAR_SEL.BAR (R280). -/
def Fl.spadBarSelBar : Fld := ⟨0x170, 0, 6⟩
/-- SPAD_BAR_VAL.COUNT (R280). -/
def Fl.spadBarValCount : Fld := ⟨0x174, 0, 16⟩
/-- SPAD_CNT_CLR.ECC (R280). -/
def Fl.spadCntClrEcc : Fld := ⟨0x178, 0, 1⟩
/-- SPAD_CNT_CLR.CONFLICT (R280). -/
def Fl.spadCntClrConflict : Fld := ⟨0x178, 1, 1⟩
/-- SPAD_CNT_CLR.STALL (R280). -/
def Fl.spadCntClrStall : Fld := ⟨0x178, 2, 1⟩
/-- STRM_STATUS.BUSY (R282). -/
def Fl.strmStatusBusy : Fld := ⟨0x100, 0, 1⟩
/-- STRM_STATUS.ARMED (R282). -/
def Fl.strmStatusArmed : Fld := ⟨0x100, 4, 4⟩
/-- STRM_STATUS.OUTSTANDING (R282). -/
def Fl.strmStatusOutstanding : Fld := ⟨0x100, 8, 9⟩
/-- STRM_MC_LAG_LIMIT.CYCLES (R282). -/
def Fl.strmMcLagLimitCycles : Fld := ⟨0x104, 0, 24⟩
/-- STRM_MC_DROP_CNT.COUNT (R282). -/
def Fl.strmMcDropCntCount : Fld := ⟨0x108, 0, 16⟩
/-- STRM_MC_DROP_LAST.TILE (R282). -/
def Fl.strmMcDropLastTile : Fld := ⟨0x10C, 0, 7⟩
/-- STRM_MC_DROP_LAST.TAG (R282). -/
def Fl.strmMcDropLastTag : Fld := ⟨0x10C, 8, 8⟩
/-- STRM_MC_DROP_LAST.LINE (R282). -/
def Fl.strmMcDropLastLine : Fld := ⟨0x10C, 16, 16⟩
/-- STRM_LINES_LO.LINES (R282). -/
def Fl.strmLinesLoLines : Fld := ⟨0x110, 0, 32⟩
/-- STRM_LINES_HI.LINES (R282). -/
def Fl.strmLinesHiLines : Fld := ⟨0x114, 0, 16⟩
/-- STRM_CNT_CLR.DROP (R282). -/
def Fl.strmCntClrDrop : Fld := ⟨0x118, 0, 1⟩
/-- STRM_CNT_CLR.LINES (R282). -/
def Fl.strmCntClrLines : Fld := ⟨0x118, 1, 1⟩
/-- STRM_CHk_STAT.SDESC (R282). -/
def Fl.strmChStatSdesc (i : Nat) : Fld := ⟨0x140 + 0x10 * i, 0, 5⟩
/-- STRM_CHk_STAT.ARMED (R282). -/
def Fl.strmChStatArmed (i : Nat) : Fld := ⟨0x140 + 0x10 * i, 8, 1⟩
/-- STRM_CHk_STAT.RUNNING (R282). -/
def Fl.strmChStatRunning (i : Nat) : Fld := ⟨0x140 + 0x10 * i, 9, 1⟩
/-- STRM_CHk_STAT.REARM_PEND (R282). -/
def Fl.strmChStatRearmPend (i : Nat) : Fld := ⟨0x140 + 0x10 * i, 10, 1⟩
/-- STRM_CHk_STAT.REARM_OVERRUN (R282). -/
def Fl.strmChStatRearmOverrun (i : Nat) : Fld := ⟨0x140 + 0x10 * i, 11, 1⟩
/-- STRM_CHk_STAT.BLOCK (R282). -/
def Fl.strmChStatBlock (i : Nat) : Fld := ⟨0x140 + 0x10 * i, 16, 16⟩
/-- STRM_SDESCd_Wi.WORD (R282). -/
def Fl.strmSdescWWord (i j : Nat) : Fld := ⟨0x400 + 0x20 * i + 0x4 * j, 0, 32⟩
/-- HUB_MEM_CFG.SUBCH (R318). -/
def Fl.hubMemCfgSubch : Fld := ⟨0x100, 0, 2⟩
/-- HUB_MEM_CFG.RANKS (R318). -/
def Fl.hubMemCfgRanks : Fld := ⟨0x100, 2, 1⟩
/-- HUB_MEM_CFG.WIDTH (R318). -/
def Fl.hubMemCfgWidth : Fld := ⟨0x100, 3, 1⟩
/-- HUB_MEM_CFG.DENSITY (R318). -/
def Fl.hubMemCfgDensity : Fld := ⟨0x100, 4, 2⟩
/-- HUB_MEM_CFG.SPEED (R318). -/
def Fl.hubMemCfgSpeed : Fld := ⟨0x100, 8, 2⟩
/-- HUB_MEM_CAP.GIB (R318). -/
def Fl.hubMemCapGib : Fld := ⟨0x104, 0, 7⟩
/-- HUB_BW_WHEEL.POS (R318). -/
def Fl.hubBwWheelPos : Fld := ⟨0x110, 0, 32⟩
/-- HUB_BW_PARTp.READ_SH (R318). -/
def Fl.hubBwPartReadSh (i : Nat) : Fld := ⟨0x120 + 0x4 * i, 0, 5⟩
/-- HUB_BW_PARTp.WRITE_SH (R318). -/
def Fl.hubBwPartWriteSh (i : Nat) : Fld := ⟨0x120 + 0x4 * i, 8, 5⟩
/-- HUB_BW_PARTp.REMOTE_SH (R318). -/
def Fl.hubBwPartRemoteSh (i : Nat) : Fld := ⟨0x120 + 0x4 * i, 16, 5⟩
/-- HUB_BW_HELDp.COUNT (R318). -/
def Fl.hubBwHeldCount (i : Nat) : Fld := ⟨0x130 + 0x4 * i, 0, 32⟩
/-- HUB_LOAD_SELp.CLASS (R318). -/
def Fl.hubLoadSelClass (i : Nat) : Fld := ⟨0x140 + 0x8 * i, 4, 2⟩
/-- HUB_LOAD_SELp.SERVER (R318). -/
def Fl.hubLoadSelServer (i : Nat) : Fld := ⟨0x140 + 0x8 * i, 8, 1⟩
/-- HUB_LOAD_VALp.LOAD (R318). -/
def Fl.hubLoadValLoad (i : Nat) : Fld := ⟨0x144 + 0x8 * i, 0, 11⟩
/-- HUB_BW_CLR.HELD (R318). -/
def Fl.hubBwClrHeld : Fld := ⟨0x160, 0, 1⟩
/-- HUB_DDR_STATUS.PHASE (R319). -/
def Fl.hubDdrStatusPhase : Fld := ⟨0x100, 0, 3⟩
/-- HUB_DDR_STATUS.RESTORED (R319). -/
def Fl.hubDdrStatusRestored : Fld := ⟨0x100, 3, 1⟩
/-- HUB_DDR_STATUS.CAL_FAST (R319). -/
def Fl.hubDdrStatusCalFast : Fld := ⟨0x100, 4, 1⟩
/-- HUB_DDR_STATUS.REFRATE (R319). -/
def Fl.hubDdrStatusRefrate : Fld := ⟨0x100, 8, 3⟩
/-- HUB_DDR_CAL_CTRL.LIVE_EN (R319). -/
def Fl.hubDdrCalCtrlLiveEn : Fld := ⟨0x104, 0, 1⟩
/-- HUB_DDR_CAL_CTRL.INTERVAL (R319). -/
def Fl.hubDdrCalCtrlInterval : Fld := ⟨0x104, 8, 8⟩
/-- HUB_DDR_CAL_CTRL.DRIFT_LIMIT (R319). -/
def Fl.hubDdrCalCtrlDriftLimit : Fld := ⟨0x104, 16, 8⟩
/-- HUB_DDR_CAL_STAT.COUNT (R319). -/
def Fl.hubDdrCalStatCount : Fld := ⟨0x108, 0, 16⟩
/-- HUB_DDR_CAL_STAT.LAST_MOVE (R319). -/
def Fl.hubDdrCalStatLastMove : Fld := ⟨0x108, 16, 8⟩
/-- HUB_DDR_CAL_STAT.MAX_DRIFT (R319). -/
def Fl.hubDdrCalStatMaxDrift : Fld := ⟨0x108, 24, 8⟩
/-- HUB_DDR_LANEl.RD (R319). -/
def Fl.hubDdrLaneRd (i : Nat) : Fld := ⟨0x110 + 0x4 * i, 0, 8⟩
/-- HUB_DDR_LANEl.WR (R319). -/
def Fl.hubDdrLaneWr (i : Nat) : Fld := ⟨0x110 + 0x4 * i, 8, 8⟩
/-- HUB_DDR_LANEl.RD_TRAINED (R319). -/
def Fl.hubDdrLaneRdTrained (i : Nat) : Fld := ⟨0x110 + 0x4 * i, 16, 8⟩
/-- HUB_DDR_LANEl.WR_TRAINED (R319). -/
def Fl.hubDdrLaneWrTrained (i : Nat) : Fld := ⟨0x110 + 0x4 * i, 24, 8⟩
/-- HUB_DDR_OSC.COUNT (R319). -/
def Fl.hubDdrOscCount : Fld := ⟨0x130, 0, 16⟩
/-- HUB_DDR_OSC.BASE (R319). -/
def Fl.hubDdrOscBase : Fld := ⟨0x130, 16, 16⟩
/-- HUB_DDR_ECC.CORRECTED (R319). -/
def Fl.hubDdrEccCorrected : Fld := ⟨0x140, 0, 16⟩
/-- HUB_DDR_ECC.UNCORR (R319). -/
def Fl.hubDdrEccUncorr : Fld := ⟨0x140, 16, 16⟩
/-- HUB_DDR_ECC_ADDR.LINE (R319). -/
def Fl.hubDdrEccAddrLine : Fld := ⟨0x144, 0, 30⟩
/-- HUB_DDR_ECC_ADDR.UNCORR (R319). -/
def Fl.hubDdrEccAddrUncorr : Fld := ⟨0x144, 30, 1⟩
/-- HUB_DDR_ECC_ADDR.TAG (R319). -/
def Fl.hubDdrEccAddrTag : Fld := ⟨0x144, 31, 1⟩
/-- HUB_DDR_CE_LIMIT.LIMIT (R319). -/
def Fl.hubDdrCeLimitLimit : Fld := ⟨0x148, 0, 16⟩
/-- HUB_DDR_MAINT.SCRUB_EN (R319). -/
def Fl.hubDdrMaintScrubEn : Fld := ⟨0x14C, 0, 1⟩
/-- HUB_DDR_MAINT.SAMEBANK (R319). -/
def Fl.hubDdrMaintSamebank : Fld := ⟨0x14C, 1, 1⟩
/-- HUB_DDR_MAINT.RFM (R319). -/
def Fl.hubDdrMaintRfm : Fld := ⟨0x14C, 2, 1⟩
/-- HUB_DDR_MAINT.PASSES (R319). -/
def Fl.hubDdrMaintPasses : Fld := ⟨0x14C, 16, 16⟩
/-- HUB_DDR_CNT_CLR.ECC (R319). -/
def Fl.hubDdrCntClrEcc : Fld := ⟨0x150, 0, 1⟩
/-- HUB_DDR_CNT_CLR.CAL (R319). -/
def Fl.hubDdrCntClrCal : Fld := ⟨0x150, 1, 1⟩
/-- HUB_LLC_WAYMODE.MODE (R321). -/
def Fl.hubLlcWaymodeMode : Fld := ⟨0x100, 0, 32⟩
/-- HUB_LLC_WAYOWN.PART (R321). -/
def Fl.hubLlcWayownPart : Fld := ⟨0x104, 0, 32⟩
/-- HUB_LLC_WAYSTAT.BUSY (R321). -/
def Fl.hubLlcWaystatBusy : Fld := ⟨0x108, 0, 16⟩
/-- HUB_LLC_STAT_SEL.PART (R321). -/
def Fl.hubLlcStatSelPart : Fld := ⟨0x110, 0, 2⟩
/-- HUB_LLC_HITS.COUNT (R321). -/
def Fl.hubLlcHitsCount : Fld := ⟨0x114, 0, 32⟩
/-- HUB_LLC_MISSES.COUNT (R321). -/
def Fl.hubLlcMissesCount : Fld := ⟨0x118, 0, 32⟩
/-- HUB_LLC_ECC.CORRECTED (R321). -/
def Fl.hubLlcEccCorrected : Fld := ⟨0x120, 0, 16⟩
/-- HUB_LLC_ECC.REFETCH (R321). -/
def Fl.hubLlcEccRefetch : Fld := ⟨0x120, 16, 16⟩
/-- HUB_LLC_ECC2.UNCORR (R321). -/
def Fl.hubLlcEcc2Uncorr : Fld := ⟨0x124, 0, 16⟩
/-- HUB_LLC_ECC2.TAGPAR (R321). -/
def Fl.hubLlcEcc2Tagpar : Fld := ⟨0x124, 16, 16⟩
/-- HUB_LLC_FLUSH.WAYS (R321). -/
def Fl.hubLlcFlushWays : Fld := ⟨0x130, 0, 16⟩
/-- HUB_LLC_FLUSH.INVAL (R321). -/
def Fl.hubLlcFlushInval : Fld := ⟨0x130, 16, 1⟩
/-- HUB_LLC_CNT_CLR.STAT (R321). -/
def Fl.hubLlcCntClrStat : Fld := ⟨0x134, 0, 1⟩
/-- HUB_LLC_CNT_CLR.ECC (R321). -/
def Fl.hubLlcCntClrEcc : Fld := ⟨0x134, 1, 1⟩
/-- CAM_CFG.WIDTH (R358). -/
def Fl.camCfgWidth : Fld := ⟨0x100, 0, 5⟩
/-- CAM_CFG.HS_POL (R358). -/
def Fl.camCfgHsPol : Fld := ⟨0x100, 8, 1⟩
/-- CAM_CFG.VS_POL (R358). -/
def Fl.camCfgVsPol : Fld := ⟨0x100, 9, 1⟩
/-- CAM_CFG.PCLK_EDGE (R358). -/
def Fl.camCfgPclkEdge : Fld := ⟨0x100, 10, 1⟩
/-- CAM_SIZE.WIDTH_M1 (R358). -/
def Fl.camSizeWidthM1 : Fld := ⟨0x104, 0, 12⟩
/-- CAM_SIZE.HEIGHT_M1 (R358). -/
def Fl.camSizeHeightM1 : Fld := ⟨0x104, 16, 12⟩
/-- CAM_MAP.REV (R358). -/
def Fl.camMapRev : Fld := ⟨0x108, 0, 1⟩
/-- CAM_MAP.SWAP (R358). -/
def Fl.camMapSwap : Fld := ⟨0x108, 1, 1⟩
/-- CAM_MAP.INV_HS (R358). -/
def Fl.camMapInvHs : Fld := ⟨0x108, 2, 1⟩
/-- CAM_MAP.INV_VS (R358). -/
def Fl.camMapInvVs : Fld := ⟨0x108, 3, 1⟩
/-- CAM_TEST.PIN_EN (R358). -/
def Fl.camTestPinEn : Fld := ⟨0x10C, 0, 1⟩
/-- CAM_TEST.CHECK (R358). -/
def Fl.camTestCheck : Fld := ⟨0x10C, 1, 2⟩
/-- CAM_TEST.AUTO_FIX (R358). -/
def Fl.camTestAutoFix : Fld := ⟨0x10C, 3, 1⟩
/-- CAM_TEST.PWR_DELAY (R358). -/
def Fl.camTestPwrDelay : Fld := ⟨0x10C, 8, 8⟩
/-- CAM_TEST.RAMP (R358). -/
def Fl.camTestRamp : Fld := ⟨0x10C, 16, 16⟩
/-- CAM_PWR.MODE (R358). -/
def Fl.camPwrMode : Fld := ⟨0x110, 0, 2⟩
/-- CAM_PWR.PWREN (R358). -/
def Fl.camPwrPwren : Fld := ⟨0x110, 4, 1⟩
/-- CAM_PWR.FLT (R358). -/
def Fl.camPwrFlt : Fld := ⟨0x110, 5, 1⟩
/-- CAM_FRAME_TIMEOUT.US (R358). -/
def Fl.camFrameTimeoutUs : Fld := ⟨0x114, 0, 24⟩
/-- CAM_CHECK_STAT.FOUND (R358). -/
def Fl.camCheckStatFound : Fld := ⟨0x118, 0, 4⟩
/-- CAM_CHECK_STAT.APPLIED (R358). -/
def Fl.camCheckStatApplied : Fld := ⟨0x118, 4, 1⟩
/-- CAM_CHECK_STAT.UNDECIDED (R358). -/
def Fl.camCheckStatUndecided : Fld := ⟨0x118, 5, 1⟩
/-- CAM_CHECK_STAT.PIN_SKIPPED (R358). -/
def Fl.camCheckStatPinSkipped : Fld := ⟨0x118, 6, 1⟩
/-- CAM_CHECK_STAT.RESULT (R358). -/
def Fl.camCheckStatResult : Fld := ⟨0x118, 8, 2⟩
/-- CAM_PIN_SHORT_LO.PINS (R358). -/
def Fl.camPinShortLoPins : Fld := ⟨0x11C, 0, 19⟩
/-- CAM_PIN_SHORT_HI.PINS (R358). -/
def Fl.camPinShortHiPins : Fld := ⟨0x120, 0, 19⟩
/-- CAM_PIN_BRIDGE.PINS (R358). -/
def Fl.camPinBridgePins : Fld := ⟨0x124, 0, 19⟩
/-- CAM_PIN_OPEN.PINS (R358). -/
def Fl.camPinOpenPins : Fld := ⟨0x128, 16, 3⟩
/-- CAM_FRAME_CNT.FRAMES (R358). -/
def Fl.camFrameCntFrames : Fld := ⟨0x12C, 0, 32⟩
/-- CAM_ERR_CNT.CORRUPT (R358). -/
def Fl.camErrCntCorrupt : Fld := ⟨0x130, 0, 16⟩
/-- CAM_ERR_CNT.DROPPED (R358). -/
def Fl.camErrCntDropped : Fld := ⟨0x130, 16, 16⟩
/-- CAM_POISON_AVOID.LINES (R358). -/
def Fl.camPoisonAvoidLines : Fld := ⟨0x134, 0, 32⟩
/-- CAM_CNT_CLR.ERR (R358). -/
def Fl.camCntClrErr : Fld := ⟨0x138, 0, 1⟩
/-- CAM_CNT_CLR.AVOID (R358). -/
def Fl.camCntClrAvoid : Fld := ⟨0x138, 1, 1⟩
/-- ISP_EN.STAGES (R361). -/
def Fl.ispEnStages : Fld := ⟨0x100, 0, 7⟩
/-- ISP_CFA.PATTERN (R361). -/
def Fl.ispCfaPattern : Fld := ⟨0x104, 0, 2⟩
/-- ISP_CFA.MONO (R361). -/
def Fl.ispCfaMono : Fld := ⟨0x104, 2, 1⟩
/-- ISP_CFA.EDGE_THR (R361). -/
def Fl.ispCfaEdgeThr : Fld := ⟨0x104, 16, 16⟩
/-- ISP_BLCn.LOW (R361). -/
def Fl.ispBlcLow (i : Nat) : Fld := ⟨0x108 + 0x4 * i, 0, 16⟩
/-- ISP_BLCn.HIGH (R361). -/
def Fl.ispBlcHigh (i : Nat) : Fld := ⟨0x108 + 0x4 * i, 16, 16⟩
/-- ISP_DPC.THRESH (R361). -/
def Fl.ispDpcThresh : Fld := ⟨0x110, 0, 12⟩
/-- ISP_LSC_LO.ADDR (R361). -/
def Fl.ispLscLoAddr : Fld := ⟨0x114, 0, 32⟩
/-- ISP_LSC_HI.ADDR (R361). -/
def Fl.ispLscHiAddr : Fld := ⟨0x118, 0, 8⟩
/-- ISP_WBn.LOW (R361). -/
def Fl.ispWbLow (i : Nat) : Fld := ⟨0x11C + 0x4 * i, 0, 16⟩
/-- ISP_WBn.HIGH (R361). -/
def Fl.ispWbHigh (i : Nat) : Fld := ⟨0x11C + 0x4 * i, 16, 16⟩
/-- ISP_CCMn.LOW (R361). -/
def Fl.ispCcmLow (i : Nat) : Fld := ⟨0x124 + 0x4 * i, 0, 16⟩
/-- ISP_CCMn.HIGH (R361). -/
def Fl.ispCcmHigh (i : Nat) : Fld := ⟨0x124 + 0x4 * i, 16, 16⟩
/-- ISP_CCM_OFSn.LOW (R361). -/
def Fl.ispCcmOfsLow (i : Nat) : Fld := ⟨0x138 + 0x4 * i, 0, 16⟩
/-- ISP_CCM_OFSn.HIGH (R361). -/
def Fl.ispCcmOfsHigh (i : Nat) : Fld := ⟨0x138 + 0x4 * i, 16, 16⟩
/-- ISP_TONE_LO.ADDR (R361). -/
def Fl.ispToneLoAddr : Fld := ⟨0x140, 0, 32⟩
/-- ISP_TONE_HI.ADDR (R361). -/
def Fl.ispToneHiAddr : Fld := ⟨0x144, 0, 8⟩
/-- ISP_OUT.FMT (R361). -/
def Fl.ispOutFmt : Fld := ⟨0x148, 0, 3⟩
/-- ISP_OUT.BITS16 (R361). -/
def Fl.ispOutBits16 : Fld := ⟨0x148, 4, 1⟩
/-- ISP_OUT.SIGNED (R361). -/
def Fl.ispOutSigned : Fld := ⟨0x148, 5, 1⟩
/-- ISP_CROP0.X (R361). -/
def Fl.ispCrop0X : Fld := ⟨0x14C, 0, 12⟩
/-- ISP_CROP0.Y (R361). -/
def Fl.ispCrop0Y : Fld := ⟨0x14C, 16, 12⟩
/-- ISP_CROP1.W_M1 (R361). -/
def Fl.ispCrop1WM1 : Fld := ⟨0x150, 0, 12⟩
/-- ISP_CROP1.H_M1 (R361). -/
def Fl.ispCrop1HM1 : Fld := ⟨0x150, 16, 12⟩
/-- ISP_OUT_SIZE.W_M1 (R361). -/
def Fl.ispOutSizeWM1 : Fld := ⟨0x154, 0, 12⟩
/-- ISP_OUT_SIZE.H_M1 (R361). -/
def Fl.ispOutSizeHM1 : Fld := ⟨0x154, 16, 12⟩
/-- ISP_DPC_CNT.PIXELS (R361). -/
def Fl.ispDpcCntPixels : Fld := ⟨0x158, 0, 32⟩
/-- SDIO_STATUS.MODE (R372). -/
def Fl.sdioStatusMode : Fld := ⟨0x100, 0, 3⟩
/-- SDIO_STATUS.BUS4 (R372). -/
def Fl.sdioStatusBus4 : Fld := ⟨0x100, 3, 1⟩
/-- SDIO_STATUS.V18 (R372). -/
def Fl.sdioStatusV18 : Fld := ⟨0x100, 4, 1⟩
/-- SDIO_STATUS.READY (R372). -/
def Fl.sdioStatusReady : Fld := ⟨0x100, 5, 1⟩
/-- SDIO_WIN_BASE_LO.BASE (R372). -/
def Fl.sdioWinBaseLoBase : Fld := ⟨0x104, 17, 15⟩
/-- SDIO_WIN_BASE_HI.BASE (R372). -/
def Fl.sdioWinBaseHiBase : Fld := ⟨0x108, 0, 8⟩
/-- SDIO_MBOX_STAT.TO_FW (R372). -/
def Fl.sdioMboxStatToFw : Fld := ⟨0x110, 0, 4⟩
/-- SDIO_MBOX_STAT.TO_HOST (R372). -/
def Fl.sdioMboxStatToHost : Fld := ⟨0x110, 4, 4⟩
/-- SDIO_BULK_BASE_LO.BASE (R372). -/
def Fl.sdioBulkBaseLoBase : Fld := ⟨0x114, 6, 26⟩
/-- SDIO_BULK_BASE_HI.BASE (R372). -/
def Fl.sdioBulkBaseHiBase : Fld := ⟨0x118, 0, 8⟩
/-- SDIO_BULK_SIZE.SIZE (R372). -/
def Fl.sdioBulkSizeSize : Fld := ⟨0x11C, 6, 22⟩
/-- SDIO_BULK_WR.OFFSET (R372). -/
def Fl.sdioBulkWrOffset : Fld := ⟨0x120, 0, 28⟩
/-- SDIO_BULK_RD.OFFSET (R372). -/
def Fl.sdioBulkRdOffset : Fld := ⟨0x124, 0, 28⟩
/-- SDIO_ERR_CNT.CRC (R372). -/
def Fl.sdioErrCntCrc : Fld := ⟨0x130, 0, 8⟩
/-- SDIO_ERR_CNT.MBOX (R372). -/
def Fl.sdioErrCntMbox : Fld := ⟨0x130, 8, 8⟩
/-- SDIO_ERR_CNT.WINDOW (R372). -/
def Fl.sdioErrCntWindow : Fld := ⟨0x130, 16, 16⟩
/-- SDIO_CNT_CLR.ERR (R372). -/
def Fl.sdioCntClrErr : Fld := ⟨0x134, 0, 1⟩
/-- PART_CFG.VALID (R402). -/
def Fl.partCfgValid : Fld := ⟨0x100, 0, 1⟩
/-- PART_CFG.SAFETY (R402). -/
def Fl.partCfgSafety : Fld := ⟨0x100, 1, 1⟩
/-- PART_TILESn.MASK (R402). -/
def Fl.partTilesMask (i : Nat) : Fld := ⟨0x104 + 0x4 * i, 0, 32⟩
/-- PART_CAMS.MASK (R402). -/
def Fl.partCamsMask : Fld := ⟨0x110, 0, 12⟩
/-- PART_DDRk_BASE.BASE (R402). -/
def Fl.partDdrBaseBase (i : Nat) : Fld := ⟨0x120 + 0x8 * i, 0, 20⟩
/-- PART_DDRk_LIMIT.LIMIT (R402). -/
def Fl.partDdrLimitLimit (i : Nat) : Fld := ⟨0x124 + 0x8 * i, 0, 20⟩
/-- PART_DDRk_LIMIT.RO (R402). -/
def Fl.partDdrLimitRo (i : Nat) : Fld := ⟨0x124 + 0x8 * i, 30, 1⟩
/-- PART_DDRk_LIMIT.EN (R402). -/
def Fl.partDdrLimitEn (i : Nat) : Fld := ⟨0x124 + 0x8 * i, 31, 1⟩
/-- PART_DESC_BASE_LO.BASE (R402). -/
def Fl.partDescBaseLoBase : Fld := ⟨0x140, 6, 26⟩
/-- PART_DESC_BASE_HI.BASE (R402). -/
def Fl.partDescBaseHiBase : Fld := ⟨0x144, 0, 8⟩
/-- PART_DESC_CNT.COUNT (R402). -/
def Fl.partDescCntCount : Fld := ⟨0x148, 0, 13⟩
/-- PART_WIN_LEN.CYCLES (R402). -/
def Fl.partWinLenCycles : Fld := ⟨0x150, 0, 32⟩
/-- PART_WIN_RSV.CYCLES (R402). -/
def Fl.partWinRsvCycles : Fld := ⟨0x154, 0, 32⟩
/-- PART_CPL_BASE_LO.BASE (R402). -/
def Fl.partCplBaseLoBase : Fld := ⟨0x160, 5, 27⟩
/-- PART_CPL_BASE_HI.BASE (R402). -/
def Fl.partCplBaseHiBase : Fld := ⟨0x164, 0, 8⟩
/-- PART_CPL_CFG.NENT_M1 (R402). -/
def Fl.partCplCfgNentM1 : Fld := ⟨0x168, 0, 8⟩
/-- PART_CNT_LO.COUNT (R402). -/
def Fl.partCntLoCount : Fld := ⟨0x200, 0, 32⟩
/-- PART_CNT_HI.COUNT (R402). -/
def Fl.partCntHiCount : Fld := ⟨0x204, 0, 32⟩
/-- PART_SYNC.TOKEN (R402). -/
def Fl.partSyncToken : Fld := ⟨0x208, 0, 16⟩
/-- PART_JOB_SUB_LO.ADDR (R402). -/
def Fl.partJobSubLoAddr : Fld := ⟨0x210, 6, 26⟩
/-- PART_JOB_SUB_HI.ADDR (R402). -/
def Fl.partJobSubHiAddr : Fld := ⟨0x214, 0, 8⟩
/-- PART_JOB_SUB_HI.GO (R402). -/
def Fl.partJobSubHiGo : Fld := ⟨0x214, 31, 1⟩
/-- PART_JOB_STAT.QUEUED (R402). -/
def Fl.partJobStatQueued : Fld := ⟨0x218, 0, 5⟩
/-- PART_JOB_STAT.RUNNING (R402). -/
def Fl.partJobStatRunning : Fld := ⟨0x218, 5, 7⟩
/-- PART_JOB_STAT.REFUSED (R402). -/
def Fl.partJobStatRefused : Fld := ⟨0x218, 16, 16⟩
/-- PART_JOB_CANCEL.JOB_ID (R402). -/
def Fl.partJobCancelJobId : Fld := ⟨0x21C, 0, 16⟩
/-- PART_JOB_CANCEL.GO (R402). -/
def Fl.partJobCancelGo : Fld := ⟨0x21C, 31, 1⟩
/-- PART_CPL_REL.COUNT (R402). -/
def Fl.partCplRelCount : Fld := ⟨0x220, 0, 8⟩
/-- PART_CPL_STAT.FREE (R402). -/
def Fl.partCplStatFree : Fld := ⟨0x224, 0, 8⟩
/-- PART_CPL_STAT.NEXT (R402). -/
def Fl.partCplStatNext : Fld := ⟨0x224, 8, 8⟩
/-- PART_IRQ_TILEn.PEND (R402). -/
def Fl.partIrqTilePend (i : Nat) : Fld := ⟨0x230 + 0x4 * i, 0, 32⟩
/-- PART_IRQ_CAM.PEND (R402). -/
def Fl.partIrqCamPend : Fld := ⟨0x23C, 0, 12⟩
/-- PART_IRQ_SYS.PEND (R402). -/
def Fl.partIrqSysPend : Fld := ⟨0x240, 0, 31⟩
/-- PART_FW_CNT.COUNT (R402). -/
def Fl.partFwCntCount : Fld := ⟨0x244, 0, 32⟩
/-- PART_DL_LAST.JOB_ID (R402). -/
def Fl.partDlLastJobId : Fld := ⟨0x248, 0, 16⟩
/-- PART_DL_LAST.MARK (R402). -/
def Fl.partDlLastMark : Fld := ⟨0x248, 16, 8⟩
/-- TILE_CTX_ADDR_LO.ADDR (R404). -/
def Fl.tileCtxAddrLoAddr : Fld := ⟨0x500, 6, 26⟩
/-- TILE_CTX_ADDR_HI.ADDR (R404). -/
def Fl.tileCtxAddrHiAddr : Fld := ⟨0x504, 0, 8⟩
/-- TILE_CTX_CTL.BANKS (R404). -/
def Fl.tileCtxCtlBanks : Fld := ⟨0x508, 0, 16⟩
/-- TILE_CTX_CTL.FREEZE (R404). -/
def Fl.tileCtxCtlFreeze : Fld := ⟨0x508, 16, 1⟩
/-- TILE_CTX_CTL.SAVE (R404). -/
def Fl.tileCtxCtlSave : Fld := ⟨0x508, 17, 1⟩
/-- TILE_CTX_CTL.RESTORE (R404). -/
def Fl.tileCtxCtlRestore : Fld := ⟨0x508, 18, 1⟩
/-- TILE_CTX_STAT.BUSY (R404). -/
def Fl.tileCtxStatBusy : Fld := ⟨0x50C, 0, 1⟩
/-- TILE_CTX_STAT.LINES (R404). -/
def Fl.tileCtxStatLines : Fld := ⟨0x50C, 16, 16⟩
/-- TILE_WSET.WSET (R404). -/
def Fl.tileWsetWset : Fld := ⟨0x510, 0, 16⟩
/-- CAL_CTRL.REMAP_EN (R440). -/
def Fl.calCtrlRemapEn : Fld := ⟨0x100, 0, 1⟩
/-- CAL_CTRL.AUTO_ST (R440). -/
def Fl.calCtrlAutoSt : Fld := ⟨0x100, 1, 1⟩
/-- CAL_CTRL.RANGE_K (R440). -/
def Fl.calCtrlRangeK : Fld := ⟨0x100, 4, 3⟩
/-- CAL_CTRL.CLR_DEGRADED (R440). -/
def Fl.calCtrlClrDegraded : Fld := ⟨0x100, 8, 1⟩
/-- CAL_STATUS.MODE (R440). -/
def Fl.calStatusMode : Fld := ⟨0x104, 0, 2⟩
/-- CAL_STATUS.SAFE_FAULT (R440). -/
def Fl.calStatusSafeFault : Fld := ⟨0x104, 2, 1⟩
/-- CAL_STATUS.RESTART (R440). -/
def Fl.calStatusRestart : Fld := ⟨0x104, 3, 1⟩
/-- CAL_STATUS.GMISS (R440). -/
def Fl.calStatusGmiss : Fld := ⟨0x104, 4, 2⟩
/-- CAL_STATUS.NEXT_TG (R440). -/
def Fl.calStatusNextTg : Fld := ⟨0x104, 8, 4⟩
/-- CAL_STATUS.FW_HB_LOST (R440). -/
def Fl.calStatusFwHbLost : Fld := ⟨0x104, 12, 1⟩
/-- CAL_STATUS.RESTARTS (R440). -/
def Fl.calStatusRestarts : Fld := ⟨0x104, 16, 8⟩
/-- CAL_LOAD.LOAD (R440). -/
def Fl.calLoadLoad : Fld := ⟨0x108, 0, 11⟩
/-- CAL_EVID_LIMIT.US (R440). -/
def Fl.calEvidLimitUs : Fld := ⟨0x10C, 0, 16⟩
/-- CAL_HB_LIMIT.US (R440). -/
def Fl.calHbLimitUs : Fld := ⟨0x110, 0, 16⟩
/-- CAL_FW_HB.BEAT (R440). -/
def Fl.calFwHbBeat : Fld := ⟨0x114, 0, 1⟩
/-- CAL_FW_HB_LIMIT.US (R440). -/
def Fl.calFwHbLimitUs : Fld := ⟨0x118, 0, 16⟩
/-- CAL_VRING_BASE_LO.BASE (R440). -/
def Fl.calVringBaseLoBase : Fld := ⟨0x120, 5, 27⟩
/-- CAL_VRING_BASE_HI.BASE (R440). -/
def Fl.calVringBaseHiBase : Fld := ⟨0x124, 0, 8⟩
/-- CAL_VRING_CFG.NENT_M1 (R440). -/
def Fl.calVringCfgNentM1 : Fld := ⟨0x128, 0, 8⟩
/-- CAL_VRING_REL.COUNT (R440). -/
def Fl.calVringRelCount : Fld := ⟨0x12C, 0, 8⟩
/-- CAL_VRING_STAT.FREE (R440). -/
def Fl.calVringStatFree : Fld := ⟨0x130, 0, 8⟩
/-- CAL_VRING_STAT.NEXT (R440). -/
def Fl.calVringStatNext : Fld := ⟨0x130, 8, 8⟩
/-- CAL_VRING_STAT.HELD (R440). -/
def Fl.calVringStatHeld : Fld := ⟨0x130, 16, 9⟩
/-- CAL_GEY_LIST_LO.ADDR (R440). -/
def Fl.calGeyListLoAddr : Fld := ⟨0x140, 0, 32⟩
/-- CAL_GEY_LIST_HI.ADDR (R440). -/
def Fl.calGeyListHiAddr : Fld := ⟨0x144, 0, 8⟩
/-- CAL_GEY_PC.PC (R440). -/
def Fl.calGeyPcPc : Fld := ⟨0x148, 0, 12⟩
/-- CAL_GEY_BANKS.BANKS (R440). -/
def Fl.calGeyBanksBanks : Fld := ⟨0x14C, 0, 16⟩
/-- CAL_GEY_OUT_LO.ADDR (R440). -/
def Fl.calGeyOutLoAddr : Fld := ⟨0x150, 6, 26⟩
/-- CAL_GEY_OUT_HI.ADDR (R440). -/
def Fl.calGeyOutHiAddr : Fld := ⟨0x154, 0, 8⟩
/-- CAL_GEY_OUT_LEN.LINES (R440). -/
def Fl.calGeyOutLenLines : Fld := ⟨0x158, 0, 16⟩
/-- CAL_GEY_SIG_LO.SIG (R440). -/
def Fl.calGeySigLoSig : Fld := ⟨0x15C, 0, 32⟩
/-- CAL_GEY_SIG_HI.SIG (R440). -/
def Fl.calGeySigHiSig : Fld := ⟨0x160, 0, 32⟩
/-- CAL_GEY_STAT.LAST_TG (R440). -/
def Fl.calGeyStatLastTg : Fld := ⟨0x164, 0, 4⟩
/-- CAL_GEY_STAT.RESULT (R440). -/
def Fl.calGeyStatResult : Fld := ⟨0x164, 4, 2⟩
/-- CAL_GEY_STAT.FAIL_TILES (R440). -/
def Fl.calGeyStatFailTiles : Fld := ⟨0x164, 8, 8⟩
/-- CAL_GEY_STAT.PASSES (R440). -/
def Fl.calGeyStatPasses : Fld := ⟨0x164, 16, 16⟩
/-- CAL_REMAP_LO.ADDR (R440). -/
def Fl.calRemapLoAddr : Fld := ⟨0x170, 6, 26⟩
/-- CAL_REMAP_HI.ADDR (R440). -/
def Fl.calRemapHiAddr : Fld := ⟨0x174, 0, 8⟩
/-- CAL_REDIRk.FROM (R440). -/
def Fl.calRedirFrom (i : Nat) : Fld := ⟨0x180 + 0x4 * i, 0, 7⟩
/-- CAL_REDIRk.TO (R440). -/
def Fl.calRedirTo (i : Nat) : Fld := ⟨0x180 + 0x4 * i, 8, 7⟩
/-- CAL_REDIRk.EN (R440). -/
def Fl.calRedirEn (i : Nat) : Fld := ⟨0x180 + 0x4 * i, 31, 1⟩
/-- CAL_TILE_OOSn.OOS (R440). -/
def Fl.calTileOosOos (i : Nat) : Fld := ⟨0x190 + 0x4 * i, 0, 32⟩
/-- CAL_TILE_FORCE.TILE (R440). -/
def Fl.calTileForceTile : Fld := ⟨0x19C, 0, 7⟩
/-- CAL_TILE_FORCE.OUT (R440). -/
def Fl.calTileForceOut : Fld := ⟨0x19C, 8, 1⟩
/-- CAL_ST_STAT.LAST_TG (R440). -/
def Fl.calStStatLastTg : Fld := ⟨0x1A0, 0, 4⟩
/-- CAL_ST_STAT.TG_MISSED (R440). -/
def Fl.calStStatTgMissed : Fld := ⟨0x1A0, 8, 8⟩
/-- CAL_ST_STAT.CAL_MISSED (R440). -/
def Fl.calStStatCalMissed : Fld := ⟨0x1A0, 16, 8⟩
/-- CAL_ST_STAT.FAILED (R440). -/
def Fl.calStStatFailed : Fld := ⟨0x1A0, 24, 8⟩
/-- CAL_ST_DEFER.COUNT (R440). -/
def Fl.calStDeferCount : Fld := ⟨0x1A4, 0, 32⟩
/-- CAL_VCNTv.COUNT (R440). -/
def Fl.calVcntCount (i : Nat) : Fld := ⟨0x1B0 + 0x4 * i, 0, 32⟩
/-- CAL_CNT_CLR.VCNT (R440). -/
def Fl.calCntClrVcnt : Fld := ⟨0x1C4, 0, 1⟩
/-- CAL_CNT_CLR.ST (R440). -/
def Fl.calCntClrSt : Fld := ⟨0x1C4, 1, 1⟩
/-- CLK_ROOT.SRC (R468). -/
def Fl.clkRootSrc : Fld := ⟨0x100, 0, 2⟩
/-- CLK_SRC_RDY.RDY (R468). -/
def Fl.clkSrcRdyRdy : Fld := ⟨0x104, 0, 6⟩
/-- CLK_PLL_CTRL.ROOT_EN (R468). -/
def Fl.clkPllCtrlRootEn : Fld := ⟨0x108, 0, 1⟩
/-- CLK_PLL_CTRL.AUX_EN (R468). -/
def Fl.clkPllCtrlAuxEn : Fld := ⟨0x108, 1, 1⟩
/-- CLK_AON.SRC (R468). -/
def Fl.clkAonSrc : Fld := ⟨0x10C, 0, 1⟩
/-- CLK_ARITH.PSTATE (R468). -/
def Fl.clkArithPstate : Fld := ⟨0x110, 0, 3⟩
/-- CLK_ARITH.EFFECTIVE (R468). -/
def Fl.clkArithEffective : Fld := ⟨0x110, 8, 3⟩
/-- CLK_ARITH.FLOOR_SRC (R468). -/
def Fl.clkArithFloorSrc : Fld := ⟨0x110, 12, 3⟩
/-- CLK_ARITH.CHANGES (R468). -/
def Fl.clkArithChanges : Fld := ⟨0x110, 16, 16⟩
/-- CLK_STAT.REFUSED (R468). -/
def Fl.clkStatRefused : Fld := ⟨0x114, 0, 1⟩
/-- CLK_STAT.ROOT (R468). -/
def Fl.clkStatRoot : Fld := ⟨0x114, 4, 2⟩
/-- CLK_STAT.FALLBACK (R468). -/
def Fl.clkStatFallback : Fld := ⟨0x114, 8, 1⟩
/-- CLK_STAT.SWITCHING (R468). -/
def Fl.clkStatSwitching : Fld := ⟨0x114, 9, 1⟩
/-- CLK_MON.FAIL (R468). -/
def Fl.clkMonFail : Fld := ⟨0x118, 0, 6⟩
/-- PWR_DOM_STAT.ON (R469). -/
def Fl.pwrDomStatOn : Fld := ⟨0x100, 0, 26⟩
/-- PWR_DOM_BUSY.RAMP (R469). -/
def Fl.pwrDomBusyRamp : Fld := ⟨0x104, 0, 26⟩
/-- PWR_DOM_FORCE.FORCE (R469). -/
def Fl.pwrDomForceForce : Fld := ⟨0x108, 0, 26⟩
/-- PWR_OFF_DELAY.US (R469). -/
def Fl.pwrOffDelayUs : Fld := ⟨0x10C, 0, 16⟩
/-- PWR_WAKE_BUDGET.UNITS (R469). -/
def Fl.pwrWakeBudgetUnits : Fld := ⟨0x110, 0, 8⟩
/-- PWR_WAKE_Q.QUEUED (R469). -/
def Fl.pwrWakeQQueued : Fld := ⟨0x114, 0, 5⟩
/-- PWR_WAKE_Q.FROZEN (R469). -/
def Fl.pwrWakeQFrozen : Fld := ⟨0x114, 8, 1⟩
/-- PWR_WAKE_Q.WINDOWS (R469). -/
def Fl.pwrWakeQWindows : Fld := ⟨0x114, 16, 16⟩
/-- PWR_WAKE_WTi.WT (R469). -/
def Fl.pwrWakeWtWt (i : Nat) : Fld := ⟨0x120 + 0x4 * i, 0, 32⟩
/-- PWR_IDLE.ENTER (R469). -/
def Fl.pwrIdleEnter : Fld := ⟨0x130, 0, 1⟩
/-- PWR_IDLE.XTAL_KEEP (R469). -/
def Fl.pwrIdleXtalKeep : Fld := ⟨0x130, 1, 1⟩
/-- PWR_IDLE.VCD_OFF (R469). -/
def Fl.pwrIdleVcdOff : Fld := ⟨0x130, 2, 1⟩
/-- PWR_IDLE.REFUSED (R469). -/
def Fl.pwrIdleRefused : Fld := ⟨0x130, 4, 1⟩
/-- PWR_IDLE.STATE (R469). -/
def Fl.pwrIdleState : Fld := ⟨0x130, 8, 2⟩
/-- PWR_WAKE_SRC.SRC (R469). -/
def Fl.pwrWakeSrcSrc : Fld := ⟨0x134, 0, 4⟩
/-- PWR_WAKE_TIMER.TICKS (R469). -/
def Fl.pwrWakeTimerTicks : Fld := ⟨0x138, 0, 32⟩
/-- PWR_PKG_CAP.MW (R469). -/
def Fl.pwrPkgCapMw : Fld := ⟨0x140, 0, 17⟩
/-- PWR_PKG_PEAK.MW (R469). -/
def Fl.pwrPkgPeakMw : Fld := ⟨0x144, 0, 17⟩
/-- PWR_CAP_ORDER.FIRST (R469). -/
def Fl.pwrCapOrderFirst : Fld := ⟨0x148, 0, 2⟩
/-- PWR_CAP_ORDER.SECOND (R469). -/
def Fl.pwrCapOrderSecond : Fld := ⟨0x148, 4, 2⟩
/-- PWR_CAP_ORDER.THIRD (R469). -/
def Fl.pwrCapOrderThird : Fld := ⟨0x148, 8, 2⟩
/-- PWR_PKG_NOW.MW (R469). -/
def Fl.pwrPkgNowMw : Fld := ⟨0x14C, 0, 17⟩
/-- PWR_PKG_AVG.MW (R469). -/
def Fl.pwrPkgAvgMw : Fld := ⟨0x150, 0, 17⟩
/-- PWR_CAP_STAT.COMPUTE (R469). -/
def Fl.pwrCapStatCompute : Fld := ⟨0x154, 0, 3⟩
/-- PWR_CAP_STAT.MEM (R469). -/
def Fl.pwrCapStatMem : Fld := ⟨0x154, 4, 3⟩
/-- PWR_CAP_STAT.LINKS (R469). -/
def Fl.pwrCapStatLinks : Fld := ⟨0x154, 8, 1⟩
/-- PWR_VF_Pk.MV (R469). -/
def Fl.pwrVfPMv (i : Nat) : Fld := ⟨0x160 + 0x4 * i, 0, 10⟩
/-- PWR_PMB_ADDR.VCD (R469). -/
def Fl.pwrPmbAddrVcd : Fld := ⟨0x180, 0, 7⟩
/-- PWR_PMB_ADDR.HUB (R469). -/
def Fl.pwrPmbAddrHub : Fld := ⟨0x180, 8, 7⟩
/-- PWR_PMB_ADDR.XD (R469). -/
def Fl.pwrPmbAddrXd : Fld := ⟨0x180, 16, 7⟩
/-- PWR_PMB_ADDR.DDR (R469). -/
def Fl.pwrPmbAddrDdr : Fld := ⟨0x180, 24, 7⟩
/-- PWR_PMB_CFG.VEXP (R469). -/
def Fl.pwrPmbCfgVexp : Fld := ⟨0x184, 0, 5⟩
/-- PWR_VCD_MV.MV (R469). -/
def Fl.pwrVcdMvMv : Fld := ⟨0x188, 0, 10⟩
/-- PWR_ALERT.HOLD_US (R469). -/
def Fl.pwrAlertHoldUs : Fld := ⟨0x18C, 0, 16⟩
/-- PWR_ALERT.ASSERTED (R469). -/
def Fl.pwrAlertAsserted : Fld := ⟨0x18C, 16, 1⟩
/-- PWR_ALERT.COUNT (R469). -/
def Fl.pwrAlertCount : Fld := ⟨0x18C, 24, 8⟩
/-- THM_Tn.TEMP (R470). -/
def Fl.thmTTemp (i : Nat) : Fld := ⟨0x100 + 0x4 * i, 0, 12⟩
/-- THM_Tn.VALID (R470). -/
def Fl.thmTValid (i : Nat) : Fld := ⟨0x100 + 0x4 * i, 12, 1⟩
/-- THM_Tn.WARN (R470). -/
def Fl.thmTWarn (i : Nat) : Fld := ⟨0x100 + 0x4 * i, 13, 1⟩
/-- THM_Tn.LIMIT (R470). -/
def Fl.thmTLimit (i : Nat) : Fld := ⟨0x100 + 0x4 * i, 14, 1⟩
/-- THM_Tn.CRIT (R470). -/
def Fl.thmTCrit (i : Nat) : Fld := ⟨0x100 + 0x4 * i, 15, 1⟩
/-- THM_CTRL.STEP_US (R470). -/
def Fl.thmCtrlStepUs : Fld := ⟨0x180, 0, 16⟩
/-- THM_CTRL.HYST (R470). -/
def Fl.thmCtrlHyst : Fld := ⟨0x180, 16, 8⟩
/-- THM_RELAX.US (R470). -/
def Fl.thmRelaxUs : Fld := ⟨0x184, 0, 32⟩
/-- THM_MAX.TEMP (R470). -/
def Fl.thmMaxTemp : Fld := ⟨0x188, 0, 12⟩
/-- THM_MAX.SENSOR (R470). -/
def Fl.thmMaxSensor : Fld := ⟨0x188, 16, 5⟩
/-- THM_MAX.FLOOR (R470). -/
def Fl.thmMaxFloor : Fld := ⟨0x188, 24, 3⟩
/-- THM_TRIP.SENSOR (R470). -/
def Fl.thmTripSensor : Fld := ⟨0x18C, 0, 5⟩
/-- THM_TRIP.TRIPPED (R470). -/
def Fl.thmTripTripped : Fld := ⟨0x18C, 31, 1⟩
/-- THM_Tn_WARN.TEMP (R470). -/
def Fl.thmTWarnTemp (i : Nat) : Fld := ⟨0x200 + 0x10 * i, 0, 12⟩
/-- THM_Tn_LIMIT.TEMP (R470). -/
def Fl.thmTLimitTemp (i : Nat) : Fld := ⟨0x204 + 0x10 * i, 0, 12⟩
/-- THM_Tn_CRIT.TEMP (R470). -/
def Fl.thmTCritTemp (i : Nat) : Fld := ⟨0x208 + 0x10 * i, 0, 12⟩
/-- SEC_ID_NAME0.NAME (R497). -/
def Fl.secIdName0Name : Fld := ⟨0x100, 0, 32⟩
/-- SEC_ID_NAME1.NAME (R497). -/
def Fl.secIdName1Name : Fld := ⟨0x104, 0, 8⟩
/-- SEC_ID_PART.PART (R497). -/
def Fl.secIdPartPart : Fld := ⟨0x108, 0, 16⟩
/-- SEC_ID_PART.GRADE (R497). -/
def Fl.secIdPartGrade : Fld := ⟨0x108, 16, 4⟩
/-- SEC_ID_PART.REV (R497). -/
def Fl.secIdPartRev : Fld := ⟨0x108, 24, 8⟩
/-- SEC_UNIT_IDn.ID (R497). -/
def Fl.secUnitIdId (i : Nat) : Fld := ⟨0x10C + 0x4 * i, 0, 32⟩
/-- SEC_RST_CAUSE.CAUSE (R497). -/
def Fl.secRstCauseCause : Fld := ⟨0x120, 0, 4⟩
/-- SEC_RST_CTL.ARM (R497). -/
def Fl.secRstCtlArm : Fld := ⟨0x124, 0, 1⟩
/-- SEC_RST_CTL.GO (R497). -/
def Fl.secRstCtlGo : Fld := ⟨0x124, 1, 1⟩
/-- SEC_WDOG.LIMIT_MS (R497). -/
def Fl.secWdogLimitMs : Fld := ⟨0x128, 0, 16⟩
/-- SEC_WDOG.KICK (R497). -/
def Fl.secWdogKick : Fld := ⟨0x128, 31, 1⟩
/-- SEC_BOOT_STAT.PHASE (R497). -/
def Fl.secBootStatPhase : Fld := ⟨0x130, 0, 3⟩
/-- SEC_BOOT_STAT.SOURCE (R497). -/
def Fl.secBootStatSource : Fld := ⟨0x130, 3, 1⟩
/-- SEC_BOOT_STAT.KEY (R497). -/
def Fl.secBootStatKey : Fld := ⟨0x130, 4, 1⟩
/-- SEC_BOOT_STAT.FAILED (R497). -/
def Fl.secBootStatFailed : Fld := ⟨0x130, 5, 1⟩
/-- SEC_BOOT_STAT.DETAIL (R497). -/
def Fl.secBootStatDetail : Fld := ⟨0x130, 8, 8⟩
/-- SEC_BOOT_STAT.ATTEMPTS (R497). -/
def Fl.secBootStatAttempts : Fld := ⟨0x130, 16, 16⟩
/-- SEC_FW_VER.ROLLBACK (R497). -/
def Fl.secFwVerRollback : Fld := ⟨0x138, 0, 7⟩
/-- SEC_ARB_FUSE.COUNT (R497). -/
def Fl.secArbFuseCount : Fld := ⟨0x140, 0, 7⟩
/-- SEC_ARB_ADV.TARGET (R497). -/
def Fl.secArbAdvTarget : Fld := ⟨0x144, 0, 7⟩
/-- SEC_FUSE_FLAGS.CUST_VALID (R497). -/
def Fl.secFuseFlagsCustValid : Fld := ⟨0x150, 0, 1⟩
/-- SEC_FUSE_FLAGS.VENDOR_REVOKED (R497). -/
def Fl.secFuseFlagsVendorRevoked : Fld := ⟨0x150, 1, 1⟩
/-- SEC_FUSE_FLAGS.SPI_BOOT_DIS (R497). -/
def Fl.secFuseFlagsSpiBootDis : Fld := ⟨0x150, 2, 1⟩
/-- SEC_FUSE_FLAGS.SDIO_BOOT_DIS (R497). -/
def Fl.secFuseFlagsSdioBootDis : Fld := ⟨0x150, 3, 1⟩
/-- SEC_VKEY_Dw.DIGEST (R497). -/
def Fl.secVkeyDDigest (i : Nat) : Fld := ⟨0x180 + 0x4 * i, 0, 32⟩
/-- SEC_CKEY_Dw.DIGEST (R497). -/
def Fl.secCkeyDDigest (i : Nat) : Fld := ⟨0x1C0 + 0x4 * i, 0, 32⟩
/-- SEC_DEVKEY.KEY (R497). -/
def Fl.secDevkeyKey (i : Nat) : Fld := ⟨0x800 + 0x4 * i, 0, 32⟩
/-- SNT_CTRL.IGNORE (R498). -/
def Fl.sntCtrlIgnore : Fld := ⟨0x100, 0, 1⟩
/-- SNT_SNAP.GO (R498). -/
def Fl.sntSnapGo : Fld := ⟨0x104, 0, 1⟩
/-- SNT_STAT.SNAP (R498). -/
def Fl.sntStatSnap : Fld := ⟨0x108, 0, 2⟩
/-- SNT_STAT.PENDING (R498). -/
def Fl.sntStatPending : Fld := ⟨0x108, 2, 1⟩
/-- SNT_STAT.RESTORED (R498). -/
def Fl.sntStatRestored : Fld := ⟨0x108, 3, 1⟩
/-- SNT_STAT.IGNORED (R498). -/
def Fl.sntStatIgnored : Fld := ⟨0x108, 4, 1⟩
/-- SNT_STAT.DIGEST_FAIL (R498). -/
def Fl.sntStatDigestFail : Fld := ⟨0x108, 5, 1⟩
/-- SNT_STAT.NONE (R498). -/
def Fl.sntStatNone : Fld := ⟨0x108, 6, 1⟩
/-- SNT_SNAP_SEQ.SEQ (R498). -/
def Fl.sntSnapSeqSeq : Fld := ⟨0x10C, 0, 32⟩
/-- SNT_OPTIME.TIME (R498). -/
def Fl.sntOptimeTime : Fld := ⟨0x110, 0, 32⟩
/-- SNT_CYCLES.COUNT (R498). -/
def Fl.sntCyclesCount : Fld := ⟨0x114, 0, 32⟩
/-- SNT_TAG_LOCK.LOCK (R498). -/
def Fl.sntTagLockLock : Fld := ⟨0x120, 0, 16⟩
/-- SNT_TAG.DATA (R498). -/
def Fl.sntTagData (i : Nat) : Fld := ⟨0x800 + 0x4 * i, 0, 32⟩
/-- FUM_CTRL.FLUSH (R499). -/
def Fl.fumCtrlFlush : Fld := ⟨0x100, 0, 1⟩
/-- FUM_CTRL.CLR_RING (R499). -/
def Fl.fumCtrlClrRing : Fld := ⟨0x100, 1, 1⟩
/-- FUM_RATE.RATE (R499). -/
def Fl.fumRateRate : Fld := ⟨0x104, 0, 8⟩
/-- FUM_RATE.BURST (R499). -/
def Fl.fumRateBurst : Fld := ⟨0x104, 8, 8⟩
/-- FUM_STAT.BUFFERED (R499). -/
def Fl.fumStatBuffered : Fld := ⟨0x108, 0, 7⟩
/-- FUM_STAT.FLUSHING (R499). -/
def Fl.fumStatFlushing : Fld := ⟨0x108, 8, 1⟩
/-- FUM_STAT.FOUNDING (R499). -/
def Fl.fumStatFounding : Fld := ⟨0x108, 16, 9⟩
/-- FUM_RING.NEXT (R499). -/
def Fl.fumRingNext : Fld := ⟨0x10C, 0, 10⟩
/-- FUM_RING.WRAPPED (R499). -/
def Fl.fumRingWrapped : Fld := ⟨0x10C, 16, 1⟩
/-- FUM_LOST.COUNT (R499). -/
def Fl.fumLostCount : Fld := ⟨0x110, 0, 32⟩
/-- FUM_SUPPR.COUNT (R499). -/
def Fl.fumSupprCount : Fld := ⟨0x114, 0, 32⟩
/-- FUM_SEQ.SEQ (R499). -/
def Fl.fumSeqSeq : Fld := ⟨0x118, 0, 32⟩
/-- FUM_RD_SEL.INDEX (R499). -/
def Fl.fumRdSelIndex : Fld := ⟨0x120, 0, 10⟩
/-- FUM_RD_SEL.AREA (R499). -/
def Fl.fumRdSelArea : Fld := ⟨0x120, 12, 2⟩
/-- FUM_RD_Wi.WORD (R499). -/
def Fl.fumRdWWord (i : Nat) : Fld := ⟨0x140 + 0x4 * i, 0, 32⟩
/-- XCORE_CFG.CORES (R500). -/
def Fl.xcoreCfgCores : Fld := ⟨0x100, 0, 3⟩
/-- XCORE_CFG.SRAM_KIB (R500). -/
def Fl.xcoreCfgSramKib : Fld := ⟨0x100, 16, 16⟩
/-- XCORE_RUN.RUN (R500). -/
def Fl.xcoreRunRun : Fld := ⟨0x104, 0, 4⟩
/-- XCORE_RUN.WFI (R500). -/
def Fl.xcoreRunWfi : Fld := ⟨0x104, 8, 4⟩
/-- XCORE_FW_STAT.PHASE (R500). -/
def Fl.xcoreFwStatPhase : Fld := ⟨0x108, 0, 4⟩
/-- XCORE_FW_STAT.BEAT (R500). -/
def Fl.xcoreFwStatBeat : Fld := ⟨0x108, 16, 16⟩
/-- XCORE_ECC.CORRECTED (R500). -/
def Fl.xcoreEccCorrected : Fld := ⟨0x10C, 0, 16⟩
/-- XCORE_ECC.UNCORR (R500). -/
def Fl.xcoreEccUncorr : Fld := ⟨0x10C, 16, 16⟩
/-- XCORE_CNT_CLR.ECC (R500). -/
def Fl.xcoreCntClrEcc : Fld := ⟨0x110, 0, 1⟩
/-- TAP_SEL.EN (R362). -/
def Fl.tapSelEn : Fld := ⟨0x100, 0, 4⟩
/-- CAM_RING_BASE_LO.ADDR (R359). -/
def Fl.camRingBaseLoAddr : Fld := ⟨0x200, 0, 32⟩
/-- CAM_RING_BASE_HI.ADDR (R359). -/
def Fl.camRingBaseHiAddr : Fld := ⟨0x204, 0, 8⟩
/-- CAM_RING_STRIDE.BYTES (R359). -/
def Fl.camRingStrideBytes : Fld := ⟨0x208, 0, 28⟩
/-- CAM_RING_CFG.NBUF_M1 (R359). -/
def Fl.camRingCfgNbufM1 : Fld := ⟨0x20C, 0, 5⟩
/-- CAM_RING_CFG.BATCH_M1 (R359). -/
def Fl.camRingCfgBatchM1 : Fld := ⟨0x20C, 8, 5⟩
/-- CAM_RING_CFG.ON (R359). -/
def Fl.camRingCfgOn : Fld := ⟨0x20C, 16, 1⟩
/-- CAM_RING_STAT.FREE (R359). -/
def Fl.camRingStatFree : Fld := ⟨0x210, 0, 6⟩
/-- CAM_RING_STAT.NEXT (R359). -/
def Fl.camRingStatNext : Fld := ⟨0x210, 8, 5⟩
/-- CAM_RING_STAT.GEOM_PEND (R359). -/
def Fl.camRingStatGeomPend : Fld := ⟨0x210, 15, 1⟩
/-- CAM_RING_STAT.SEQ (R359). -/
def Fl.camRingStatSeq : Fld := ⟨0x210, 16, 16⟩
/-- CAM_RING_REL.COUNT (R359). -/
def Fl.camRingRelCount : Fld := ⟨0x214, 0, 6⟩
/-- CAM_RING_DROP.COUNT (R359). -/
def Fl.camRingDropCount : Fld := ⟨0x218, 0, 32⟩
/-- TAPk_RING_BASE_LO.ADDR (R359). -/
def Fl.tapRingBaseLoAddr (i : Nat) : Fld := ⟨0x200 + 0x20 * i, 0, 32⟩
/-- TAPk_RING_BASE_HI.ADDR (R359). -/
def Fl.tapRingBaseHiAddr (i : Nat) : Fld := ⟨0x204 + 0x20 * i, 0, 8⟩
/-- TAPk_RING_STRIDE.BYTES (R359). -/
def Fl.tapRingStrideBytes (i : Nat) : Fld := ⟨0x208 + 0x20 * i, 0, 28⟩
/-- TAPk_RING_CFG.NBUF_M1 (R359). -/
def Fl.tapRingCfgNbufM1 (i : Nat) : Fld := ⟨0x20C + 0x20 * i, 0, 5⟩
/-- TAPk_RING_CFG.BATCH_M1 (R359). -/
def Fl.tapRingCfgBatchM1 (i : Nat) : Fld := ⟨0x20C + 0x20 * i, 8, 5⟩
/-- TAPk_RING_CFG.ON (R359). -/
def Fl.tapRingCfgOn (i : Nat) : Fld := ⟨0x20C + 0x20 * i, 16, 1⟩
/-- TAPk_RING_STAT.FREE (R359). -/
def Fl.tapRingStatFree (i : Nat) : Fld := ⟨0x210 + 0x20 * i, 0, 6⟩
/-- TAPk_RING_STAT.NEXT (R359). -/
def Fl.tapRingStatNext (i : Nat) : Fld := ⟨0x210 + 0x20 * i, 8, 5⟩
/-- TAPk_RING_STAT.GEOM_PEND (R359). -/
def Fl.tapRingStatGeomPend (i : Nat) : Fld := ⟨0x210 + 0x20 * i, 15, 1⟩
/-- TAPk_RING_STAT.SEQ (R359). -/
def Fl.tapRingStatSeq (i : Nat) : Fld := ⟨0x210 + 0x20 * i, 16, 16⟩
/-- TAPk_RING_REL.COUNT (R359). -/
def Fl.tapRingRelCount (i : Nat) : Fld := ⟨0x214 + 0x20 * i, 0, 6⟩
/-- TAPk_RING_DROP.COUNT (R359). -/
def Fl.tapRingDropCount (i : Nat) : Fld := ⟨0x218 + 0x20 * i, 0, 32⟩
/-- WARP_SLICE_LEN.CYCLES (R363). -/
def Fl.engSliceLenCycles : Fld := ⟨0x100, 0, 16⟩
/-- WARP_SLICE_EN.EN (R363). -/
def Fl.engSliceEnEn : Fld := ⟨0x104, 0, 32⟩
/-- WARP_SLICE_OWNn.PART (R363). -/
def Fl.engSliceOwnPart (i : Nat) : Fld := ⟨0x108 + 0x4 * i, 0, 32⟩
/-- WARP_POISON_AVOID.LINES (R363). -/
def Fl.engPoisonAvoidLines : Fld := ⟨0x110, 0, 32⟩
/-- WARP_CHc_OWN.PART (R363). -/
def Fl.chOwnPart (i : Nat) : Fld := ⟨0x400 + 0x80 * i, 0, 2⟩
/-- WARP_CHc_OWN.EN (R363). -/
def Fl.chOwnEn (i : Nat) : Fld := ⟨0x400 + 0x80 * i, 4, 1⟩
/-- WARP_CHc_SUB_LO.ADDR (R363). -/
def Fl.chSubLoAddr (i : Nat) : Fld := ⟨0x404 + 0x80 * i, 0, 32⟩
/-- WARP_CHc_SUB_HI.ADDR (R363). -/
def Fl.chSubHiAddr (i : Nat) : Fld := ⟨0x408 + 0x80 * i, 0, 8⟩
/-- WARP_CHc_SUB_HI.BYTES (R363). -/
def Fl.chSubHiBytes (i : Nat) : Fld := ⟨0x408 + 0x80 * i, 8, 24⟩
/-- WARP_CHc_SUB_CTL.GO (R363). -/
def Fl.chSubCtlGo (i : Nat) : Fld := ⟨0x40C + 0x80 * i, 0, 1⟩
/-- WARP_CHc_SUB_CTL.SRC_INVALID (R363). -/
def Fl.chSubCtlSrcInvalid (i : Nat) : Fld := ⟨0x40C + 0x80 * i, 1, 1⟩
/-- WARP_CHc_STAT.QUEUED (R363). -/
def Fl.chStatQueued (i : Nat) : Fld := ⟨0x410 + 0x80 * i, 0, 4⟩
/-- WARP_CHc_STAT.LAST_CAUSE (R363). -/
def Fl.chStatLastCause (i : Nat) : Fld := ⟨0x410 + 0x80 * i, 8, 8⟩
/-- WARP_CHc_STAT.REFUSED (R363). -/
def Fl.chStatRefused (i : Nat) : Fld := ⟨0x410 + 0x80 * i, 16, 16⟩
/-- WARP_CHc_AUTO.EN (R363). -/
def Fl.chAutoEn (i : Nat) : Fld := ⟨0x414 + 0x80 * i, 0, 1⟩
/-- WARP_CHc_AUTO.PORT (R363). -/
def Fl.chAutoPort (i : Nat) : Fld := ⟨0x414 + 0x80 * i, 1, 4⟩
/-- WARP_CHc_AUTO.OUT (R363). -/
def Fl.chAutoOut (i : Nat) : Fld := ⟨0x414 + 0x80 * i, 5, 3⟩
/-- WARP_CHc_CORRUPT.COUNT (R363). -/
def Fl.chCorruptCount (i : Nat) : Fld := ⟨0x418 + 0x80 * i, 0, 32⟩
/-- WARP_CHc_RING_BASE_LO.ADDR (R359). -/
def Fl.chRingBaseLoAddr (i : Nat) : Fld := ⟨0x420 + 0x80 * i, 0, 32⟩
/-- WARP_CHc_RING_BASE_HI.ADDR (R359). -/
def Fl.chRingBaseHiAddr (i : Nat) : Fld := ⟨0x424 + 0x80 * i, 0, 8⟩
/-- WARP_CHc_RING_STRIDE.BYTES (R359). -/
def Fl.chRingStrideBytes (i : Nat) : Fld := ⟨0x428 + 0x80 * i, 0, 28⟩
/-- WARP_CHc_RING_CFG.NBUF_M1 (R359). -/
def Fl.chRingCfgNbufM1 (i : Nat) : Fld := ⟨0x42C + 0x80 * i, 0, 5⟩
/-- WARP_CHc_RING_CFG.BATCH_M1 (R359). -/
def Fl.chRingCfgBatchM1 (i : Nat) : Fld := ⟨0x42C + 0x80 * i, 8, 5⟩
/-- WARP_CHc_RING_CFG.ON (R359). -/
def Fl.chRingCfgOn (i : Nat) : Fld := ⟨0x42C + 0x80 * i, 16, 1⟩
/-- WARP_CHc_RING_STAT.FREE (R359). -/
def Fl.chRingStatFree (i : Nat) : Fld := ⟨0x430 + 0x80 * i, 0, 6⟩
/-- WARP_CHc_RING_STAT.NEXT (R359). -/
def Fl.chRingStatNext (i : Nat) : Fld := ⟨0x430 + 0x80 * i, 8, 5⟩
/-- WARP_CHc_RING_STAT.GEOM_PEND (R359). -/
def Fl.chRingStatGeomPend (i : Nat) : Fld := ⟨0x430 + 0x80 * i, 15, 1⟩
/-- WARP_CHc_RING_STAT.SEQ (R359). -/
def Fl.chRingStatSeq (i : Nat) : Fld := ⟨0x430 + 0x80 * i, 16, 16⟩
/-- WARP_CHc_RING_REL.COUNT (R359). -/
def Fl.chRingRelCount (i : Nat) : Fld := ⟨0x434 + 0x80 * i, 0, 6⟩
/-- WARP_CHc_RING_DROP.COUNT (R359). -/
def Fl.chRingDropCount (i : Nat) : Fld := ⟨0x438 + 0x80 * i, 0, 32⟩
/-- WARP_CHc_MESH_LO.ADDR (R364). -/
def Fl.warpChMeshLoAddr (i : Nat) : Fld := ⟨0x440 + 0x80 * i, 0, 32⟩
/-- WARP_CHc_MESH_HI.ADDR (R364). -/
def Fl.warpChMeshHiAddr (i : Nat) : Fld := ⟨0x444 + 0x80 * i, 0, 8⟩
/-- WARP_CHc_MESH_HI.PITCH (R364). -/
def Fl.warpChMeshHiPitch (i : Nat) : Fld := ⟨0x444 + 0x80 * i, 8, 2⟩
/-- WARP_CHc_MESH_N.NX (R364). -/
def Fl.warpChMeshNNx (i : Nat) : Fld := ⟨0x448 + 0x80 * i, 0, 8⟩
/-- WARP_CHc_MESH_N.NY (R364). -/
def Fl.warpChMeshNNy (i : Nat) : Fld := ⟨0x448 + 0x80 * i, 16, 7⟩
/-- WARP_CHc_SRC_DIM.W_M1 (R364). -/
def Fl.warpChSrcDimWM1 (i : Nat) : Fld := ⟨0x44C + 0x80 * i, 0, 12⟩
/-- WARP_CHc_SRC_DIM.H_M1 (R364). -/
def Fl.warpChSrcDimHM1 (i : Nat) : Fld := ⟨0x44C + 0x80 * i, 16, 12⟩
/-- WARP_CHc_DST_DIM.W_M1 (R364). -/
def Fl.warpChDstDimWM1 (i : Nat) : Fld := ⟨0x450 + 0x80 * i, 0, 12⟩
/-- WARP_CHc_DST_DIM.H_M1 (R364). -/
def Fl.warpChDstDimHM1 (i : Nat) : Fld := ⟨0x450 + 0x80 * i, 16, 12⟩
/-- WARP_CHc_FMT.FMT (R364). -/
def Fl.warpChFmtFmt (i : Nat) : Fld := ⟨0x454 + 0x80 * i, 0, 3⟩
/-- WARP_CHc_FMT.BITS16 (R364). -/
def Fl.warpChFmtBits16 (i : Nat) : Fld := ⟨0x454 + 0x80 * i, 4, 1⟩
/-- WARP_CHc_FMT.NEAREST (R364). -/
def Fl.warpChFmtNearest (i : Nat) : Fld := ⟨0x454 + 0x80 * i, 5, 1⟩
/-- WARP_CHc_FMT.FILL (R364). -/
def Fl.warpChFmtFill (i : Nat) : Fld := ⟨0x454 + 0x80 * i, 16, 16⟩
/-- WARP_CHc_CLIP.COUNT (R364). -/
def Fl.warpChClipCount (i : Nat) : Fld := ⟨0x458 + 0x80 * i, 0, 32⟩
/-- CODEC_CODEC_MAXDIMp.W_M1 (R364). -/
def Fl.codecCodecMaxdimWM1 (i : Nat) : Fld := ⟨0x120 + 0x4 * i, 0, 12⟩
/-- CODEC_CODEC_MAXDIMp.H_M1 (R364). -/
def Fl.codecCodecMaxdimHM1 (i : Nat) : Fld := ⟨0x120 + 0x4 * i, 16, 12⟩
/-- CODEC_CODEC_MINBITS.INTRA (R364). -/
def Fl.codecCodecMinbitsIntra : Fld := ⟨0x130, 0, 8⟩
/-- CODEC_CODEC_MINBITS.INTER (R364). -/
def Fl.codecCodecMinbitsInter : Fld := ⟨0x130, 8, 8⟩
/-- CODEC_CHc_MODE.MODE (R364). -/
def Fl.codecChModeMode (i : Nat) : Fld := ⟨0x440 + 0x80 * i, 0, 3⟩
/-- CODEC_CHc_MODE.QP (R364). -/
def Fl.codecChModeQp (i : Nat) : Fld := ⟨0x440 + 0x80 * i, 8, 6⟩
/-- CODEC_CHc_MODE.GOP (R364). -/
def Fl.codecChModeGop (i : Nat) : Fld := ⟨0x440 + 0x80 * i, 16, 16⟩
/-- CODEC_CHc_DIM.W_M1 (R364). -/
def Fl.codecChDimWM1 (i : Nat) : Fld := ⟨0x444 + 0x80 * i, 0, 12⟩
/-- CODEC_CHc_DIM.H_M1 (R364). -/
def Fl.codecChDimHM1 (i : Nat) : Fld := ⟨0x444 + 0x80 * i, 16, 12⟩
/-- TOKEN_CHc_NODE_LO.ADDR (R364). -/
def Fl.tokenChNodeLoAddr (i : Nat) : Fld := ⟨0x440 + 0x80 * i, 0, 32⟩
/-- TOKEN_CHc_NODE_HI.ADDR (R364). -/
def Fl.tokenChNodeHiAddr (i : Nat) : Fld := ⟨0x444 + 0x80 * i, 0, 8⟩
/-- TOKEN_CHc_EDGE_LO.ADDR (R364). -/
def Fl.tokenChEdgeLoAddr (i : Nat) : Fld := ⟨0x448 + 0x80 * i, 0, 32⟩
/-- TOKEN_CHc_EDGE_HI.ADDR (R364). -/
def Fl.tokenChEdgeHiAddr (i : Nat) : Fld := ⟨0x44C + 0x80 * i, 0, 8⟩
/-- TOKEN_CHc_DICT_N.NODES (R364). -/
def Fl.tokenChDictNNodes (i : Nat) : Fld := ⟨0x450 + 0x80 * i, 0, 24⟩
/-- TOKEN_CHc_DICT_E.EDGES (R364). -/
def Fl.tokenChDictEEdges (i : Nat) : Fld := ⟨0x454 + 0x80 * i, 0, 24⟩
/-- TOKEN_CHc_UNK.TOKEN (R364). -/
def Fl.tokenChUnkToken (i : Nat) : Fld := ⟨0x458 + 0x80 * i, 0, 18⟩
/-- TOKEN_CHc_PAD.TOKEN (R364). -/
def Fl.tokenChPadToken (i : Nat) : Fld := ⟨0x45C + 0x80 * i, 0, 18⟩
/-- TOKEN_CHc_MAXTOK.MAXTOK_M1 (R364). -/
def Fl.tokenChMaxtokMaxtokM1 (i : Nat) : Fld := ⟨0x460 + 0x80 * i, 0, 16⟩

end Sys2Proof.Machine
end

