-- ==== Sys2Proof/Machine/RegTable.lean ====
section
/-! DEFINITION. The register table: for each page type the registers at 0x100 and above with the bits of each access
type (R9), the bits Sinter restores (the entries 'S' of R11) and the reset values, as the chapters' field tables give
them. Factory values 'F' stand as 0 here and are read from the state's factory fields (log 5); PWR_VF's factory value
stands as 750 (log 5). -/

namespace Sys2Proof.Machine

/-- One row of a field table: the first offset, two dimensions (count and stride), the bits of each access type, the
bits restored from Sinter, the reset value by index (the last one holds for the rest), and the reset values of
instance 0 where the table gives it others. -/
structure RegSpec where
  off : Nat
  n1 : Nat
  st1 : Nat
  n2 : Nat
  st2 : Nat
  rw : Nat
  tx : Nat
  sh : Nat
  w1c : Nat
  wo : Nat
  ro : Nat
  snt : Nat
  resets : List Nat
  resets0 : List Nat
  deriving DecidableEq, Repr


/-- The registers of the TILE page, part 0 (R106, R189, R404). -/
def specs_tile_0 : List RegSpec := [
  ⟨0x100, 1, 0, 1, 0, 0, 0, 0, 0, 0, 0xF77F, 0, [0], []⟩ /- TILE_ID -/,
  ⟨0x104, 1, 0, 1, 0, 0, 0xFFFFFFFF, 0, 0, 0, 0, 0, [0x55555555], []⟩ /- TILE_BANK_OWN0 -/,
  ⟨0x108, 1, 0, 1, 0, 0, 0xFFFFFFFF, 0, 0, 0, 0, 0, [0x55555555], []⟩ /- TILE_BANK_OWN1 -/,
  ⟨0x110, 1, 0, 1, 0, 0, 0, 0, 0, 0, 0x3F3F1F1F, 0, [0], []⟩ /- TILE_QSTAT -/,
  ⟨0x200, 32, 0x10, 1, 0, 0, 0x8F0FFFFF, 0, 0, 0, 0, 0, [0x1000000], []⟩ /- TILE_SLOTr_CFG -/,
  ⟨0x204, 32, 0x10, 1, 0, 0, 0x7FFF, 0, 0, 0, 0xFF0000, 0, [0], []⟩ /- TILE_SLOTr_SIZE -/,
  ⟨0x208, 32, 0x10, 1, 0, 0, 0, 0, 0, 0, 0xFFFFFFFF, 0, [0], []⟩ /- TILE_SLOTr_STATE -/,
  ⟨0x20C, 32, 0x10, 1, 0, 0, 0, 0, 0, 0, 0xFFFFFFFF, 0, [0], []⟩ /- TILE_SLOTr_TAG -/,
  ⟨0x400, 1, 0, 1, 0, 0, 0, 0, 0, 0xFFFF, 0, 0, [0], []⟩ /- TILE_DESC_LOAD -/,
  ⟨0x404, 1, 0, 1, 0, 0, 0, 0, 0, 0, 0xFFFF007F, 0, [0], []⟩ /- TILE_DESC_STAT -/,
  ⟨0x410, 1, 0, 1, 0, 0, 0, 0, 0, 0xF, 0, 0, [0], []⟩ /- TILE_KILL -/,
  ⟨0x414, 1, 0, 1, 0, 0, 0, 0, 0, 0, 0xFFFFFF01, 0, [0], []⟩ /- TILE_KILL_STAT -/,
  ⟨0x418, 1, 0, 1, 0, 0, 0, 0, 0, 0x100, 1, 0, [0], []⟩ /- TILE_RUN -/,
  ⟨0x420, 4, 4, 1, 0, 0, 0, 0, 0, 0, 0xFFFF003F, 0, [0], []⟩ /- TILE_SPANq -/,
  ⟨0x440, 4, 4, 1, 0, 0, 0, 0, 0, 0, 0xFFFFFFFF, 0, [0], []⟩ /- TILE_FCMDi -/,
  ⟨0x450, 1, 0, 1, 0, 0, 0, 0, 0, 0x80000000, 0x40FFFF03, 0, [0], []⟩ /- TILE_FINFO -/,
  ⟨0x454, 1, 0, 1, 0, 0, 0, 0, 0, 0, 0xFFFFFFFF, 0, [0], []⟩ /- TILE_GATHER_OOR -/,
  ⟨0x458, 1, 0, 1, 0, 0, 0, 0, 0, 0x80000F1F, 0, 0, [0], []⟩ /- TILE_SLOT_FILL -/,
  ⟨0x500, 1, 0, 1, 0, 0xFFFFFFC0, 0, 0, 0, 0, 0, 0, [0], []⟩ /- TILE_CTX_ADDR_LO -/,
  ⟨0x504, 1, 0, 1, 0, 0xFF, 0, 0, 0, 0, 0, 0, [0], []⟩ /- TILE_CTX_ADDR_HI -/]

/-- The registers of the TILE page, part 1 (R106, R189, R404). -/
def specs_tile_1 : List RegSpec := [
  ⟨0x508, 1, 0, 1, 0, 0x1FFFF, 0, 0, 0, 0x60000, 0, 0, [0], []⟩ /- TILE_CTX_CTL -/,
  ⟨0x50C, 1, 0, 1, 0, 0, 0, 0, 0, 0, 0xFFFF0001, 0, [0], []⟩ /- TILE_CTX_STAT -/,
  ⟨0x510, 1, 0, 1, 0, 0xFFFF, 0, 0, 0, 0, 0, 0, [0], []⟩ /- TILE_WSET -/]

/-- The registers of the TILE page (R106, R189, R404). -/
def specs_tile : List RegSpec := specs_tile_0 ++ specs_tile_1

/-- The registers of the SEQ page (R217). -/
def specs_seq : List RegSpec := [
  ⟨0x100, 1, 0, 1, 0, 3, 0, 0, 0, 0, 0, 3, [2], []⟩ /- SEQ_CTRL -/,
  ⟨0x104, 1, 0, 1, 0, 0, 0, 0, 0, 0, 0x773F, 0, [0], []⟩ /- SEQ_STATUS -/,
  ⟨0x108, 1, 0, 1, 0, 0, 0, 0, 0, 0, 0xFFF, 0, [0], []⟩ /- SEQ_PC -/,
  ⟨0x10C, 1, 0, 1, 0, 0, 0, 0, 0, 0x80000FFF, 0, 0, [0], []⟩ /- SEQ_START -/,
  ⟨0x110, 1, 0, 1, 0, 0, 0, 0, 0, 0x80000000, 0xFFF000F, 0, [0], []⟩ /- SEQ_FAULT -/,
  ⟨0x120, 8, 4, 1, 0, 0xFFFFFF, 0, 0, 0, 0, 0, 0, [0], []⟩ /- SEQ_CNTi -/,
  ⟨0x140, 4, 4, 1, 0, 0xFFFFFF, 0, 0, 0, 0, 0, 0, [0], []⟩ /- SEQ_CMPk -/,
  ⟨0x150, 1, 0, 1, 0, 0xFFFFFFFF, 0, 0, 0, 0, 0, 0xFFFFFFFF, [0x124F80], []⟩ /- SEQ_TXN_TIMEOUT -/,
  ⟨0x154, 1, 0, 1, 0, 0, 0, 0, 0, 0, 0xFF01FFF7, 0, [0], []⟩ /- SEQ_IMEM_STAT -/,
  ⟨0x158, 1, 0, 1, 0, 0xFFFFFF, 0, 0, 0, 0, 0, 0xFFFFFF, [0x10000], []⟩ /- SEQ_ILOCK_LIMIT -/,
  ⟨0x15C, 1, 0, 1, 0, 0x7F, 0, 0, 0, 0, 0, 0, [0], []⟩ /- SEQ_TPL_CNT -/,
  ⟨0x160, 1, 0, 1, 0, 0, 0, 0, 0, 0, 0xFFFFFFFF, 0, [0], []⟩ /- SEQ_ISSUED -/,
  ⟨0x164, 1, 0, 1, 0, 0, 0, 0, 0, 0, 0xFFFFFFFF, 0, [0], []⟩ /- SEQ_EMITTED -/,
  ⟨0x168, 1, 0, 1, 0, 0, 0, 0, 0, 0, 0xFFFF, 0, [0], []⟩ /- SEQ_VIOL_CNT -/,
  ⟨0x16C, 1, 0, 1, 0, 0, 0, 0, 0, 0, 0xFFFFFFFF, 0, [0], []⟩ /- SEQ_STALL_CYC -/,
  ⟨0x170, 1, 0, 1, 0, 0, 0, 0, 0, 3, 0, 0, [0], []⟩ /- SEQ_CNT_CLR -/,
  ⟨0x400, 32, 0x10, 4, 4, 0xFFFF0087, 0, 0, 0, 0, 0, 0, [0], []⟩ /- SEQ_AGg_Tj -/,
  ⟨0x600, 64, 4, 1, 0, 0x9F9F9F, 0, 0, 0, 0, 0, 0, [0], []⟩ /- SEQ_TBINDt -/]

/-- The registers of the LANE page (R107). -/
def specs_lane : List RegSpec := [
  ⟨0x100, 1, 0, 1, 0, 0, 0, 0, 0, 0, 0xFF, 0, [0x20], []⟩ /- LANE_STATUS -/,
  ⟨0x110, 1, 0, 1, 0, 0, 0, 0, 0, 0, 0xFFFFFFFF, 0, [0xFFFFFFFF], []⟩ /- LANE_ACC_V0L -/,
  ⟨0x114, 1, 0, 1, 0, 0, 0, 0, 0, 0, 0xFFFFFFFF, 0, [0xFFFFFFFF], []⟩ /- LANE_ACC_V0H -/,
  ⟨0x118, 1, 0, 1, 0, 0, 0, 0, 0, 0, 0xFFFFFFFF, 0, [0xFFFFFFFF], []⟩ /- LANE_ACC_V1L -/,
  ⟨0x11C, 1, 0, 1, 0, 0, 0, 0, 0, 0, 0xFFFFFFFF, 0, [0xFFFFFFFF], []⟩ /- LANE_ACC_V1H -/,
  ⟨0x120, 4, 4, 1, 0, 0, 0, 0, 0, 0, 0xFFFFFFFF, 0, [0], []⟩ /- LANE_ACC_OVFx -/,
  ⟨0x130, 1, 0, 1, 0, 0, 0, 0, 0, 0, 0xFFFFFFFF, 0, [0], []⟩ /- LANE_ROWS_LO -/,
  ⟨0x134, 1, 0, 1, 0, 0, 0, 0, 0, 0, 0xFFFF, 0, [0], []⟩ /- LANE_ROWS_HI -/,
  ⟨0x138, 1, 0, 1, 0, 0, 0, 0, 0, 0, 0xFFFFFFFF, 0, [0], []⟩ /- LANE_CONFLICT -/,
  ⟨0x13C, 1, 0, 1, 0, 0, 0, 0, 0, 0, 0xFFFFFFFF, 0, [0], []⟩ /- LANE_RES_CNT -/,
  ⟨0x140, 1, 0, 1, 0, 0, 0, 0, 0, 0, 0x1F01037F, 0, [0], []⟩ /- LANE_RES_LAST -/,
  ⟨0x14C, 1, 0, 1, 0, 0, 0, 0, 0, 7, 0, 0, [0], []⟩ /- LANE_CNT_CLR -/]

/-- The registers of the VEC page (R109). -/
def specs_vec : List RegSpec := [
  ⟨0x100, 1, 0, 1, 0, 0, 0, 0, 0, 0, 0xF1, 0, [0], []⟩ /- VEC_STATUS -/,
  ⟨0x110, 1, 0, 1, 0, 0xFFFFFFFF, 0, 0, 0, 0, 0, 0, [0], []⟩ /- VEC_LUTA_XMIN -/,
  ⟨0x114, 1, 0, 1, 0, 0xFFFFFFFF, 0, 0, 0, 0, 0, 0, [0], []⟩ /- VEC_LUTA_SCALE -/,
  ⟨0x118, 1, 0, 1, 0, 1, 0, 0, 0, 0, 0, 0, [0], []⟩ /- VEC_LUTA_MODE -/,
  ⟨0x120, 1, 0, 1, 0, 0xFFFFFFFF, 0, 0, 0, 0, 0, 0, [0], []⟩ /- VEC_LUTB_XMIN -/,
  ⟨0x124, 1, 0, 1, 0, 0xFFFFFFFF, 0, 0, 0, 0, 0, 0, [0], []⟩ /- VEC_LUTB_SCALE -/,
  ⟨0x128, 1, 0, 1, 0, 1, 0, 0, 0, 0, 0, 0, [0], []⟩ /- VEC_LUTB_MODE -/,
  ⟨0x130, 1, 0, 1, 0, 0, 0, 0, 0, 0, 0xFFFF, 0, [0], []⟩ /- VEC_RES_CNT -/,
  ⟨0x134, 1, 0, 1, 0, 0, 0, 0, 0, 0, 0x11F0F, 0, [0], []⟩ /- VEC_RES_LAST -/,
  ⟨0x138, 1, 0, 1, 0, 0, 0, 0, 0, 0, 0xFFFF, 0, [0], []⟩ /- VEC_NAN_CNT -/,
  ⟨0x13C, 1, 0, 1, 0, 0, 0, 0, 0, 0, 0xFFFFFFFF, 0, [0], []⟩ /- VEC_CONFLICT -/,
  ⟨0x14C, 1, 0, 1, 0, 0, 0, 0, 0, 7, 0, 0, [0], []⟩ /- VEC_CNT_CLR -/,
  ⟨0x400, 256, 4, 1, 0, 0xFFFFFFFF, 0, 0, 0, 0, 0, 0, [0], []⟩ /- VEC_LUTA -/,
  ⟨0x800, 256, 4, 1, 0, 0xFFFFFFFF, 0, 0, 0, 0, 0, 0, [0], []⟩ /- VEC_LUTB -/]

/-- The registers of the SPAD page (R280). -/
def specs_spad : List RegSpec := [
  ⟨0x100, 1, 0, 1, 0, 0, 0, 0, 0, 0, 0xFFFFFFFF, 0, [0], []⟩ /- SPAD_ECC_CNT -/,
  ⟨0x104, 1, 0, 1, 0, 0, 0, 0, 0, 0, 0x370FFFFF, 0, [0], []⟩ /- SPAD_FLT_ADDR -/,
  ⟨0x110, 6, 4, 1, 0, 0, 0, 0, 0, 0, 0xFFFFFFFF, 0, [0], []⟩ /- SPAD_CONFLICTp -/,
  ⟨0x140, 11, 4, 1, 0, 0, 0, 0, 0, 0, 0xFFFFFFFF, 0, [0], []⟩ /- SPAD_STALLc -/,
  ⟨0x170, 1, 0, 1, 0, 0x3F, 0, 0, 0, 0, 0, 0, [0], []⟩ /- SPAD_BAR_SEL -/,
  ⟨0x174, 1, 0, 1, 0, 0, 0, 0, 0, 0, 0xFFFF, 0, [0], []⟩ /- SPAD_BAR_VAL -/,
  ⟨0x178, 1, 0, 1, 0, 0, 0, 0, 0, 7, 0, 0, [0], []⟩ /- SPAD_CNT_CLR -/]

/-- The registers of the STRM page (R282). -/
def specs_strm : List RegSpec := [
  ⟨0x100, 1, 0, 1, 0, 0, 0, 0, 0, 0, 0x1FFF1, 0, [0], []⟩ /- STRM_STATUS -/,
  ⟨0x104, 1, 0, 1, 0, 0xFFFFFF, 0, 0, 0, 0, 0, 0xFFFFFF, [0x1000], []⟩ /- STRM_MC_LAG_LIMIT -/,
  ⟨0x108, 1, 0, 1, 0, 0, 0, 0, 0, 0, 0xFFFF, 0, [0], []⟩ /- STRM_MC_DROP_CNT -/,
  ⟨0x10C, 1, 0, 1, 0, 0, 0, 0, 0, 0, 0xFFFFFF7F, 0, [0], []⟩ /- STRM_MC_DROP_LAST -/,
  ⟨0x110, 1, 0, 1, 0, 0, 0, 0, 0, 0, 0xFFFFFFFF, 0, [0], []⟩ /- STRM_LINES_LO -/,
  ⟨0x114, 1, 0, 1, 0, 0, 0, 0, 0, 0, 0xFFFF, 0, [0], []⟩ /- STRM_LINES_HI -/,
  ⟨0x118, 1, 0, 1, 0, 0, 0, 0, 0, 3, 0, 0, [0], []⟩ /- STRM_CNT_CLR -/,
  ⟨0x140, 4, 0x10, 1, 0, 0, 0, 0, 0x800, 0, 0xFFFF071F, 0, [0], []⟩ /- STRM_CHk_STAT -/,
  ⟨0x400, 32, 0x20, 8, 4, 0, 0xFFFFFFFF, 0, 0, 0, 0, 0, [0], []⟩ /- STRM_SDESCd_Wi -/]

/-- The registers of the SCALE page (R126). -/
def specs_scale : List RegSpec := [
  ⟨0x100, 1, 0, 1, 0, 1, 0, 0, 0, 0, 0, 1, [1], []⟩ /- SCALE_CTRL -/,
  ⟨0x104, 1, 0, 1, 0, 0, 0, 0, 0, 0, 0xFFFFFFFF, 0, [0], []⟩ /- SCALE_JOB_CNT -/,
  ⟨0x108, 1, 0, 1, 0, 0, 0, 0, 0, 0, 0xFFFFFFFF, 0, [0], []⟩ /- SCALE_ADAPT_CNT -/,
  ⟨0x10C, 1, 0, 1, 0, 0, 0, 0, 0, 1, 0, 0, [0], []⟩ /- SCALE_CNT_CLR -/]

/-- The registers of the STATS page (R131). -/
def specs_stats : List RegSpec := [
  ⟨0x100, 1, 0, 1, 0, 0x13F, 0, 0, 0, 0, 0, 0x13F, [0x104], []⟩ /- STATS_CFG -/,
  ⟨0x104, 1, 0, 1, 0, 0x3FF, 0, 0, 0, 0, 0, 0, [0], []⟩ /- STATS_SEL -/,
  ⟨0x108, 1, 0, 1, 0, 0, 0, 0, 0, 0, 0xFFFFFFFF, 0, [0], []⟩ /- STATS_DATA0 -/,
  ⟨0x10C, 1, 0, 1, 0, 0, 0, 0, 0, 0, 0x1FFFFFF, 0, [0], []⟩ /- STATS_DATA1 -/,
  ⟨0x110, 1, 0, 1, 0, 0, 0, 0, 0, 0, 0xFFFFFFFF, 0, [0], []⟩ /- STATS_WIDE_CNT -/,
  ⟨0x114, 1, 0, 1, 0, 0, 0, 0, 0, 0, 0xFFFFFFFF, 0, [0], []⟩ /- STATS_CLIP_CNT -/,
  ⟨0x118, 1, 0, 1, 0, 0, 0, 0, 0, 0xF, 0, 0, [0], []⟩ /- STATS_CNT_CLR -/,
  ⟨0x200, 16, 0x10, 1, 0, 0x800003FF, 0, 0, 0, 0, 0, 0, [0], []⟩ /- STATS_WHk_CFG -/,
  ⟨0x204, 16, 0x10, 1, 0, 0, 0, 0, 0, 0, 0xFFFFFFFF, 0, [0], []⟩ /- STATS_WHk_LO -/,
  ⟨0x208, 16, 0x10, 1, 0, 0, 0, 0, 0, 0, 0xFFFFFFFF, 0, [0], []⟩ /- STATS_WHk_HI -/,
  ⟨0x20C, 16, 0x10, 1, 0, 0, 0, 0, 0, 0, 0x7F, 0, [0], []⟩ /- STATS_WHk_CNT -/]

/-- The registers of the CAM page, part 0 (R358, R359). -/
def specs_cam_0 : List RegSpec := [
  ⟨0x100, 1, 0, 1, 0, 0, 0, 0x71F, 0, 0, 0, 0x71F, [0x30A], []⟩ /- CAM_CFG -/,
  ⟨0x104, 1, 0, 1, 0, 0, 0, 0xFFF0FFF, 0, 0, 0, 0xFFF0FFF, [0x437077F], []⟩ /- CAM_SIZE -/,
  ⟨0x108, 1, 0, 1, 0, 0, 0, 0xF, 0, 0, 0, 0xF, [0], []⟩ /- CAM_MAP -/,
  ⟨0x10C, 1, 0, 1, 0, 0xFFFFFF0F, 0, 0, 0, 0, 0, 0xFFFFFF0F, [0x1140D], []⟩ /- CAM_TEST -/,
  ⟨0x110, 1, 0, 1, 0, 3, 0, 0, 0, 0, 0x30, 3, [0], []⟩ /- CAM_PWR -/,
  ⟨0x114, 1, 0, 1, 0, 0xFFFFFF, 0, 0, 0, 0, 0, 0xFFFFFF, [0x186A0], []⟩ /- CAM_FRAME_TIMEOUT -/,
  ⟨0x118, 1, 0, 1, 0, 0, 0, 0, 0, 0, 0x37F, 0, [0], []⟩ /- CAM_CHECK_STAT -/,
  ⟨0x11C, 1, 0, 1, 0, 0, 0, 0, 0, 0, 0x7FFFF, 0, [0], []⟩ /- CAM_PIN_SHORT_LO -/,
  ⟨0x120, 1, 0, 1, 0, 0, 0, 0, 0, 0, 0x7FFFF, 0, [0], []⟩ /- CAM_PIN_SHORT_HI -/,
  ⟨0x124, 1, 0, 1, 0, 0, 0, 0, 0, 0, 0x7FFFF, 0, [0], []⟩ /- CAM_PIN_BRIDGE -/,
  ⟨0x128, 1, 0, 1, 0, 0, 0, 0, 0, 0, 0x70000, 0, [0], []⟩ /- CAM_PIN_OPEN -/,
  ⟨0x12C, 1, 0, 1, 0, 0, 0, 0, 0, 0, 0xFFFFFFFF, 0, [0], []⟩ /- CAM_FRAME_CNT -/,
  ⟨0x130, 1, 0, 1, 0, 0, 0, 0, 0, 0, 0xFFFFFFFF, 0, [0], []⟩ /- CAM_ERR_CNT -/,
  ⟨0x134, 1, 0, 1, 0, 0, 0, 0, 0, 0, 0xFFFFFFFF, 0, [0], []⟩ /- CAM_POISON_AVOID -/,
  ⟨0x138, 1, 0, 1, 0, 0, 0, 0, 0, 3, 0, 0, [0], []⟩ /- CAM_CNT_CLR -/,
  ⟨0x200, 1, 0, 1, 0, 0, 0, 0xFFFFFFFF, 0, 0, 0, 0xFFFFFFFF, [0], []⟩ /- CAM_RING_BASE_LO -/,
  ⟨0x204, 1, 0, 1, 0, 0, 0, 0xFF, 0, 0, 0, 0xFF, [0], []⟩ /- CAM_RING_BASE_HI -/,
  ⟨0x208, 1, 0, 1, 0, 0, 0, 0xFFFFFFF, 0, 0, 0, 0xFFFFFFF, [0], []⟩ /- CAM_RING_STRIDE -/,
  ⟨0x20C, 1, 0, 1, 0, 0, 0, 0x11F1F, 0, 0, 0, 0x1F1F, [7], []⟩ /- CAM_RING_CFG -/,
  ⟨0x210, 1, 0, 1, 0, 0, 0, 0, 0, 0, 0xFFFF9F3F, 0, [0], []⟩ /- CAM_RING_STAT -/]

/-- The registers of the CAM page, part 1 (R358, R359). -/
def specs_cam_1 : List RegSpec := [
  ⟨0x214, 1, 0, 1, 0, 0, 0, 0, 0, 0x3F, 0, 0, [0], []⟩ /- CAM_RING_REL -/,
  ⟨0x218, 1, 0, 1, 0, 0, 0, 0, 0, 0, 0xFFFFFFFF, 0, [0], []⟩ /- CAM_RING_DROP -/]

/-- The registers of the CAM page (R358, R359). -/
def specs_cam : List RegSpec := specs_cam_0 ++ specs_cam_1

/-- The registers of the ISP page (R361). -/
def specs_isp : List RegSpec := [
  ⟨0x100, 1, 0, 1, 0, 0, 0, 0x7F, 0, 0, 0, 0x7F, [0x7F], []⟩ /- ISP_EN -/,
  ⟨0x104, 1, 0, 1, 0, 0, 0, 0xFFFF0007, 0, 0, 0, 0xFFFF0007, [0x1000000], []⟩ /- ISP_CFA -/,
  ⟨0x108, 2, 4, 1, 0, 0, 0, 0xFFFFFFFF, 0, 0, 0, 0xFFFFFFFF, [0], []⟩ /- ISP_BLCn -/,
  ⟨0x110, 1, 0, 1, 0, 0, 0, 0xFFF, 0, 0, 0, 0xFFF, [0x40], []⟩ /- ISP_DPC -/,
  ⟨0x114, 1, 0, 1, 0, 0, 0, 0xFFFFFFFF, 0, 0, 0, 0xFFFFFFFF, [0], []⟩ /- ISP_LSC_LO -/,
  ⟨0x118, 1, 0, 1, 0, 0, 0, 0xFF, 0, 0, 0, 0xFF, [0], []⟩ /- ISP_LSC_HI -/,
  ⟨0x11C, 2, 4, 1, 0, 0, 0, 0xFFFFFFFF, 0, 0, 0, 0xFFFFFFFF, [0x10001000], []⟩ /- ISP_WBn -/,
  ⟨0x124, 5, 4, 1, 0, 0, 0, 0xFFFFFFFF, 0, 0, 0, 0xFFFFFFFF, [0x1000, 0, 0x1000, 0, 0x1000], []⟩ /- ISP_CCMn -/,
  ⟨0x138, 2, 4, 1, 0, 0, 0, 0xFFFFFFFF, 0, 0, 0, 0xFFFFFFFF, [0], []⟩ /- ISP_CCM_OFSn -/,
  ⟨0x140, 1, 0, 1, 0, 0, 0, 0xFFFFFFFF, 0, 0, 0, 0xFFFFFFFF, [0], []⟩ /- ISP_TONE_LO -/,
  ⟨0x144, 1, 0, 1, 0, 0, 0, 0xFF, 0, 0, 0, 0xFF, [0], []⟩ /- ISP_TONE_HI -/,
  ⟨0x148, 1, 0, 1, 0, 0, 0, 0x37, 0, 0, 0, 0x37, [0x20], []⟩ /- ISP_OUT -/,
  ⟨0x14C, 1, 0, 1, 0, 0, 0, 0xFFF0FFF, 0, 0, 0, 0xFFF0FFF, [0], []⟩ /- ISP_CROP0 -/,
  ⟨0x150, 1, 0, 1, 0, 0, 0, 0xFFF0FFF, 0, 0, 0, 0xFFF0FFF, [0x437077F], []⟩ /- ISP_CROP1 -/,
  ⟨0x154, 1, 0, 1, 0, 0, 0, 0xFFF0FFF, 0, 0, 0, 0xFFF0FFF, [0x437077F], []⟩ /- ISP_OUT_SIZE -/,
  ⟨0x158, 1, 0, 1, 0, 0, 0, 0, 0, 0, 0xFFFFFFFF, 0, [0], []⟩ /- ISP_DPC_CNT -/]

/-- The registers of the TAP page (R359, R362). -/
def specs_tap : List RegSpec := [
  ⟨0x100, 1, 0, 1, 0, 0, 0, 0xF, 0, 0, 0, 0xF, [0], []⟩ /- TAP_SEL -/,
  ⟨0x200, 4, 0x20, 1, 0, 0, 0, 0xFFFFFFFF, 0, 0, 0, 0xFFFFFFFF, [0], []⟩ /- TAPk_RING_BASE_LO -/,
  ⟨0x204, 4, 0x20, 1, 0, 0, 0, 0xFF, 0, 0, 0, 0xFF, [0], []⟩ /- TAPk_RING_BASE_HI -/,
  ⟨0x208, 4, 0x20, 1, 0, 0, 0, 0xFFFFFFF, 0, 0, 0, 0xFFFFFFF, [0], []⟩ /- TAPk_RING_STRIDE -/,
  ⟨0x20C, 4, 0x20, 1, 0, 0, 0, 0x11F1F, 0, 0, 0, 0x1F1F, [7], []⟩ /- TAPk_RING_CFG -/,
  ⟨0x210, 4, 0x20, 1, 0, 0, 0, 0, 0, 0, 0xFFFF9F3F, 0, [0], []⟩ /- TAPk_RING_STAT -/,
  ⟨0x214, 4, 0x20, 1, 0, 0, 0, 0, 0, 0x3F, 0, 0, [0], []⟩ /- TAPk_RING_REL -/,
  ⟨0x218, 4, 0x20, 1, 0, 0, 0, 0, 0, 0, 0xFFFFFFFF, 0, [0], []⟩ /- TAPk_RING_DROP -/]

/-- The registers of the HUB page (R27, R28, R318). -/
def specs_hub : List RegSpec := [
  ⟨0x100, 1, 0, 1, 0, 0x33F, 0, 0, 0, 0, 0, 0x33F, [0x202], []⟩ /- HUB_MEM_CFG -/,
  ⟨0x104, 1, 0, 1, 0, 0, 0, 0, 0, 0, 0x7F, 0, [0], []⟩ /- HUB_MEM_CAP -/,
  ⟨0x110, 1, 0, 1, 0, 0, 0xFFFFFFFF, 0, 0, 0, 0, 0xFFFFFFFF, [0x12041204], []⟩ /- HUB_BW_WHEEL -/,
  ⟨0x120, 4, 4, 1, 0, 0, 0x1F1F1F, 0, 0, 0, 0, 0x1F1F1F, [0x101010, 0, 0, 0], []⟩ /- HUB_BW_PARTp -/,
  ⟨0x130, 4, 4, 1, 0, 0, 0, 0, 0, 0, 0xFFFFFFFF, 0, [0], []⟩ /- HUB_BW_HELDp -/,
  ⟨0x140, 4, 8, 1, 0, 0x130, 0, 0, 0, 0, 0, 0, [0], []⟩ /- HUB_LOAD_SELp -/,
  ⟨0x144, 4, 8, 1, 0, 0, 0, 0, 0, 0, 0x7FF, 0, [0], []⟩ /- HUB_LOAD_VALp -/,
  ⟨0x160, 1, 0, 1, 0, 0, 0, 0, 0, 1, 0, 0, [0], []⟩ /- HUB_BW_CLR -/,
  ⟨0x800, 6, 4, 1, 0, 0, 0, 0, 0xFFFF0000, 0, 0xFF1F, 0, [1], []⟩ /- HUB_LINK_STATk -/,
  ⟨0x820, 1, 0, 1, 0, 0xFF003F, 0, 0, 0, 0, 0, 0xFF0000, [0x100000], []⟩ /- HUB_LINK_CTRL -/]

/-- The registers of the HUBDDR page (R319). -/
def specs_hubDdr : List RegSpec := [
  ⟨0x100, 1, 0, 1, 0, 0, 0, 0, 0, 0, 0x71F, 0, [0], []⟩ /- HUB_DDR_STATUS -/,
  ⟨0x104, 1, 0, 1, 0, 0xFFFF01, 0, 0, 0, 0, 0, 0xFFFF01, [0x202001], []⟩ /- HUB_DDR_CAL_CTRL -/,
  ⟨0x108, 1, 0, 1, 0, 0, 0, 0, 0, 0, 0xFFFFFFFF, 0, [0], []⟩ /- HUB_DDR_CAL_STAT -/,
  ⟨0x110, 5, 4, 1, 0, 0, 0, 0, 0, 0, 0xFFFFFFFF, 0, [0], []⟩ /- HUB_DDR_LANEl -/,
  ⟨0x130, 1, 0, 1, 0, 0, 0, 0, 0, 0, 0xFFFFFFFF, 0, [0], []⟩ /- HUB_DDR_OSC -/,
  ⟨0x140, 1, 0, 1, 0, 0, 0, 0, 0, 0, 0xFFFFFFFF, 0, [0], []⟩ /- HUB_DDR_ECC -/,
  ⟨0x144, 1, 0, 1, 0, 0, 0, 0, 0, 0, 0xFFFFFFFF, 0, [0], []⟩ /- HUB_DDR_ECC_ADDR -/,
  ⟨0x148, 1, 0, 1, 0, 0xFFFF, 0, 0, 0, 0, 0, 0xFFFF, [0x100], []⟩ /- HUB_DDR_CE_LIMIT -/,
  ⟨0x14C, 1, 0, 1, 0, 7, 0, 0, 0, 0, 0xFFFF0000, 7, [7], []⟩ /- HUB_DDR_MAINT -/,
  ⟨0x150, 1, 0, 1, 0, 0, 0, 0, 0, 3, 0, 0, [0], []⟩ /- HUB_DDR_CNT_CLR -/]

/-- The registers of the HUBLLC page (R321). -/
def specs_hubLlc : List RegSpec := [
  ⟨0x100, 1, 0, 1, 0, 0, 0xFFFFFFFF, 0, 0, 0, 0, 0xFFFFFFFF, [0], []⟩ /- HUB_LLC_WAYMODE -/,
  ⟨0x104, 1, 0, 1, 0, 0, 0xFFFFFFFF, 0, 0, 0, 0, 0xFFFFFFFF, [0], []⟩ /- HUB_LLC_WAYOWN -/,
  ⟨0x108, 1, 0, 1, 0, 0, 0, 0, 0, 0, 0xFFFF, 0, [0], []⟩ /- HUB_LLC_WAYSTAT -/,
  ⟨0x110, 1, 0, 1, 0, 3, 0, 0, 0, 0, 0, 0, [0], []⟩ /- HUB_LLC_STAT_SEL -/,
  ⟨0x114, 1, 0, 1, 0, 0, 0, 0, 0, 0, 0xFFFFFFFF, 0, [0], []⟩ /- HUB_LLC_HITS -/,
  ⟨0x118, 1, 0, 1, 0, 0, 0, 0, 0, 0, 0xFFFFFFFF, 0, [0], []⟩ /- HUB_LLC_MISSES -/,
  ⟨0x120, 1, 0, 1, 0, 0, 0, 0, 0, 0, 0xFFFFFFFF, 0, [0], []⟩ /- HUB_LLC_ECC -/,
  ⟨0x124, 1, 0, 1, 0, 0, 0, 0, 0, 0, 0xFFFFFFFF, 0, [0], []⟩ /- HUB_LLC_ECC2 -/,
  ⟨0x130, 1, 0, 1, 0, 0, 0, 0, 0, 0x1FFFF, 0, 0, [0], []⟩ /- HUB_LLC_FLUSH -/,
  ⟨0x134, 1, 0, 1, 0, 0, 0, 0, 0, 3, 0, 0, [0], []⟩ /- HUB_LLC_CNT_CLR -/]

/-- The registers of the PART page, part 0 (R402). -/
def specs_part_0 : List RegSpec := [
  ⟨0x100, 1, 0, 1, 0, 0, 3, 0, 0, 0, 0, 3, [0], [1]⟩ /- PART_CFG -/,
  ⟨0x104, 3, 4, 1, 0, 0, 0xFFFFFFFF, 0, 0, 0, 0, 0xFFFFFFFF, [0], [0xFFFFFFFF]⟩ /- PART_TILESn -/,
  ⟨0x110, 1, 0, 1, 0, 0, 0xFFF, 0, 0, 0, 0, 0xFFF, [0], [0xFFF]⟩ /- PART_CAMS -/,
  ⟨0x120, 4, 8, 1, 0, 0, 0xFFFFF, 0, 0, 0, 0, 0xFFFFF, [0], []⟩ /- PART_DDRk_BASE -/,
  ⟨0x124, 4, 8, 1, 0, 0, 0xC00FFFFF, 0, 0, 0, 0, 0xC00FFFFF, [0], [0x800FFFFF, 0, 0, 0]⟩ /- PART_DDRk_LIMIT -/,
  ⟨0x140, 1, 0, 1, 0, 0, 0xFFFFFFC0, 0, 0, 0, 0, 0xFFFFFFC0, [0], []⟩ /- PART_DESC_BASE_LO -/,
  ⟨0x144, 1, 0, 1, 0, 0, 0xFF, 0, 0, 0, 0, 0xFF, [0], []⟩ /- PART_DESC_BASE_HI -/,
  ⟨0x148, 1, 0, 1, 0, 0, 0x1FFF, 0, 0, 0, 0, 0x1FFF, [0], []⟩ /- PART_DESC_CNT -/,
  ⟨0x150, 1, 0, 1, 0, 0, 0xFFFFFFFF, 0, 0, 0, 0, 0xFFFFFFFF, [0], []⟩ /- PART_WIN_LEN -/,
  ⟨0x154, 1, 0, 1, 0, 0, 0xFFFFFFFF, 0, 0, 0, 0, 0xFFFFFFFF, [0], []⟩ /- PART_WIN_RSV -/,
  ⟨0x160, 1, 0, 1, 0, 0, 0xFFFFFFE0, 0, 0, 0, 0, 0xFFFFFFE0, [0], []⟩ /- PART_CPL_BASE_LO -/,
  ⟨0x164, 1, 0, 1, 0, 0, 0xFF, 0, 0, 0, 0, 0xFF, [0], []⟩ /- PART_CPL_BASE_HI -/,
  ⟨0x168, 1, 0, 1, 0, 0, 0xFF, 0, 0, 0, 0, 0xFF, [0xF], []⟩ /- PART_CPL_CFG -/,
  ⟨0x200, 1, 0, 1, 0, 0, 0, 0, 0, 0, 0xFFFFFFFF, 0, [0], []⟩ /- PART_CNT_LO -/,
  ⟨0x204, 1, 0, 1, 0, 0, 0, 0, 0, 0, 0xFFFFFFFF, 0, [0], []⟩ /- PART_CNT_HI -/,
  ⟨0x208, 1, 0, 1, 0, 0, 0, 0, 0, 0xFFFF, 0, 0, [0], []⟩ /- PART_SYNC -/,
  ⟨0x210, 1, 0, 1, 0, 0xFFFFFFC0, 0, 0, 0, 0, 0, 0, [0], []⟩ /- PART_JOB_SUB_LO -/,
  ⟨0x214, 1, 0, 1, 0, 0xFF, 0, 0, 0, 0x80000000, 0, 0, [0], []⟩ /- PART_JOB_SUB_HI -/,
  ⟨0x218, 1, 0, 1, 0, 0, 0, 0, 0, 0, 0xFFFF0FFF, 0, [0], []⟩ /- PART_JOB_STAT -/,
  ⟨0x21C, 1, 0, 1, 0, 0, 0, 0, 0, 0x8000FFFF, 0, 0, [0], []⟩ /- PART_JOB_CANCEL -/]

/-- The registers of the PART page, part 1 (R402). -/
def specs_part_1 : List RegSpec := [
  ⟨0x220, 1, 0, 1, 0, 0, 0, 0, 0, 0xFF, 0, 0, [0], []⟩ /- PART_CPL_REL -/,
  ⟨0x224, 1, 0, 1, 0, 0, 0, 0, 0, 0, 0xFFFF, 0, [0], []⟩ /- PART_CPL_STAT -/,
  ⟨0x230, 3, 4, 1, 0, 0, 0, 0, 0, 0, 0xFFFFFFFF, 0, [0], []⟩ /- PART_IRQ_TILEn -/,
  ⟨0x23C, 1, 0, 1, 0, 0, 0, 0, 0, 0, 0xFFF, 0, [0], []⟩ /- PART_IRQ_CAM -/,
  ⟨0x240, 1, 0, 1, 0, 0, 0, 0, 0, 0, 0x7FFFFFFF, 0, [0], []⟩ /- PART_IRQ_SYS -/,
  ⟨0x244, 1, 0, 1, 0, 0, 0, 0, 0, 0, 0xFFFFFFFF, 0, [0], []⟩ /- PART_FW_CNT -/,
  ⟨0x248, 1, 0, 1, 0, 0, 0, 0, 0, 0, 0xFFFFFF, 0, [0], []⟩ /- PART_DL_LAST -/]

/-- The registers of the PART page (R402). -/
def specs_part : List RegSpec := specs_part_0 ++ specs_part_1

/-- The registers of the CLK page (R468). -/
def specs_clk : List RegSpec := [
  ⟨0x100, 1, 0, 1, 0, 3, 0, 0, 0, 0, 0, 0, [0], []⟩ /- CLK_ROOT -/,
  ⟨0x104, 1, 0, 1, 0, 0, 0, 0, 0, 0, 0x3F, 0, [3], []⟩ /- CLK_SRC_RDY -/,
  ⟨0x108, 1, 0, 1, 0, 3, 0, 0, 0, 0, 0, 0, [0], []⟩ /- CLK_PLL_CTRL -/,
  ⟨0x10C, 1, 0, 1, 0, 1, 0, 0, 0, 0, 0, 1, [0], []⟩ /- CLK_AON -/,
  ⟨0x110, 1, 0, 1, 0, 7, 0, 0, 0, 0, 0xFFFF7700, 7, [0], []⟩ /- CLK_ARITH -/,
  ⟨0x114, 1, 0, 1, 0, 0, 0, 0, 1, 0, 0x330, 0, [0], []⟩ /- CLK_STAT -/,
  ⟨0x118, 1, 0, 1, 0, 0, 0, 0, 0x3F, 0, 0, 0, [0], []⟩ /- CLK_MON -/]

/-- The registers of the PWR page, part 0 (R469). -/
def specs_pwr_0 : List RegSpec := [
  ⟨0x100, 1, 0, 1, 0, 0, 0, 0, 0, 0, 0x3FFFFFF, 0, [0], []⟩ /- PWR_DOM_STAT -/,
  ⟨0x104, 1, 0, 1, 0, 0, 0, 0, 0, 0, 0x3FFFFFF, 0, [0], []⟩ /- PWR_DOM_BUSY -/,
  ⟨0x108, 1, 0, 1, 0, 0x3FFFFFF, 0, 0, 0, 0, 0, 0x3FFFFFF, [0], []⟩ /- PWR_DOM_FORCE -/,
  ⟨0x10C, 1, 0, 1, 0, 0xFFFF, 0, 0, 0, 0, 0, 0xFFFF, [0x64], []⟩ /- PWR_OFF_DELAY -/,
  ⟨0x110, 1, 0, 1, 0, 0xFF, 0, 0, 0, 0, 0, 0xFF, [0xC], []⟩ /- PWR_WAKE_BUDGET -/,
  ⟨0x114, 1, 0, 1, 0, 0, 0, 0, 0, 0, 0xFFFF011F, 0, [0], []⟩ /- PWR_WAKE_Q -/,
  ⟨0x120, 4, 4, 1, 0, 0xFFFFFFFF, 0, 0, 0, 0, 0, 0xFFFFFFFF, [0x44444444, 0x22224444, 0x11112222, 0x11], []⟩ /- PWR_WAKE_WTi -/,
  ⟨0x130, 1, 0, 1, 0, 6, 0, 0, 0x10, 1, 0x300, 6, [2], []⟩ /- PWR_IDLE -/,
  ⟨0x134, 1, 0, 1, 0, 0, 0, 0, 0, 0, 0xF, 0, [0], []⟩ /- PWR_WAKE_SRC -/,
  ⟨0x138, 1, 0, 1, 0, 0xFFFFFFFF, 0, 0, 0, 0, 0, 0, [0], []⟩ /- PWR_WAKE_TIMER -/,
  ⟨0x140, 1, 0, 1, 0, 0x1FFFF, 0, 0, 0, 0, 0, 0x1FFFF, [0xD6D8], []⟩ /- PWR_PKG_CAP -/,
  ⟨0x144, 1, 0, 1, 0, 0x1FFFF, 0, 0, 0, 0, 0, 0x1FFFF, [0xEA60], []⟩ /- PWR_PKG_PEAK -/,
  ⟨0x148, 1, 0, 1, 0, 0x333, 0, 0, 0, 0, 0, 0x333, [0x12], []⟩ /- PWR_CAP_ORDER -/,
  ⟨0x14C, 1, 0, 1, 0, 0, 0, 0, 0, 0, 0x1FFFF, 0, [0], []⟩ /- PWR_PKG_NOW -/,
  ⟨0x150, 1, 0, 1, 0, 0, 0, 0, 0, 0, 0x1FFFF, 0, [0], []⟩ /- PWR_PKG_AVG -/,
  ⟨0x154, 1, 0, 1, 0, 0, 0, 0, 0, 0, 0x177, 0, [0], []⟩ /- PWR_CAP_STAT -/,
  ⟨0x160, 6, 4, 1, 0, 0x3FF, 0, 0, 0, 0, 0, 0x3FF, [0x2EE], []⟩ /- PWR_VF_Pk -/,
  ⟨0x180, 1, 0, 1, 0, 0x7F7F7F7F, 0, 0, 0, 0, 0, 0x7F7F7F7F, [0x43424140], []⟩ /- PWR_PMB_ADDR -/,
  ⟨0x184, 1, 0, 1, 0, 0x1F, 0, 0, 0, 0, 0, 0x1F, [0x17], []⟩ /- PWR_PMB_CFG -/,
  ⟨0x188, 1, 0, 1, 0, 0, 0, 0, 0, 0, 0x3FF, 0, [0], []⟩ /- PWR_VCD_MV -/]

/-- The registers of the PWR page, part 1 (R469). -/
def specs_pwr_1 : List RegSpec := [
  ⟨0x18C, 1, 0, 1, 0, 0xFFFF, 0, 0, 0, 0, 0xFF010000, 0xFFFF, [0x3E8], []⟩ /- PWR_ALERT -/]

/-- The registers of the PWR page (R469). -/
def specs_pwr : List RegSpec := specs_pwr_0 ++ specs_pwr_1

/-- The registers of the THM page (R470). -/
def specs_thm : List RegSpec := [
  ⟨0x100, 32, 4, 1, 0, 0, 0, 0, 0, 0, 0xFFFF, 0, [0], []⟩ /- THM_Tn -/,
  ⟨0x180, 1, 0, 1, 0, 0xFFFFFF, 0, 0, 0, 0, 0, 0xFFFFFF, [0x140064], []⟩ /- THM_CTRL -/,
  ⟨0x184, 1, 0, 1, 0, 0xFFFFFFFF, 0, 0, 0, 0, 0, 0xFFFFFFFF, [0x2710], []⟩ /- THM_RELAX -/,
  ⟨0x188, 1, 0, 1, 0, 0, 0, 0, 0, 0, 0x71F0FFF, 0, [0], []⟩ /- THM_MAX -/,
  ⟨0x18C, 1, 0, 1, 0, 0, 0, 0, 0, 0, 0x8000001F, 0, [0], []⟩ /- THM_TRIP -/,
  ⟨0x200, 32, 0x10, 1, 0, 0xFFF, 0, 0, 0, 0, 0, 0xFFF, [0x1CC], []⟩ /- THM_Tn_WARN -/,
  ⟨0x204, 32, 0x10, 1, 0, 0xFFF, 0, 0, 0, 0, 0, 0xFFF, [0x1E0], []⟩ /- THM_Tn_LIMIT -/,
  ⟨0x208, 32, 0x10, 1, 0, 0xFFF, 0, 0, 0, 0, 0, 0xFFF, [0x208], []⟩ /- THM_Tn_CRIT -/]

/-- The registers of the SNT page (R498). -/
def specs_snt : List RegSpec := [
  ⟨0x100, 1, 0, 1, 0, 1, 0, 0, 0, 0, 0, 0, [0], []⟩ /- SNT_CTRL -/,
  ⟨0x104, 1, 0, 1, 0, 0, 0, 0, 0, 1, 0, 0, [0], []⟩ /- SNT_SNAP -/,
  ⟨0x108, 1, 0, 1, 0, 0, 0, 0, 0, 0, 0x7F, 0, [0], []⟩ /- SNT_STAT -/,
  ⟨0x10C, 1, 0, 1, 0, 0, 0, 0, 0, 0, 0xFFFFFFFF, 0, [0], []⟩ /- SNT_SNAP_SEQ -/,
  ⟨0x110, 1, 0, 1, 0, 0, 0, 0, 0, 0, 0xFFFFFFFF, 0, [0], []⟩ /- SNT_OPTIME -/,
  ⟨0x114, 1, 0, 1, 0, 0, 0, 0, 0, 0, 0xFFFFFFFF, 0, [0], []⟩ /- SNT_CYCLES -/,
  ⟨0x120, 1, 0, 1, 0, 0xFFFF, 0, 0, 0, 0, 0, 0, [0], []⟩ /- SNT_TAG_LOCK -/,
  ⟨0x800, 256, 4, 1, 0, 0xFFFFFFFF, 0, 0, 0, 0, 0, 0, [0], []⟩ /- SNT_TAG -/]

/-- The registers of the FUM page (R499). -/
def specs_fum : List RegSpec := [
  ⟨0x100, 1, 0, 1, 0, 0, 0, 0, 0, 3, 0, 0, [0], []⟩ /- FUM_CTRL -/,
  ⟨0x104, 1, 0, 1, 0, 0xFFFF, 0, 0, 0, 0, 0, 0xFFFF, [0x804], []⟩ /- FUM_RATE -/,
  ⟨0x108, 1, 0, 1, 0, 0, 0, 0, 0, 0, 0x1FF017F, 0, [0], []⟩ /- FUM_STAT -/,
  ⟨0x10C, 1, 0, 1, 0, 0, 0, 0, 0, 0, 0x103FF, 0, [0], []⟩ /- FUM_RING -/,
  ⟨0x110, 1, 0, 1, 0, 0, 0, 0, 0, 0, 0xFFFFFFFF, 0, [0], []⟩ /- FUM_LOST -/,
  ⟨0x114, 1, 0, 1, 0, 0, 0, 0, 0, 0, 0xFFFFFFFF, 0, [0], []⟩ /- FUM_SUPPR -/,
  ⟨0x118, 1, 0, 1, 0, 0, 0, 0, 0, 0, 0xFFFFFFFF, 0, [0], []⟩ /- FUM_SEQ -/,
  ⟨0x120, 1, 0, 1, 0, 0x33FF, 0, 0, 0, 0, 0, 0, [0], []⟩ /- FUM_RD_SEL -/,
  ⟨0x140, 8, 4, 1, 0, 0, 0, 0, 0, 0, 0xFFFFFFFF, 0, [0], []⟩ /- FUM_RD_Wi -/]

/-- The registers of the CAL page, part 0 (R440). -/
def specs_cal_0 : List RegSpec := [
  ⟨0x100, 1, 0, 1, 0, 0x73, 0, 0, 0, 0x100, 0, 0x73, [0x23], []⟩ /- CAL_CTRL -/,
  ⟨0x104, 1, 0, 1, 0, 0, 0, 0, 0, 0, 0xFF1F3F, 0, [4], []⟩ /- CAL_STATUS -/,
  ⟨0x108, 1, 0, 1, 0, 0, 0, 0, 0, 0, 0x7FF, 0, [0], []⟩ /- CAL_LOAD -/,
  ⟨0x10C, 1, 0, 1, 0, 0xFFFF, 0, 0, 0, 0, 0, 0xFFFF, [0x64], []⟩ /- CAL_EVID_LIMIT -/,
  ⟨0x110, 1, 0, 1, 0, 0xFFFF, 0, 0, 0, 0, 0, 0xFFFF, [0x28], []⟩ /- CAL_HB_LIMIT -/,
  ⟨0x114, 1, 0, 1, 0, 0, 0, 0, 0, 1, 0, 0, [0], []⟩ /- CAL_FW_HB -/,
  ⟨0x118, 1, 0, 1, 0, 0xFFFF, 0, 0, 0, 0, 0, 0xFFFF, [0x3E8], []⟩ /- CAL_FW_HB_LIMIT -/,
  ⟨0x120, 1, 0, 1, 0, 0xFFFFFFE0, 0, 0, 0, 0, 0, 0xFFFFFFE0, [0], []⟩ /- CAL_VRING_BASE_LO -/,
  ⟨0x124, 1, 0, 1, 0, 0xFF, 0, 0, 0, 0, 0, 0xFF, [0], []⟩ /- CAL_VRING_BASE_HI -/,
  ⟨0x128, 1, 0, 1, 0, 0xFF, 0, 0, 0, 0, 0, 0xFF, [0x3F], []⟩ /- CAL_VRING_CFG -/,
  ⟨0x12C, 1, 0, 1, 0, 0, 0, 0, 0, 0xFF, 0, 0, [0], []⟩ /- CAL_VRING_REL -/,
  ⟨0x130, 1, 0, 1, 0, 0, 0, 0, 0, 0, 0x1FFFFFF, 0, [0], []⟩ /- CAL_VRING_STAT -/,
  ⟨0x140, 1, 0, 1, 0, 0xFFFFFFFF, 0, 0, 0, 0, 0, 0xFFFFFFFF, [0], []⟩ /- CAL_GEY_LIST_LO -/,
  ⟨0x144, 1, 0, 1, 0, 0xFF, 0, 0, 0, 0, 0, 0xFF, [0], []⟩ /- CAL_GEY_LIST_HI -/,
  ⟨0x148, 1, 0, 1, 0, 0xFFF, 0, 0, 0, 0, 0, 0xFFF, [0], []⟩ /- CAL_GEY_PC -/,
  ⟨0x14C, 1, 0, 1, 0, 0xFFFF, 0, 0, 0, 0, 0, 0xFFFF, [0x8000], []⟩ /- CAL_GEY_BANKS -/,
  ⟨0x150, 1, 0, 1, 0, 0xFFFFFFC0, 0, 0, 0, 0, 0, 0xFFFFFFC0, [0], []⟩ /- CAL_GEY_OUT_LO -/,
  ⟨0x154, 1, 0, 1, 0, 0xFF, 0, 0, 0, 0, 0, 0xFF, [0], []⟩ /- CAL_GEY_OUT_HI -/,
  ⟨0x158, 1, 0, 1, 0, 0xFFFF, 0, 0, 0, 0, 0, 0xFFFF, [0x40], []⟩ /- CAL_GEY_OUT_LEN -/,
  ⟨0x15C, 1, 0, 1, 0, 0xFFFFFFFF, 0, 0, 0, 0, 0, 0xFFFFFFFF, [0], []⟩ /- CAL_GEY_SIG_LO -/]

/-- The registers of the CAL page, part 1 (R440). -/
def specs_cal_1 : List RegSpec := [
  ⟨0x160, 1, 0, 1, 0, 0xFFFFFFFF, 0, 0, 0, 0, 0, 0xFFFFFFFF, [0], []⟩ /- CAL_GEY_SIG_HI -/,
  ⟨0x164, 1, 0, 1, 0, 0, 0, 0, 0, 0, 0xFFFFFF3F, 0, [0], []⟩ /- CAL_GEY_STAT -/,
  ⟨0x170, 1, 0, 1, 0, 0xFFFFFFC0, 0, 0, 0, 0, 0, 0xFFFFFFC0, [0], []⟩ /- CAL_REMAP_LO -/,
  ⟨0x174, 1, 0, 1, 0, 0xFF, 0, 0, 0, 0, 0, 0xFF, [0], []⟩ /- CAL_REMAP_HI -/,
  ⟨0x180, 4, 4, 1, 0, 0x80007F7F, 0, 0, 0, 0, 0, 0, [0], []⟩ /- CAL_REDIRk -/,
  ⟨0x190, 3, 4, 1, 0, 0, 0, 0, 0, 0, 0xFFFFFFFF, 0, [0], []⟩ /- CAL_TILE_OOSn -/,
  ⟨0x19C, 1, 0, 1, 0, 0, 0, 0, 0, 0x17F, 0, 0, [0], []⟩ /- CAL_TILE_FORCE -/,
  ⟨0x1A0, 1, 0, 1, 0, 0, 0, 0, 0, 0, 0xFFFFFF0F, 0, [0], []⟩ /- CAL_ST_STAT -/,
  ⟨0x1A4, 1, 0, 1, 0, 0, 0, 0, 0, 0, 0xFFFFFFFF, 0, [0], []⟩ /- CAL_ST_DEFER -/,
  ⟨0x1B0, 5, 4, 1, 0, 0, 0, 0, 0, 0, 0xFFFFFFFF, 0, [0], []⟩ /- CAL_VCNTv -/,
  ⟨0x1C4, 1, 0, 1, 0, 0, 0, 0, 0, 3, 0, 0, [0], []⟩ /- CAL_CNT_CLR -/]

/-- The registers of the CAL page (R440). -/
def specs_cal : List RegSpec := specs_cal_0 ++ specs_cal_1

/-- The registers of the SEC page (R497). -/
def specs_sec : List RegSpec := [
  ⟨0x100, 1, 0, 1, 0, 0, 0, 0, 0, 0, 0xFFFFFFFF, 0, [0x4D415A4F], []⟩ /- SEC_ID_NAME0 -/,
  ⟨0x104, 1, 0, 1, 0, 0, 0, 0, 0, 0, 0xFF, 0, [0x49], []⟩ /- SEC_ID_NAME1 -/,
  ⟨0x108, 1, 0, 1, 0, 0, 0, 0, 0, 0, 0xFF0FFFFF, 0, [0x1000096], []⟩ /- SEC_ID_PART -/,
  ⟨0x10C, 2, 4, 1, 0, 0, 0, 0, 0, 0, 0xFFFFFFFF, 0, [0], []⟩ /- SEC_UNIT_IDn -/,
  ⟨0x120, 1, 0, 1, 0, 0, 0, 0, 0, 0, 0xF, 0, [0], []⟩ /- SEC_RST_CAUSE -/,
  ⟨0x124, 1, 0, 1, 0, 0, 0, 0, 0, 3, 0, 0, [0], []⟩ /- SEC_RST_CTL -/,
  ⟨0x128, 1, 0, 1, 0, 0xFFFF, 0, 0, 0, 0x80000000, 0, 0xFFFF, [0x3E8], []⟩ /- SEC_WDOG -/,
  ⟨0x130, 1, 0, 1, 0, 0, 0, 0, 0, 0, 0xFFFFFF3F, 0, [0], []⟩ /- SEC_BOOT_STAT -/,
  ⟨0x138, 1, 0, 1, 0, 0, 0, 0, 0, 0, 0x7F, 0, [0], []⟩ /- SEC_FW_VER -/,
  ⟨0x140, 1, 0, 1, 0, 0, 0, 0, 0, 0, 0x7F, 0, [0], []⟩ /- SEC_ARB_FUSE -/,
  ⟨0x144, 1, 0, 1, 0, 0, 0, 0, 0, 0x7F, 0, 0, [0], []⟩ /- SEC_ARB_ADV -/,
  ⟨0x150, 1, 0, 1, 0, 0, 0, 0, 0, 0, 0xF, 0, [0], []⟩ /- SEC_FUSE_FLAGS -/,
  ⟨0x180, 16, 4, 1, 0, 0, 0, 0, 0, 0, 0xFFFFFFFF, 0, [0], []⟩ /- SEC_VKEY_Dw -/,
  ⟨0x1C0, 16, 4, 1, 0, 0, 0, 0, 0, 0, 0xFFFFFFFF, 0, [0], []⟩ /- SEC_CKEY_Dw -/,
  ⟨0x800, 512, 4, 1, 0, 0, 0, 0, 0, 0, 0xFFFFFFFF, 0, [0], []⟩ /- SEC_DEVKEY -/]

/-- The registers of the WARP page, part 0 (R359, R363, R364). -/
def specs_warp_0 : List RegSpec := [
  ⟨0x100, 1, 0, 1, 0, 0xFFFF, 0, 0, 0, 0, 0, 0xFFFF, [0x400], []⟩ /- WARP_SLICE_LEN -/,
  ⟨0x104, 1, 0, 1, 0, 0xFFFFFFFF, 0, 0, 0, 0, 0, 0xFFFFFFFF, [0xFFFFFFFF], []⟩ /- WARP_SLICE_EN -/,
  ⟨0x108, 2, 4, 1, 0, 0xFFFFFFFF, 0, 0, 0, 0, 0, 0xFFFFFFFF, [0], []⟩ /- WARP_SLICE_OWNn -/,
  ⟨0x110, 1, 0, 1, 0, 0, 0, 0, 0, 0, 0xFFFFFFFF, 0, [0], []⟩ /- WARP_POISON_AVOID -/,
  ⟨0x400, 16, 0x80, 1, 0, 0x13, 0, 0, 0, 0, 0, 3, [0], []⟩ /- WARP_CHc_OWN -/,
  ⟨0x404, 16, 0x80, 1, 0, 0xFFFFFFFF, 0, 0, 0, 0, 0, 0, [0], []⟩ /- WARP_CHc_SUB_LO -/,
  ⟨0x408, 16, 0x80, 1, 0, 0xFFFFFFFF, 0, 0, 0, 0, 0, 0, [0], []⟩ /- WARP_CHc_SUB_HI -/,
  ⟨0x40C, 16, 0x80, 1, 0, 0, 0, 0, 0, 3, 0, 0, [0], []⟩ /- WARP_CHc_SUB_CTL -/,
  ⟨0x410, 16, 0x80, 1, 0, 0, 0, 0, 0, 0, 0xFFFFFF0F, 0, [0], []⟩ /- WARP_CHc_STAT -/,
  ⟨0x414, 16, 0x80, 1, 0, 0xFF, 0, 0, 0, 0, 0, 0xFF, [0], []⟩ /- WARP_CHc_AUTO -/,
  ⟨0x418, 16, 0x80, 1, 0, 0, 0, 0, 0, 0, 0xFFFFFFFF, 0, [0], []⟩ /- WARP_CHc_CORRUPT -/,
  ⟨0x420, 16, 0x80, 1, 0, 0xFFFFFFFF, 0, 0, 0, 0, 0, 0xFFFFFFFF, [0], []⟩ /- WARP_CHc_RING_BASE_LO -/,
  ⟨0x424, 16, 0x80, 1, 0, 0xFF, 0, 0, 0, 0, 0, 0xFF, [0], []⟩ /- WARP_CHc_RING_BASE_HI -/,
  ⟨0x428, 16, 0x80, 1, 0, 0xFFFFFFF, 0, 0, 0, 0, 0, 0xFFFFFFF, [0], []⟩ /- WARP_CHc_RING_STRIDE -/,
  ⟨0x42C, 16, 0x80, 1, 0, 0x11F1F, 0, 0, 0, 0, 0, 0x1F1F, [7], []⟩ /- WARP_CHc_RING_CFG -/,
  ⟨0x430, 16, 0x80, 1, 0, 0, 0, 0, 0, 0, 0xFFFF9F3F, 0, [0], []⟩ /- WARP_CHc_RING_STAT -/,
  ⟨0x434, 16, 0x80, 1, 0, 0, 0, 0, 0, 0x3F, 0, 0, [0], []⟩ /- WARP_CHc_RING_REL -/,
  ⟨0x438, 16, 0x80, 1, 0, 0, 0, 0, 0, 0, 0xFFFFFFFF, 0, [0], []⟩ /- WARP_CHc_RING_DROP -/,
  ⟨0x440, 16, 0x80, 1, 0, 0xFFFFFFFF, 0, 0, 0, 0, 0, 0xFFFFFFFF, [0], []⟩ /- WARP_CHc_MESH_LO -/,
  ⟨0x444, 16, 0x80, 1, 0, 0x3FF, 0, 0, 0, 0, 0, 0x3FF, [0x200], []⟩ /- WARP_CHc_MESH_HI -/]

/-- The registers of the WARP page, part 1 (R359, R363, R364). -/
def specs_warp_1 : List RegSpec := [
  ⟨0x448, 16, 0x80, 1, 0, 0x7F00FF, 0, 0, 0, 0, 0, 0x7F00FF, [0], []⟩ /- WARP_CHc_MESH_N -/,
  ⟨0x44C, 16, 0x80, 1, 0, 0xFFF0FFF, 0, 0, 0, 0, 0, 0xFFF0FFF, [0], []⟩ /- WARP_CHc_SRC_DIM -/,
  ⟨0x450, 16, 0x80, 1, 0, 0xFFF0FFF, 0, 0, 0, 0, 0, 0xFFF0FFF, [0], []⟩ /- WARP_CHc_DST_DIM -/,
  ⟨0x454, 16, 0x80, 1, 0, 0xFFFF0037, 0, 0, 0, 0, 0, 0xFFFF0037, [0], []⟩ /- WARP_CHc_FMT -/,
  ⟨0x458, 16, 0x80, 1, 0, 0, 0, 0, 0, 0, 0xFFFFFFFF, 0, [0], []⟩ /- WARP_CHc_CLIP -/]

/-- The registers of the WARP page (R359, R363, R364). -/
def specs_warp : List RegSpec := specs_warp_0 ++ specs_warp_1

/-- The registers of the CODEC page, part 0 (R359, R363, R364). -/
def specs_codec_0 : List RegSpec := [
  ⟨0x100, 1, 0, 1, 0, 0xFFFF, 0, 0, 0, 0, 0, 0xFFFF, [0x400], []⟩ /- CODEC_SLICE_LEN -/,
  ⟨0x104, 1, 0, 1, 0, 0xFFFFFFFF, 0, 0, 0, 0, 0, 0xFFFFFFFF, [0xFFFFFFFF], []⟩ /- CODEC_SLICE_EN -/,
  ⟨0x108, 2, 4, 1, 0, 0xFFFFFFFF, 0, 0, 0, 0, 0, 0xFFFFFFFF, [0], []⟩ /- CODEC_SLICE_OWNn -/,
  ⟨0x110, 1, 0, 1, 0, 0, 0, 0, 0, 0, 0xFFFFFFFF, 0, [0], []⟩ /- CODEC_POISON_AVOID -/,
  ⟨0x120, 4, 4, 1, 0, 0xFFF0FFF, 0, 0, 0, 0, 0, 0xFFF0FFF, [0x86F0EFF], []⟩ /- CODEC_CODEC_MAXDIMp -/,
  ⟨0x130, 1, 0, 1, 0, 0xFFFF, 0, 0, 0, 0, 0, 0xFFFF, [0x204], []⟩ /- CODEC_CODEC_MINBITS -/,
  ⟨0x400, 16, 0x80, 1, 0, 0x13, 0, 0, 0, 0, 0, 3, [0], []⟩ /- CODEC_CHc_OWN -/,
  ⟨0x404, 16, 0x80, 1, 0, 0xFFFFFFFF, 0, 0, 0, 0, 0, 0, [0], []⟩ /- CODEC_CHc_SUB_LO -/,
  ⟨0x408, 16, 0x80, 1, 0, 0xFFFFFFFF, 0, 0, 0, 0, 0, 0, [0], []⟩ /- CODEC_CHc_SUB_HI -/,
  ⟨0x40C, 16, 0x80, 1, 0, 0, 0, 0, 0, 3, 0, 0, [0], []⟩ /- CODEC_CHc_SUB_CTL -/,
  ⟨0x410, 16, 0x80, 1, 0, 0, 0, 0, 0, 0, 0xFFFFFF0F, 0, [0], []⟩ /- CODEC_CHc_STAT -/,
  ⟨0x414, 16, 0x80, 1, 0, 0xFF, 0, 0, 0, 0, 0, 0xFF, [0], []⟩ /- CODEC_CHc_AUTO -/,
  ⟨0x418, 16, 0x80, 1, 0, 0, 0, 0, 0, 0, 0xFFFFFFFF, 0, [0], []⟩ /- CODEC_CHc_CORRUPT -/,
  ⟨0x420, 16, 0x80, 1, 0, 0xFFFFFFFF, 0, 0, 0, 0, 0, 0xFFFFFFFF, [0], []⟩ /- CODEC_CHc_RING_BASE_LO -/,
  ⟨0x424, 16, 0x80, 1, 0, 0xFF, 0, 0, 0, 0, 0, 0xFF, [0], []⟩ /- CODEC_CHc_RING_BASE_HI -/,
  ⟨0x428, 16, 0x80, 1, 0, 0xFFFFFFF, 0, 0, 0, 0, 0, 0xFFFFFFF, [0], []⟩ /- CODEC_CHc_RING_STRIDE -/,
  ⟨0x42C, 16, 0x80, 1, 0, 0x11F1F, 0, 0, 0, 0, 0, 0x1F1F, [7], []⟩ /- CODEC_CHc_RING_CFG -/,
  ⟨0x430, 16, 0x80, 1, 0, 0, 0, 0, 0, 0, 0xFFFF9F3F, 0, [0], []⟩ /- CODEC_CHc_RING_STAT -/,
  ⟨0x434, 16, 0x80, 1, 0, 0, 0, 0, 0, 0x3F, 0, 0, [0], []⟩ /- CODEC_CHc_RING_REL -/,
  ⟨0x438, 16, 0x80, 1, 0, 0, 0, 0, 0, 0, 0xFFFFFFFF, 0, [0], []⟩ /- CODEC_CHc_RING_DROP -/]

/-- The registers of the CODEC page, part 1 (R359, R363, R364). -/
def specs_codec_1 : List RegSpec := [
  ⟨0x440, 16, 0x80, 1, 0, 0xFFFF3F07, 0, 0, 0, 0, 0, 0xFFFF3F07, [0x1E1C00], []⟩ /- CODEC_CHc_MODE -/,
  ⟨0x444, 16, 0x80, 1, 0, 0xFFF0FFF, 0, 0, 0, 0, 0, 0xFFF0FFF, [0x437077F], []⟩ /- CODEC_CHc_DIM -/]

/-- The registers of the CODEC page (R359, R363, R364). -/
def specs_codec : List RegSpec := specs_codec_0 ++ specs_codec_1

/-- The registers of the TOKEN page, part 0 (R359, R363, R364). -/
def specs_token_0 : List RegSpec := [
  ⟨0x100, 1, 0, 1, 0, 0xFFFF, 0, 0, 0, 0, 0, 0xFFFF, [0x400], []⟩ /- TOKEN_SLICE_LEN -/,
  ⟨0x104, 1, 0, 1, 0, 0xFFFFFFFF, 0, 0, 0, 0, 0, 0xFFFFFFFF, [0xFFFFFFFF], []⟩ /- TOKEN_SLICE_EN -/,
  ⟨0x108, 2, 4, 1, 0, 0xFFFFFFFF, 0, 0, 0, 0, 0, 0xFFFFFFFF, [0], []⟩ /- TOKEN_SLICE_OWNn -/,
  ⟨0x110, 1, 0, 1, 0, 0, 0, 0, 0, 0, 0xFFFFFFFF, 0, [0], []⟩ /- TOKEN_POISON_AVOID -/,
  ⟨0x400, 16, 0x80, 1, 0, 0x13, 0, 0, 0, 0, 0, 3, [0], []⟩ /- TOKEN_CHc_OWN -/,
  ⟨0x404, 16, 0x80, 1, 0, 0xFFFFFFFF, 0, 0, 0, 0, 0, 0, [0], []⟩ /- TOKEN_CHc_SUB_LO -/,
  ⟨0x408, 16, 0x80, 1, 0, 0xFFFFFFFF, 0, 0, 0, 0, 0, 0, [0], []⟩ /- TOKEN_CHc_SUB_HI -/,
  ⟨0x40C, 16, 0x80, 1, 0, 0, 0, 0, 0, 3, 0, 0, [0], []⟩ /- TOKEN_CHc_SUB_CTL -/,
  ⟨0x410, 16, 0x80, 1, 0, 0, 0, 0, 0, 0, 0xFFFFFF0F, 0, [0], []⟩ /- TOKEN_CHc_STAT -/,
  ⟨0x414, 16, 0x80, 1, 0, 0xFF, 0, 0, 0, 0, 0, 0xFF, [0], []⟩ /- TOKEN_CHc_AUTO -/,
  ⟨0x418, 16, 0x80, 1, 0, 0, 0, 0, 0, 0, 0xFFFFFFFF, 0, [0], []⟩ /- TOKEN_CHc_CORRUPT -/,
  ⟨0x420, 16, 0x80, 1, 0, 0xFFFFFFFF, 0, 0, 0, 0, 0, 0xFFFFFFFF, [0], []⟩ /- TOKEN_CHc_RING_BASE_LO -/,
  ⟨0x424, 16, 0x80, 1, 0, 0xFF, 0, 0, 0, 0, 0, 0xFF, [0], []⟩ /- TOKEN_CHc_RING_BASE_HI -/,
  ⟨0x428, 16, 0x80, 1, 0, 0xFFFFFFF, 0, 0, 0, 0, 0, 0xFFFFFFF, [0], []⟩ /- TOKEN_CHc_RING_STRIDE -/,
  ⟨0x42C, 16, 0x80, 1, 0, 0x11F1F, 0, 0, 0, 0, 0, 0x1F1F, [7], []⟩ /- TOKEN_CHc_RING_CFG -/,
  ⟨0x430, 16, 0x80, 1, 0, 0, 0, 0, 0, 0, 0xFFFF9F3F, 0, [0], []⟩ /- TOKEN_CHc_RING_STAT -/,
  ⟨0x434, 16, 0x80, 1, 0, 0, 0, 0, 0, 0x3F, 0, 0, [0], []⟩ /- TOKEN_CHc_RING_REL -/,
  ⟨0x438, 16, 0x80, 1, 0, 0, 0, 0, 0, 0, 0xFFFFFFFF, 0, [0], []⟩ /- TOKEN_CHc_RING_DROP -/,
  ⟨0x440, 16, 0x80, 1, 0, 0xFFFFFFFF, 0, 0, 0, 0, 0, 0xFFFFFFFF, [0], []⟩ /- TOKEN_CHc_NODE_LO -/,
  ⟨0x444, 16, 0x80, 1, 0, 0xFF, 0, 0, 0, 0, 0, 0xFF, [0], []⟩ /- TOKEN_CHc_NODE_HI -/]

/-- The registers of the TOKEN page, part 1 (R359, R363, R364). -/
def specs_token_1 : List RegSpec := [
  ⟨0x448, 16, 0x80, 1, 0, 0xFFFFFFFF, 0, 0, 0, 0, 0, 0xFFFFFFFF, [0], []⟩ /- TOKEN_CHc_EDGE_LO -/,
  ⟨0x44C, 16, 0x80, 1, 0, 0xFF, 0, 0, 0, 0, 0, 0xFF, [0], []⟩ /- TOKEN_CHc_EDGE_HI -/,
  ⟨0x450, 16, 0x80, 1, 0, 0xFFFFFF, 0, 0, 0, 0, 0, 0xFFFFFF, [0], []⟩ /- TOKEN_CHc_DICT_N -/,
  ⟨0x454, 16, 0x80, 1, 0, 0xFFFFFF, 0, 0, 0, 0, 0, 0xFFFFFF, [0], []⟩ /- TOKEN_CHc_DICT_E -/,
  ⟨0x458, 16, 0x80, 1, 0, 0x3FFFF, 0, 0, 0, 0, 0, 0x3FFFF, [0], []⟩ /- TOKEN_CHc_UNK -/,
  ⟨0x45C, 16, 0x80, 1, 0, 0x3FFFF, 0, 0, 0, 0, 0, 0x3FFFF, [0], []⟩ /- TOKEN_CHc_PAD -/,
  ⟨0x460, 16, 0x80, 1, 0, 0xFFFF, 0, 0, 0, 0, 0, 0xFFFF, [0x1FF], []⟩ /- TOKEN_CHc_MAXTOK -/]

/-- The registers of the TOKEN page (R359, R363, R364). -/
def specs_token : List RegSpec := specs_token_0 ++ specs_token_1

/-- The registers of the SDIO page (R372). -/
def specs_sdio : List RegSpec := [
  ⟨0x100, 1, 0, 1, 0, 0, 0, 0, 0, 0, 0x3F, 0, [0], []⟩ /- SDIO_STATUS -/,
  ⟨0x104, 1, 0, 1, 0, 0xFFFE0000, 0, 0, 0, 0, 0, 0, [0x4000000], []⟩ /- SDIO_WIN_BASE_LO -/,
  ⟨0x108, 1, 0, 1, 0, 0xFF, 0, 0, 0, 0, 0, 0, [0x20], []⟩ /- SDIO_WIN_BASE_HI -/,
  ⟨0x110, 1, 0, 1, 0, 0, 0, 0, 0, 0, 0xFF, 0, [0], []⟩ /- SDIO_MBOX_STAT -/,
  ⟨0x114, 1, 0, 1, 0, 0xFFFFFFC0, 0, 0, 0, 0, 0, 0, [0], []⟩ /- SDIO_BULK_BASE_LO -/,
  ⟨0x118, 1, 0, 1, 0, 0xFF, 0, 0, 0, 0, 0, 0, [0], []⟩ /- SDIO_BULK_BASE_HI -/,
  ⟨0x11C, 1, 0, 1, 0, 0xFFFFFC0, 0, 0, 0, 0, 0, 0, [0], []⟩ /- SDIO_BULK_SIZE -/,
  ⟨0x120, 1, 0, 1, 0, 0, 0, 0, 0, 0, 0xFFFFFFF, 0, [0], []⟩ /- SDIO_BULK_WR -/,
  ⟨0x124, 1, 0, 1, 0, 0xFFFFFFF, 0, 0, 0, 0, 0, 0, [0], []⟩ /- SDIO_BULK_RD -/,
  ⟨0x130, 1, 0, 1, 0, 0, 0, 0, 0, 0, 0xFFFFFFFF, 0, [0], []⟩ /- SDIO_ERR_CNT -/,
  ⟨0x134, 1, 0, 1, 0, 0, 0, 0, 0, 1, 0, 0, [0], []⟩ /- SDIO_CNT_CLR -/]

/-- The registers of the XCORE page (R500). -/
def specs_xcore : List RegSpec := [
  ⟨0x100, 1, 0, 1, 0, 0, 0, 0, 0, 0, 0xFFFF0007, 0, [0x4000004], []⟩ /- XCORE_CFG -/,
  ⟨0x104, 1, 0, 1, 0, 0, 0, 0, 0, 0, 0xF0F, 0, [0], []⟩ /- XCORE_RUN -/,
  ⟨0x108, 1, 0, 1, 0, 0xFFFF000F, 0, 0, 0, 0, 0, 0, [0], []⟩ /- XCORE_FW_STAT -/,
  ⟨0x10C, 1, 0, 1, 0, 0, 0, 0, 0, 0, 0xFFFFFFFF, 0, [0], []⟩ /- XCORE_ECC -/,
  ⟨0x110, 1, 0, 1, 0, 0, 0, 0, 0, 1, 0, 0, [0], []⟩ /- XCORE_CNT_CLR -/]

/-- The table of a page type. -/
def regSpecs : PageKind → List RegSpec
  | .tile => specs_tile
  | .seq => specs_seq
  | .lane => specs_lane
  | .vec => specs_vec
  | .spad => specs_spad
  | .strm0 => specs_strm
  | .strm1 => specs_strm
  | .scale => specs_scale
  | .stats => specs_stats
  | .cam => specs_cam
  | .isp => specs_isp
  | .tap => specs_tap
  | .hub => specs_hub
  | .hubDdr => specs_hubDdr
  | .hubLlc => specs_hubLlc
  | .part => specs_part
  | .clk => specs_clk
  | .pwr => specs_pwr
  | .thm => specs_thm
  | .snt => specs_snt
  | .fum => specs_fum
  | .cal => specs_cal
  | .sec => specs_sec
  | .warp => specs_warp
  | .codec => specs_codec
  | .token => specs_token
  | .sdio => specs_sdio
  | .xcore => specs_xcore

/-- The index of offset `o` within a register's row, if the row holds that offset. -/
def RegSpec.index (r : RegSpec) (o : Nat) : Option Nat :=
  if o < r.off then none else
  let d := o - r.off
  let i := if r.st1 = 0 then 0 else min (d / r.st1) (r.n1 - 1)
  let e := d - i * r.st1
  let j := if r.st2 = 0 then 0 else min (e / r.st2) (r.n2 - 1)
  if e = j * r.st2 then some (i * r.n2 + j) else none

/-- The row and index of an offset in a list of rows. -/
def findSpec : List RegSpec → Nat → Option (RegSpec × Nat)
  | [], _ => none
  | r :: l, o => match r.index o with
    | some i => some (r, i)
    | none => findSpec l o

/-- The row and index of an offset of a page. -/
def regSpec (k : PageKind) (o : Nat) : Option (RegSpec × Nat) := findSpec (regSpecs k) o

/-- The type code of a page type (R36). -/
def kindCode : PageKind → Nat
  | .tile => 0x10 | .seq => 0x11 | .lane => 0x12 | .vec => 0x13 | .spad => 0x14 | .strm0 => 0x15 | .strm1 => 0x16
  | .scale => 0x17 | .stats => 0x18 | .cam => 0x20 | .isp => 0x21 | .tap => 0x22 | .hub => 0x30 | .hubDdr => 0x31
  | .hubLlc => 0x32 | .part => 0x40 | .clk => 0x50 | .pwr => 0x51 | .thm => 0x52 | .snt => 0x53 | .fum => 0x54
  | .cal => 0x55 | .sec => 0x56 | .warp => 0x57 | .codec => 0x58 | .token => 0x59 | .sdio => 0x5A | .xcore => 0x5B

/-- A page with no function to switch: CTRL.EN reads 1 and STATE reads ON (R50). -/
def kindAlwaysOn : PageKind → Bool
  | .part | .hub | .clk | .pwr | .thm | .snt | .fum | .sec => true
  | _ => false

/-- How many instances a page type has (R35, R36). -/
def kindCount : PageKind → Nat
  | .tile | .seq | .lane | .vec | .spad | .strm0 | .strm1 | .scale | .stats => 96
  | .cam | .isp | .tap => 12
  | .hub | .hubLlc => 2
  | .hubDdr => 8
  | .part | .sdio => 4
  | _ => 1

/-- The constant part of a register's value after reset (R11, R39, R41, R44, R53): what a plain reset value, or an 'S'
entry with no snapshot, gives. -/
def resetWord (p : PageKey) (o : Nat) : Word :=
  if o = 0x000 then BitVec.ofNat 32 (kindCode p.kind * 0x10000 + p.inst)
  else if o = 0x004 then 0x0100
  else if o < 0x100 then 0
  else match regSpec p.kind o with
    | none => 0
    | some (r, i) =>
      let l := if p.inst = 0 && !r.resets0.isEmpty then r.resets0 else r.resets
      BitVec.ofNat 32 (l.getD i (l.getLastD 0))

end Sys2Proof.Machine
end

