-- ==== Sys2Proof/Machine/State.lean ====
section
/-! DEFINITION. The state of the OZ96, plain data, and its value right after reset. Registers live in one table keyed
by page and offset (RegTable gives their reset values); what no register shows has fields of its own, grouped by the
unit that holds it. Tables keyed by tile, port or domain list only what differs from the reset value. -/

namespace Sys2Proof.Machine

/-! ## Pages, groups, links and requests (01, 02) -/

/-- The key of one register: its page and its offset. -/
structure RegKey where
  pg : PageKey
  off : Nat
  deriving DecidableEq, Repr

/-- A value staged for a register: the bits it holds and which bits they are (R55, R65). -/
structure Staged where
  pg : PageKey
  off : Nat
  val : Word
  mask : Word
  deriving DecidableEq, Repr

/-- An open commit group of a partition (R54). -/
structure Group where
  part : PartId
  gid : Fin 16
  event : Nat
  arg : Nat
  reopen : Bool
  members : List PageKey
  deriving DecidableEq, Repr

/-- A commit under way: the event was recognised and some dies have not applied yet (R59). -/
structure CommitRun where
  /-- Every member page of the group. -/
  members : List PageKey
  /-- Values that wait on each die for its message. -/
  waiting : List (Die × List PageKey × List Staged)
  reopen : Bool
  /-- A member could not be reached: the group shows PARTIAL (R60). -/
  isPartial : Bool
  /-- JOB_END groups: a SCALE page waits for its tile's frame step (R59). -/
  jobEnd : Bool
  /-- The shadow group of this camera port, which no TXN_STAT shows (R65). -/
  shadow : Bool
  deriving DecidableEq, Repr

/-- A record on its way to Fumarole, or in it (R491). The fields OPTIME, CYCLE and SEQ are taken when it enters. -/
structure FumRec where
  code : Nat
  source : Nat
  optime : Nat
  cycle : Nat
  seq : Nat
  d0 : Word
  d1 : Word
  d2 : Word
  d3 : Word
  deriving DecidableEq, Repr

/-- Where an outstanding request is (R23 to R26). -/
inductive ReqPlace where
  /-- Held at the sending die's port of link `k`, which is not UP. -/
  | held (k : LinkId)
  /-- Sent; its target has not answered it. -/
  | sent
  /-- Served; its completion is on the way back. -/
  | answered
  deriving DecidableEq, Repr

/-- A request its requester holds until the completion arrives (R24). -/
structure Outstanding where
  id : Nat
  who : Requester
  req : Req
  /-- The links of the path it took, in order. -/
  path : List LinkId
  /-- The direct link between its two dies when the path goes around it (R25). -/
  around : Option LinkId
  place : ReqPlace
  /-- The completion: the class and detail of its error, if it has one, and the data read. -/
  err : Option (Nat × Nat)
  data : List Byte
  /-- The requester's epoch when it was issued, for tile engines (R187). -/
  epoch : Nat
  /-- How often the request was issued. -/
  issues : Nat
  /-- It is for a buffer of a slot ring that its command names (R247). -/
  slot : Bool := false
  /-- The first request of the one it is part of at a hub, by number (R260, R292). -/
  burst : Nat := 0
  /-- What its requester waits on, as its response tells, by the causes of R262; and cycles charged to it so far (R263). -/
  cause : Nat := 2
  waited : Nat := 0
  deriving DecidableEq, Repr

/-- What a link holds beside its HUB_LINK_STAT word (R21 to R25). -/
structure LinkSt where
  /-- Consecutive failed retrains or trainings; 3 once the link is DOWN for good (R22, R26). -/
  fails : Nat := 0
  /-- Replays counted in the current interval (R21). -/
  replays : Nat := 0
  /-- Microsecond at which the training in progress began (R26). -/
  trainAt : Nat := 0
  /-- FABRIC cycle at which the interval grid's current interval began (R21). -/
  gridAt : Nat := 0
  /-- Packets sent and not yet acknowledged, a count (R21). -/
  unacked : Nat := 0
  /-- Packets received with a bad CRC and not yet replayed, a count (R21). -/
  toReplay : Nat := 0
  /-- The partition tag the link served last (R19). -/
  lastTag : Nat := 3
  deriving DecidableEq, Repr

/-! ## Tiles (03 to 08) -/

/-- A step of a slot buffer a command took (R164, R165): on which tile's ring, and which buffer. -/
structure SlotStep where
  tile : TileId
  ring : Nat
  buf : Nat
  /-- 0: EMPTY to PENDING; 1: FULL to HELD; 2: read with CONSUME = 0, no state change. -/
  kind : Nat
  /-- Tags the buffer takes when it becomes FULL (R166). -/
  wide : Bool
  invalid : Bool
  deriving DecidableEq, Repr

/-- Where a command of a queue stands. -/
inductive Phase where
  /-- Not dispatched. -/
  | queued
  /-- Dispatched and not complete; for a COMMIT, at the head of its queue. -/
  | running
  /-- Dispatched and complete, not committed. -/
  | complete
  deriving DecidableEq, Repr

/-- A staged statistics value of one scale entry (R128). -/
structure StagedStat where
  entry : Nat
  max : Nat
  sats : Nat
  /-- RANGE and ADAPTIVE as read at dispatch (R121, R411), and whether the output is BF16. -/
  range : Nat
  adaptive : Bool
  bf : Bool
  deriving DecidableEq, Repr

/-- An armed persistent channel's operands (R270). -/
structure ChanOps where
  src : Nat
  dst : Nat
  ofs : Word
  consume : Bool
  sdesc : List Word
  deriving DecidableEq, Repr

/-- What a persistent MOVE does at its commit (R270, R273): arm descriptor `d`'s channel, or write its shadow. -/
structure ArmReq where
  rearm : Bool
  d : Nat
  ops : ChanOps
  deriving DecidableEq, Repr

/-- One entry of a command queue (R168) with what it holds until commit (R181). -/
structure QEntry where
  w0 : Word
  w1 : Word
  w2 : Word
  w3 : Word
  /-- Program-order number (R209), 16 bits. -/
  num : Nat
  phase : Phase := .queued
  /-- To be dispatched in the wide form (R134). -/
  wide : Bool := false
  steps : List SlotStep := []
  stats : List StagedStat := []
  /-- Elements written, and saturations in channels that are not adaptive (R134). -/
  elems : Nat := 0
  sats : Nat := 0
  /-- The output's effective limit, `none` when the command is not tested (R133, R134). -/
  limit : Option Nat := none
  /-- First scale entry of the output and whether its range is non-empty (R139, R144). -/
  outBase : Option Nat := none
  /-- Residue record (R90). -/
  compared : Nat := 0
  mismatch : Nat := 0
  skipped : Nat := 0
  vecFlags : Nat := 0
  mode : Nat := 0
  perlane : Bool := false
  /-- The output descriptor's handle and CRIT, for evidence and notices (R136, R412). -/
  outHandle : Nat := 0xFFFF
  outCrit : Bool := false
  /-- Elements clipped on the way to memory, and whether a source was marked INVALID (R136, R412). -/
  clipped : Nat := 0
  srcInvalid : Bool := false
  /-- Numbers of the STREAMs that wrote the accumulator rows the command read (R180). -/
  accRead : List Nat := []
  /-- Scale entries whose channel saturated in the run that was killed for a wide re-run (R134). -/
  seen : List Nat := []
  /-- Cycles waited under interlock, and the detail of the violation the wait replaces (R212). -/
  waited : Nat := 0
  waitDet : Nat := 0
  /-- It has passed every check but the last and waits at that one, which alone is made again (R519). -/
  passed : Bool := false
  /-- An arming MOVE or REARM (R270, R273). -/
  arm : Option ArmReq := none
  deriving DecidableEq, Repr

/-- One accumulator row (R79 to R83, R143, R209). -/
structure AccRow where
  /-- 32 lane values: 40-bit two's complement, or FP32 in the low 32 bits. -/
  vals : List (BitVec 40)
  chk : BitVec 40
  v : Bool
  ovf : Bool
  tol : Nat
  /-- Writer tag: a program-order number, or `none` for OLD. -/
  tag : Option Nat
  /-- The row holds FP32 values (R79). -/
  fp : Bool
  /-- Lanes that have saturated since the row was last written with ACC_MODE = INIT (R81, R119). -/
  sat : List Bool := []
  /-- In per-lane mode, the lane whose computation the checksum repeats (R94). -/
  chkLane : Option Nat := none
  deriving DecidableEq, Repr

/-- A weight plane (R71, R74, R86): type code of LANE_STATUS.FMT, lane columns after zero-point subtraction. -/
structure Plane where
  valid : Bool := false
  fmt : Nat := 1
  /-- Written by a LOADW since the last commit point (R83). -/
  fresh : Bool := false
  /-- 32 columns; integers, or BF16 patterns. -/
  cols : List (List Int) := []
  deriving DecidableEq, Repr

/-- A LOADW dispatched whose plane is not yet valid (R75). -/
structure LoadRun where
  num : Nat
  plane : Nat
  fmt : Nat
  cols : List (List Int)
  deriving DecidableEq, Repr

/-- What one output channel's scale entry held at dispatch (R121). -/
structure ChanCfg where
  entry : Option Nat
  zp : Int
  exp : Int
  adaptive : Bool
  bias : Nat
  range : Nat
  deriving DecidableEq, Repr

/-- A STREAM dispatched with rows left (R72, R92): everything fixed at dispatch. -/
structure LaneRun where
  num : Nat
  /-- 0 INT4, 1 INT8, 2 INT16×INT8, 3 BF16 (R71, R107). -/
  mode : Nat
  perlane : Bool
  kh : Nat
  kw : Nat
  sw : Nat
  dw : Nat
  rows : Nat
  next : Nat
  /-- Rows that have entered P1. -/
  entered : Nat
  bank : Nat
  base : Nat
  init : Bool
  drain : Bool
  plane : Nat
  /-- First byte of the streamed rows and of the output, byte sizes of a row. -/
  inAddr : Nat
  inRow : Nat
  inStride : Nat
  inType : Nat
  inSlot : Option (Nat × Nat)
  outAddr : Nat
  outRow : Nat
  outType : Nat
  outSlot : Option (Nat × Nat)
  outShift : Nat
  /-- Zero points and exponents of the inner indices. -/
  zps : List Int
  exps : List Int
  outs : List ChanCfg
  deriving DecidableEq, Repr

/-- A vector-unit command dispatched with rows left (R96). -/
structure VecRun where
  num : Nat
  op : Nat
  rows : Nat
  next : Nat
  fromAcc : Bool
  bank : Nat
  base : Nat
  aAddr : Nat
  aType : Nat
  aSlot : Option (Nat × Nat)
  bAddr : Nat
  bType : Nat
  bSlot : Option (Nat × Nat)
  oAddr : Nat
  oType : Nat
  oSlot : Option (Nat × Nat)
  imm : Nat
  tbl : Nat
  row0 : Nat
  outShift : Nat
  /-- The descriptors of the operands, by which their rows are placed (R156). -/
  aDesc : List Word
  bDesc : List Word
  oDesc : List Word
  /-- What each channel of the output takes, as read at dispatch (R121). -/
  outs : List ChanCfg
  deriving DecidableEq, Repr

/-- Frame and lifetime statistics of a scale entry (R128, R131). -/
structure StatRec where
  amax : Nat := 0
  satcnt : Nat := 0
  fmax : Nat := 0
  lowrun : Nat := 0
  fsat : Bool := false
  deriving DecidableEq, Repr

/-- A level of the loop stack (R198). -/
structure LoopEnt where
  pc : Nat
  last : Nat
  n : Nat
  c : Nat
  deriving DecidableEq, Repr

/-- One side of a stream command: where its first element lies, its element type and its buffer (R255, R256). -/
structure Opd where
  d : List Word
  tile : TileId
  /-- It lies in the engine's own scratchpad. -/
  own : Bool
  /-- Device address of the first byte, offset included. -/
  start : Nat
  ty : Nat
  /-- The buffer in use: ring and index. -/
  ring : Option (Nat × Nat)
  wide : Bool
  invalid : Bool
  deriving DecidableEq, Repr

/-- Where an output element's value comes from: an element of memory by nibble address, a pattern of the source's type,
or a pattern of the output's type (R157, R256). -/
inductive SrcEl where
  | mem (nib : Nat)
  | src (v : Nat)
  | dst (v : Nat)
  deriving DecidableEq, Repr

/-- A line of an output that has not been written: its number, each element's channel, nibble address and source, and the
source lines that have not come (R258). -/
structure DstLine where
  line : Nat
  els : List (Nat × Nat × SrcEl)
  needs : List Nat
  deriving DecidableEq, Repr

/-- The indices a GATHER reads before its table: the index tensor, the first position and how many (R177). -/
structure IdxRun where
  ids : Opd
  first : Nat
  count : Nat
  deriving DecidableEq, Repr

/-- A stream command, or a channel's block, that has dispatched and has lines to read or to write (R256 to R258, R271). -/
structure StrmRun where
  num : Nat
  /-- The channel slot whose block it is; none for a command. -/
  chan : Option Nat
  src : Opd
  dst : Opd
  /-- What the output's channels take, as read at dispatch (R121). -/
  outs : List ChanCfg := []
  idx : Option IdxRun := none
  /-- Source lines still to be read, in order. -/
  reads : List Nat := []
  /-- Reads under way: request and line. -/
  asked : List (Nat × Nat) := []
  /-- Lines that a SEND has to deliver (R276). -/
  awaits : List Nat := []
  /-- Lines that have come. -/
  got : List (Nat × List Byte) := []
  lines : List DstLine := []
  /-- Writes that are not acknowledged, by request. -/
  acks : List Nat := []
  /-- Lines in one request to a hub (R255, R260). -/
  burst : Nat := 1
  /-- Elements clipped on the way to memory (R136); a source was INVALID or held a poison line (R166, R345); an index was out
  of range (R177). -/
  clipped : Nat := 0
  invalid : Bool := false
  oor : Bool := false
  deriving DecidableEq, Repr

/-- What a stream engine is carrying out, oldest first, and whose turn to read was last: 0 the command's, k + 1 channel
k's (R258, R272). -/
structure StrmSt where
  runs : List StrmRun := []
  turn : Nat := 0
  deriving DecidableEq, Repr

/-- A channel slot of a stream engine (R270 to R274). -/
structure StrmChan where
  armed : Bool := false
  idle : Bool := false
  d : Nat := 0
  ops : Option ChanOps := none
  shadow : Option ChanOps := none
  block : Nat := 0
  /-- A block is in progress, with the buffer steps it took (R271). -/
  busy : Bool := false
  steps : List SlotStep := []
  deriving DecidableEq, Repr

/-- A multicast SEND or RECV that has dispatched (R275 to R279). A RECV stays until it commits, and a SEND until the RECVs of
all its receivers have. -/
structure McRun where
  num : Nat
  send : Bool
  tag : Nat
  /-- SEND: receivers still in the group. RECV: the sender. -/
  tiles : List TileId
  /-- SEND: receivers that read by unicast (R277, R279). -/
  dropped : List TileId := []
  /-- SEND: receivers whose RECV has paired. -/
  paired : List TileId := []
  /-- RECV: the SEND it has paired with, by engine and number (R276). -/
  pair : Option (StrmId × Nat) := none
  /-- SEND: lines it has not sent, in order, and how many it has (R275). -/
  todo : List Nat := []
  sent : Nat := 0
  /-- RECV: lines delivered to it that it has not written; it grants 32 credits less these (R277). -/
  unread : Nat := 0
  /-- SEND: it has completed; and the receivers whose RECV has committed. -/
  ended : Bool := false
  settled : List TileId := []
  deriving DecidableEq, Repr

/-- A kill under way (R184 to R187). -/
structure KillRun where
  engines : List Engine
  /-- Cycles the kill takes: 93, or 93 + D (R186). -/
  cycles : Nat
  /-- What follows it. -/
  halts : Bool
  deriving DecidableEq, Repr

/-- What a job is to one of its tiles (R388 to R394). -/
structure TileJob where
  /-- The job's number in the table of jobs; none for a Geyser patch (R422). -/
  jid : Option Nat
  jobId : Nat
  part : PartId
  safe : Bool
  barMask : Nat
  /-- It has faulted or is being aborted: the tile dispatches nothing further (R185). -/
  faulted : Bool := false
  deriving DecidableEq, Repr

/-- The state of a tile that no register shows. -/
structure Tile where
  lane : List QEntry := []
  vec : List QEntry := []
  s0 : List QEntry := []
  s1 : List QEntry := []
  job : Option TileJob := none
  kill : Option KillRun := none
  /-- Epoch of each stream engine's requests (R184). -/
  epoch0 : Nat := 0
  epoch1 : Nat := 0
  /-- A kill has completed while FREEZE was set: nothing dispatches until it is cleared (R392, R393). -/
  hold : Bool := false
  /-- A command has faulted with no job on the tile: it dispatches nothing further (R185; log 92). -/
  stopped : Bool := false
  /-- HALT has issued: open spans reach a commit point (R179, R207). -/
  haltFlush : Bool := false
  /-- A frame step runs: entries whose outcome waits for its last cycle (R140, R141). -/
  frameStep : Bool := false
  /-- What the frame step will write in its last cycle: entry, EXP, LOWRUN, and 0 UP, 1 DOWN, 2 AT_LIMIT, 3 no log. -/
  frameOut : List (Nat × Int × Nat × Nat) := []
  /-- Entries the last frame step changed, with the adapted EXP, while the JOB_END group of that frame may still apply
  (R141); and that frame: its job's number and SCALE_JOB_CNT (R144). -/
  adapted : List (Nat × Int) := []
  frameOf : Option (Nat × Nat) := none
  /-- Residue records sent in the job, modulo 2^16 (R410). -/
  resSent : Nat := 0
  /-- Microsecond of the last heartbeat (R410). -/
  hbAt : Nat := 0
  -- lane engine
  acc : Tab (Nat × Nat) AccRow := []
  undo : Tab (Nat × Nat) AccRow := []
  planes0 : Plane := {}
  planes1 : Plane := {}
  active : Nat := 0
  committedActive : Nat := 0
  loads : List LoadRun := []
  laneRuns : List LaneRun := []
  -- vector unit
  vecRun : Option VecRun := none
  held : List Word := []
  heldCommitted : List Word := []
  /-- Table writes that wait for a command, oldest first: offset, word, and the request that completes with it (R102). -/
  lutHeld : List (Nat × Word × Option Nat) := []
  -- statistics
  stats : Tab Nat StatRec := []
  /-- First entries of the tensors re-run wide in the current frame (R139). -/
  wideFrame : List Nat := []
  -- descriptor store
  descs : List (Nat × List Word) := []
  descPend : List Nat := []
  -- sequencer
  loops : List LoopEnt := []
  nextPc : Nat := 0
  nextNum : Nat := 0
  imemStaged : List (Nat × Word) := []
  /-- The numbers of the COMMITs a FENCE with WAITC waits for (R206). -/
  fenceWait : List Nat := []
  /-- HALT has issued and DONE has not been entered (R207). -/
  haltPc : Option Nat := none
  -- scratchpad
  /-- The cycle of the accesses in `busUse`: rank of the path and bank of each (R85, R100, R245). -/
  busAt : Nat := 0
  busUse : List (Nat × Nat) := []
  /-- The banks have been zeroed since the domain powered up or the page was soft reset (R250). -/
  spadZeroed : Bool := false
  -- streams
  str0 : StrmSt := {}
  str1 : StrmSt := {}
  chans0 : List StrmChan := [{}, {}, {}, {}]
  chans1 : List StrmChan := [{}, {}, {}, {}]
  /-- Persistent MOVEs that have committed and whose effect on the channels is due in the same cycle (R270, R273). -/
  arm0 : List ArmReq := []
  arm1 : List ArmReq := []
  mc0 : List McRun := []
  mc1 : List McRun := []
  deriving DecidableEq, Repr

/-- A step of a ring that another tile's stream command waits for at the ring's tile (R259). -/
structure RemoteStep where
  ringTile : TileId
  ring : Nat
  tile : TileId
  eng : StrmId
  num : Nat
  write : Bool
  consume : Bool
  /-- The step the ring tile has taken for it. -/
  got : Option SlotStep
  deriving DecidableEq, Repr

/-- The kinds of record Caldera's intake takes (R409). -/
inductive EvKind where
  | residue | adapt | notice | heartbeat
  deriving DecidableEq, Repr

/-- One record for Caldera (R90, R144, R409 to R412): its kind, the sending tile, the job, and its fields in the order
the rule of its kind gives them. -/
structure Evidence where
  kind : EvKind
  tile : TileId
  part : PartId
  job : Nat
  /-- The model's number of the job; none for a Geyser patch and outside a job. -/
  jid : Option Nat
  safe : Bool
  data : List Nat
  deriving DecidableEq, Repr

/-! ## Hubs (09) -/

/-- A valid line of a hub's LLC (R293, R294): its line number (device address over 64) and its way. -/
structure LlcLine where
  line : Nat
  way : Nat
  dirty : Bool
  deriving DecidableEq, Repr

/-- A request for one line that has reached a hub (R298 to R301). -/
structure HubReq where
  /-- The outstanding request it belongs to; none for a write-back. -/
  id : Option Nat
  who : Requester
  part : PartId
  safe : Bool
  /-- 0 READ, 1 WRITE, 2 REMOTE (R298). -/
  cls : Nat
  write : Bool
  addr : Nat
  len : Nat
  data : List Byte
  /-- It has missed the LLC, or bypasses it: its server is the subchannel. -/
  atDdr : Bool
  /-- A DDR read is under way for it (R288). -/
  reading : Bool
  /-- It has been counted in HUB_BW_HELDp (R301). -/
  counted : Bool
  /-- It arrived while its subchannel or way was not in service: a TURNING_OFF does not drain it (R315). -/
  late : Bool
  /-- The request it is part of, where a stream engine issued several lines as one (R292). -/
  burst : Nat := 0
  /-- For a write-back of a line that stays until it is written: the line's way (R296, R322). -/
  way : Option Nat := none
  deriving DecidableEq, Repr

/-- A subchannel's settings, as a snapshot or the retention area keeps them (R314, R315): its page, HUB_MEM_CFG, the lane
registers and HUB_DDR_OSC. -/
structure TrainRec where
  page : Nat
  cfg : Word
  lanes : List Word
  osc : Word
  /-- What the manufacturer and revision registers of its devices read (R314). -/
  devs : Nat := 0
  deriving DecidableEq, Repr

/-- What a subchannel holds beside its page's registers (R288 to R291, R309 to R315). -/
structure SubSt where
  /-- Open row of each bank, and activates since the last RFM, by rank times 32 plus bank. -/
  rows : Tab Nat Nat := []
  acts : Tab Nat Nat := []
  /-- FABRIC cycle of each rank's last refresh, and whether it was a same-bank refresh. -/
  refs : Tab Nat (Nat × Bool) := []
  /-- Lines corrected and not yet written back. -/
  fix : List Nat := []
  /-- Next line of the patrol scrub. -/
  scrub : Nat := 0
  /-- Corrections of each second that has not ended, by its number, and the number of the oldest (R289). -/
  rises : Tab Nat Nat := []
  riseAt : Nat := 0
  /-- Consecutive calibrations that moved no lane by more than one step (R311). -/
  quiet : Nat := 0
  /-- Microsecond of the last calibration, and the rank the next one is for (R310). -/
  calAt : Nat := 0
  calRank : Nat := 0
  /-- A lane moved beyond its limit: the next initialisation trains in full (R311). -/
  retrain : Bool := false
  /-- The settings held while its devices are in self-refresh, with HUB_MEM_CFG as it was when they entered; none when they
  are not in it (R313, R315). -/
  selfRef : Option TrainRec := none
  /-- What its last TURNING_ON found in the configuration: 0 nothing, 1 a fault of the HUB page's, 2 of its own number. -/
  check : Nat := 0
  /-- It has reached ON since reset (R318). -/
  up : Bool := false
  deriving DecidableEq, Repr

/-- The wheel and the shares a server uses in its current period (R299, R300, R303). -/
structure Budgets where
  wheel : Word := 0x12041204
  shares : List Word := [0x101010, 0, 0, 0]
  deriving DecidableEq, Repr

/-- What a hub holds beside its pages' registers. Servers: 0 to 7 the slices, 8 to 11 the subchannels. -/
structure HubSt where
  lines : List LlcLine := []
  /-- Lines with an uncorrectable error, until they are rewritten (R297). -/
  bad : List Nat := []
  reqs : List HubReq := []
  /-- Copies in force, by server (R303). -/
  force : Tab Nat Budgets := []
  /-- Positions used in the current period, by server, class and partition (R301). -/
  used : Tab (Nat × Nat × Nat) Nat := []
  /-- Partition served last, by server and class (R301). -/
  last : Tab (Nat × Nat) Nat := []
  /-- The request, of several lines, that a server's last position of a class was for (R292). -/
  lastBurst : Tab (Nat × Nat) Nat := []
  /-- Positions of the current period that have passed, by server (R299). -/
  pos : Tab Nat Nat := []
  /-- Positions used and budgets of the periods that ended in the current 1 ms, by kind of server (0 slices,
  1 subchannels), class and partition (R318). -/
  loadUsed : Tab (Nat × Nat × Nat) Nat := []
  loadRoom : Tab (Nat × Nat × Nat) Nat := []
  /-- LOAD of the last complete 1 ms, likewise. -/
  load : Tab (Nat × Nat × Nat) Nat := []
  /-- The number of the 1 ms interval that has not ended (R318). -/
  loadAt : Nat := 0
  /-- LLC hits and misses by partition (R321). -/
  hits : Tab Nat Nat := []
  misses : Tab Nat Nat := []
  /-- Ways a flush has named, and those it invalidates (R322). -/
  flush : Nat := 0
  flushInv : Nat := 0
  deriving DecidableEq, Repr

/-! ## Jobs (11) -/

/-- An entry of a mark budget table (R381). -/
structure MarkBudget where
  mark : Nat
  deadline : Nat
  deriving DecidableEq, Repr

/-- Where a job stands (R383 to R397). -/
inductive JobStage where
  /-- In the partition's queue, not released. -/
  | queued
  /-- Released, waiting for placement. -/
  | released
  /-- Placed; the firmware loads its tiles. -/
  | loading
  | running
  /-- Pre-empted: its tiles are being saved, or are another job's. -/
  | preempted
  /-- Its tiles are free again and the firmware restores it. -/
  | restoring
  /-- It has faulted, missed or been cancelled; its tiles are being left. -/
  | ending
  deriving DecidableEq, Repr

/-- A job from its submission to its completion record. -/
structure JobRun where
  /-- The model's own number of the job, in order of submission (log 11). -/
  jid : Nat
  part : PartId
  /-- The sixteen words of its descriptor, and its mark budgets. -/
  words : List Word
  marks : List MarkBudget
  /-- The fallback's, held in firmware SRAM with its load list; empty with no fallback (R383). -/
  fbWords : List Word := []
  fbMarks : List MarkBudget := []
  fbLoad : List Word := []
  /-- The load list, where it is held in firmware SRAM: for a fallback. -/
  load : List Word := []
  isFb : Bool := false
  stage : JobStage := .queued
  /-- Its trigger has come (R385). -/
  trig : Bool := false
  /-- Order of release, and of start. -/
  relNo : Nat := 0
  startNo : Nat := 0
  /-- Partition counter at release (R388). -/
  start : Nat := 0
  /-- Entry of the completion ring reserved for it (R385), and number of the frame window it was released in (R405). -/
  entry : Nat := 0
  winNo : Nat := 0
  tiles : List TileId := []
  /-- Tiles it has left (R389), and tiles that held its weight set when it was placed (R387). -/
  left : List TileId := []
  resident : List TileId := []
  /-- Tiles of the aborted job a fallback takes first (R397). -/
  prefer : List TileId := []
  /-- Marks committed, by mark and tile (R395). -/
  reached : List (Nat × TileId) := []
  /-- STATUS of the completion record (R390), and its other fields. -/
  status : Nat := 0
  missed : Nat := 0
  wide : Bool := false
  wasPreempted : Bool := false
  cause : Option Nat := none
  causeTile : Nat := 0x7F
  /-- Its barrier counts while it is pre-empted (R267). -/
  bars : List (Nat × Nat) := []
  /-- No fallback follows its abort (R398). -/
  noFallback : Bool := false
  deriving DecidableEq, Repr

/-- A tile's context in its save area (R392). The bytes of the control block have no layout in the spec; the model keeps
what they stand for (log 12). -/
structure SavedCtx where
  tile : TileId
  /-- Address of the save area. -/
  addr : Nat
  regs : List (RegKey × Word)
  ctx : Tile
  banks : Nat
  deriving DecidableEq, Repr

/-- An open frame window: the counter value at which it began, its length and its reserve (R398). -/
structure FrameWin where
  start : Nat
  len : Nat
  rsv : Nat
  /-- Its reserve has begun and running jobs have been aborted. -/
  reserved : Bool := false
  deriving DecidableEq, Repr

/-- A completion ring: the next entry, and the entries reserved, oldest first, with whether each has been written
(R385, R390). -/
structure CplRing where
  next : Nat := 0
  held : List (Nat × Bool) := []
  deriving DecidableEq, Repr

/-! ## Cameras, rings and shared engines (10) -/

/-- A sample of a ring from its start to its status record (R338 to R343). -/
structure Sample where
  seq : Nat
  /-- Its body has been written; before that it holds its buffer. -/
  ready : Bool
  /-- Cause of a corrupt sample by R344; 0 while it is valid. -/
  cause : Nat
  flags : Nat
  info : Nat
  /-- Bytes of its extent. -/
  ext : Nat
  deriving DecidableEq, Repr

/-- An output ring (R338 to R341). -/
structure RingSt where
  /-- Geometry in force (R340). -/
  base : Nat := 0
  stride : Nat := 0
  nbuf : Nat := 0
  /-- RING_CFG.ON as last seen. -/
  on : Bool := false
  /-- Number of the next sample, modulo 2^32. -/
  seq : Nat := 0
  /-- Buffers taken and not released, oldest first. -/
  held : Nat := 0
  /-- Samples whose record has not been written, oldest first. -/
  samples : List Sample := []
  /-- Valid positions of the open batch whose records have been written. -/
  mask : Nat := 0
  /-- Batches whose last record has been written and not acknowledged (R341). -/
  acks : Nat := 0
  /-- Its producer has stopped with a batch open (R346). -/
  closing : Bool := false
  deriving DecidableEq, Repr

/-- Where TURNING_ON of a CAM page stands (R329). -/
inductive CamPhase where
  | none | pinTest | pwrDelay | startCheck | waitVs
  deriving DecidableEq, Repr

/-- A camera port (R325 to R332). -/
structure CamSt where
  phase : CamPhase := .none
  /-- Microsecond its phase began. -/
  since : Nat := 0
  /-- A frame is being received, since this microsecond. -/
  frame : Option Nat := none
  /-- First corrupt cause of that frame; 0 for none. -/
  cause : Nat := 0
  /-- Frames past FRAME_END whose FRAME_DONE has not come (R327). -/
  ended : Nat := 0
  deriving DecidableEq, Repr

/-- A work entry of a channel (R350, R351): input address, its bytes, SRC_INVALID, INFO of the source record, and the
ring whose buffer it releases when read. -/
structure WorkEnt where
  addr : Nat
  bytes : Nat
  invalid : Bool
  info : Nat
  src : Option RingId
  deriving DecidableEq, Repr

/-- A channel of a shared engine. -/
structure EngChan where
  queue : List WorkEnt := []
  /-- Auto-chained samples for which the queue has no room yet (R351). -/
  wait : List WorkEnt := []
  /-- Access units, or source pictures, since the last IDR, oldest first (R354, R355). -/
  refs : List (List Byte) := []
  /-- The reference is corrupt or absent (R355). -/
  refBad : Bool := true
  /-- Pictures encoded (R354). -/
  pics : Nat := 0
  deriving DecidableEq, Repr

/-! ## Caldera (12) -/

/-- An output buffer a job has named: handle, BASE, and commands that wrote it from INVALID sources (R412). -/
structure OutBuf where
  handle : Nat
  base : Nat
  inv : Nat
  deriving DecidableEq, Repr

/-- What Caldera has of a SAFE job (R410 to R417). -/
structure CalJob where
  jid : Nat
  /-- Residue records received, by tile. -/
  recv : Tab TileId Nat := []
  /-- Tiles whose last heartbeat, that of their JOB_END, has arrived. -/
  finals : List TileId := []
  /-- Conditions of R415 and R416 that have come to hold. -/
  residue : Bool := false
  range : Bool := false
  recovered : Bool := false
  /-- Tiles halted by a residue test, and tiles declared lost, that have not been remapped (R415). -/
  halted : List TileId := []
  lost : List TileId := []
  /-- Tiles that another kill has made send a KILLED record, and that have committed no record since (R415). -/
  killed : List TileId := []
  bufs : List OutBuf := []
  /-- More than 64 handles were named (R417). -/
  tooMany : Bool := false
  /-- Class and detail of the first fault, and its tile. -/
  first : Option (Nat × TileId) := none
  deriving DecidableEq, Repr

/-- A SAFE job whose partition JOB_END has come and whose verdicts have not been written: the microsecond of its
JOB_END, and whether it is LATE by a time limit or a restart. -/
structure EndedJob where
  job : JobRun
  us : Nat
  late : Bool
  deriving DecidableEq, Repr

/-- A verdict record written, for amendments: its window, the tiles of its job, its words (R423). -/
structure VerdictRec where
  win : Nat
  tiles : List TileId
  words : List Word
  deriving DecidableEq, Repr

/-- A Geyser slice in progress (R422): its window, group, tiles, those with a residue failure, and the counter value at
which it ends. -/
structure GeySlice where
  win : Nat
  tg : Nat
  tiles : List TileId
  bad : List TileId
  endAt : Nat
  deriving DecidableEq, Repr

/-- A self-test slice in progress: a tile group or, with 12, Caldera, and the microsecond it began (R425). -/
structure StSlice where
  grp : Nat
  since : Nat
  deriving DecidableEq, Repr

/-- What Caldera and the safety firmware hold beside the CAL page. -/
structure CalSt where
  jobs : List CalJob := []
  ended : List EndedJob := []
  /-- Jobs whose evidence a restart has discarded (R417). -/
  cut : List Nat := []
  /-- Entries of the verdict ring that are not released, and the records held in SRAM, oldest first (R419). -/
  used : Nat := 0
  held : List VerdictRec := []
  log : List VerdictRec := []
  /-- Last heartbeat of each tile, or the start of its job, in microseconds; and tiles declared lost (R410). -/
  hb : Tab TileId Nat := []
  lost : List TileId := []
  /-- Lost tiles the firmware has killed, and tiles it has left to the deadline monitor (R429). -/
  lostKill : List TileId := []
  given : List TileId := []
  /-- Microsecond of the last firmware heartbeat (R409). -/
  fwAt : Nat := 0
  /-- Microsecond of the last lock-step mismatch (R408). -/
  lockAt : Option Nat := none
  /-- Records taken in the current 1 ms, and its number (R413). -/
  taken : Nat := 0
  loadAt : Nat := 0
  /-- The slice in progress, and whether the open window's slice has been held (R421). -/
  gey : Option GeySlice := none
  geyWin : Option Nat := none
  /-- The window of the last slice that failed, and its group (R423). -/
  geyFail : Option (Nat × Nat) := none
  st : Option StSlice := none
  /-- Microsecond of the last completed test of each group, Caldera's at 12 (R425). -/
  tested : Tab Nat Nat := []
  /-- Microsecond at which the coverage interval of each group began (R426). -/
  covAt : Tab Nat Nat := []
  /-- Tiles out of service (R427, R440). -/
  out : List TileId := []
  /-- Tiles out of service that a passed test returns (R427), and microseconds at which each tile was taken out. -/
  retry : List TileId := []
  outAt : Tab TileId (List Nat) := []
  /-- Mode FAULT has been entered; only a package reset leaves it (R407). -/
  failed : Bool := false
  deriving DecidableEq, Repr

/-! ## Power, clocks and temperature (13) -/

/-- A PMBus transaction the part has to make with the VDD_CD regulator, and whether it has failed once (R443). -/
inductive PmbCmd where
  /-- VOUT_COMMAND of so many millivolts. -/
  | vout (mv : Nat)
  /-- OPERATION off and on (R451, R452). -/
  | operation (on : Bool)
  /-- A read of a regulator that the part is to make again (R443, R444). -/
  | read
  deriving DecidableEq, Repr

structure PmbTx where
  cmd : PmbCmd
  retried : Bool := false
  deriving DecidableEq, Repr

/-- A change to a faster ARITH state that waits on its voltage: the state, the voltage, and the microsecond at which
the command was acknowledged (R460). -/
structure Rise where
  target : Nat
  mv : Nat
  since : Option Nat := none
  deriving DecidableEq, Repr

/-- What the supplies, domains and clocks hold beside the CLK and PWR pages. -/
structure PwrSt where
  /-- Voltage VDD_CD was last commanded to, in millivolts; none since reset (R443, R444). -/
  cmdMv : Option Nat := none
  pmb : List PmbTx := []
  /-- Consecutive READ_VOUT readings off by more than 3 % (R444). -/
  vBad : Nat := 0
  /-- Last 1 ms intervals in which the regulators were read and the estimate's factors set (R444, R464), and last 10 us
  intervals in which power was estimated and the cap controller acted (R464, R465; log 118). -/
  pollAt : Nat := 0
  factorAt : Nat := 0
  estAt : Nat := 0
  capAt : Nat := 0
  rise : Option Rise := none
  /-- The faster state whose voltage change failed: it is not entered (R443). -/
  barred : Option Nat := none
  /-- The alert floor holds P5, and the microsecond at which PWR_ALERT_N went high (R466). -/
  alertFloor : Bool := false
  alertHigh : Option Nat := none
  /-- VAON has been low: nothing more is admitted (R445, R450). -/
  vaonLow : Bool := false
  /-- Microsecond at which the current window of the grid began; none until the grid starts (R449). Units charged to it,
  and admissions made in it. -/
  winAt : Option Nat := none
  used : Nat := 0
  admitted : Nat := 0
  /-- Microsecond at which each ramping domain was admitted (R449, R450). -/
  ramps : Tab Nat Nat := []
  /-- Microsecond since which each domain has met the conditions to turn off (R448). -/
  idleAt : Tab Nat Nat := []
  /-- Power estimates of the last 100 ms, newest first (R464), and the factor they are scaled by. -/
  est : List Nat := []
  factor : Nat := 0
  /-- Microsecond since which both estimates have been below 95 % of their limits (R465). -/
  capLow : Option Nat := none
  /-- XTAL_A is enabled (R451, R473). -/
  xtalA : Bool := false
  /-- Next step of deep-idle entry, 2 to 6 (R451); 0 outside ENTERING. -/
  idleStep : Nat := 0
  /-- VDD_CD has been switched off for deep idle (R451, R452). -/
  vcdOff : Bool := false
  /-- AON cycles spent in deep idle (R452, R458). -/
  aon : Nat := 0
  /-- The root a switch in progress goes to (R456). -/
  rootTo : Nat := 0
  deriving DecidableEq, Repr

/-- What the thermal controller holds beside the THM page. -/
structure ThmSt where
  /-- Previous sample of each sensor, and good samples in a row since it became invalid (R461). -/
  prev : Tab Nat (Option Int) := []
  good : Tab Nat Nat := []
  /-- Last 20 us interval in which each sensor was sampled (R461, log 118). -/
  sampled : Tab Nat Nat := []
  /-- Microsecond of the floor's last rise; none when it has not risen in this spell at LIMIT (R462). -/
  riseAt : Option Nat := none
  /-- Microsecond since which every valid sensor has been below LIMIT less HYST, or of the last fall (R462). -/
  coolAt : Option Nat := none
  deriving DecidableEq, Repr

/-! ## Boot, Sinter and Fumarole (14) -/

/-- A snapshot: its sequence number, the S fields it holds, its training records (R484, R485). -/
structure Snap where
  seq : Nat
  vals : List (RegKey × Word)
  trained : List TrainRec
  deriving DecidableEq, Repr

/-- Sinter: non-volatile, kept through every reset (R483). -/
structure SinterSt where
  /-- The flag block (R483, R488, R490, R494). -/
  ignore : Bool := false
  tagLock : Nat := 0
  cycles : Nat := 0
  optime : Nat := 0
  /-- The last complete snapshot (R485, R489). -/
  last : Option Snap := none
  /-- The user tag area, by word (R490). -/
  tags : Tab Nat Word := []
  /-- Fumarole's founding area, oldest first, and its ring, by entry (R493). -/
  founding : List FumRec := []
  ring : Tab Nat FumRec := []
  next : Nat := 0
  wrapped : Bool := false
  deriving DecidableEq, Repr

/-- A token bucket (R495). -/
structure Bucket where
  code : Nat := 0
  tokens : Nat := 0
  /-- Microsecond at which it first fell below BURST, and tokens gained since. -/
  from' : Nat := 0
  gained : Nat := 0
  /-- Records suppressed and not reported, the microsecond of the last, and the first and last code. -/
  count : Nat := 0
  lastAt : Nat := 0
  first : Nat := 0
  last : Nat := 0
  deriving DecidableEq, Repr

/-- Fumarole's part in the always-on domain (R493, R495). -/
structure FumSt where
  /-- Records buffered, oldest first. -/
  buf : List FumRec := []
  /-- Records the flush in progress writes, and whether another is due when it ends. -/
  writing : Nat := 0
  again : Bool := false
  buckets : List Bucket := []
  /-- Operating time and power-cycle count that records carry (R491). -/
  optime : Nat := 0
  cycle : Nat := 0
  /-- The shared bucket; none until it is first used, when it starts full. -/
  shared : Option Bucket := none
  deriving DecidableEq, Repr

/-- The causes of a package reset (R471). -/
inductive RstCause where
  | por | pin | soft | wdog
  deriving DecidableEq, Repr

/-- What boot, the security block and the firmware hold beside their pages. -/
structure BootSt where
  /-- A reset that waits for its flush (R472). -/
  rst : Option RstCause := none
  /-- Microsecond of the ARM in force (R472). -/
  armAt : Option Nat := none
  /-- Microsecond of the last KICK, from the start of the firmware (R471, log 60). -/
  kickAt : Option Nat := none
  /-- Step 5 has requested its domains (R473). -/
  linksAsked : Bool := false
  /-- Microsecond at which step 4 enabled the crystal; it has fallen back to AUX_PLL (R473). -/
  xtalAt : Nat := 0
  auxPath : Bool := false
  /-- The ROM waits for a pushed image (R476); bytes of the header store. -/
  push : Bool := false
  header : List Byte := []
  /-- The firmware runs (R473 step 7). -/
  running : Bool := false
  /-- H_IMG of the running image (R482). -/
  hImg : List Byte := []
  /-- Fuses that firmware programs, and the vendor and customer digests, words of SEC (R478). -/
  fuses : Tab Nat Word := []
  /-- Snapshot in progress: pages read so far, in ascending address order, the values they gave, and all of it once it is
  collected (R485). -/
  readPages : Nat := 0
  readVals : List (RegKey × Word) := []
  snap : Option Snap := none
  /-- Operating time not yet counted in OPTIME, in units of 1/512 us (R491). -/
  opTicks : Nat := 0
  deriving DecidableEq, Repr

/-! ## SDIO ports (11) -/

/-- An SDIO port's card state (R366 and the SD standards it names). -/
inductive CardState where
  | idle | standby | selected | inactive
  deriving DecidableEq, Repr

/-- What a port holds beside its page. -/
structure SdioSt where
  card : CardState := .idle
  rca : Nat := 0
  /-- The staging word of CMD52 writes, and the last word that a CMD52 read latched (R368). -/
  stage : List Byte := [0, 0, 0, 0]
  latch : Word := 0
  /-- A CMD52, or a CMD53 if the flag is set, that waits for its target: argument and data (R23, R315). -/
  busy : Option (Bool × Word × List Byte) := none
  /-- CMD11 has completed: the UHS modes are open (R366). -/
  uhs : Bool := false
  /-- Messages to the firmware, and from it, oldest first (R370). -/
  toFw : List (List Byte) := []
  toHost : List (List Byte) := []
  /-- Bulk blocks that wait for room, and since which microsecond the first does (R370). -/
  bulk : Option (List (List Byte) × Nat) := none
  /-- Bytes in the bulk ring. -/
  used : Nat := 0
  /-- The response and data of the last command, as the host receives them (R366, R368). -/
  resp : Word := 0
  answered : Bool := false
  rdata : List Byte := []
  /-- Function block sizes and the function-enable and interrupt-enable registers of the CIA (R366). -/
  cccr : Tab Nat Byte := []
  deriving DecidableEq, Repr

/-! ## The machine -/

/-- Everything the spec gives the OZ96. Each default is the value at reset. -/
structure State where
  /-- The commands that wait, first in, first out (log 1). -/
  pending : List Instr := []
  /-- FABRIC cycles passed since power-on, the model's clock (log 2). -/
  now : Nat := 0
  /-- Microseconds passed, counted from FABRIC or AON cycles (log 2). -/
  us : Nat := 0
  /-- FABRIC cycles into the current microsecond, in units of 1/1600 us (log 2). -/
  usPhase : Nat := 0
  /-- The model's own counter of free values used (log 7); no state of the hardware. -/
  freeCtr : Nat := 0
  /-- Register values that differ from the table's reset value. -/
  regs : Tab RegKey Word := []
  /-- All of device memory: DDR, scratchpads, LLC windows, firmware SRAM (R31). -/
  mem : List Host.Cell := []
  /-- Values staged in open groups (R55). -/
  staged : List Staged := []
  /-- Values staged in the camera ports' shadow groups (R65). -/
  shadow : List Staged := []
  /-- The open commit groups (R54). -/
  groups : List Group := []
  /-- Commits whose messages are on their way (R59). -/
  commits : List CommitRun := []
  /-- Soft resets that wait for a transition to complete (R51). -/
  softPend : List PageKey := []
  /-- Links 0 to 5. -/
  links : Tab LinkId LinkSt := []
  /-- Requests not yet completed at their requester (R24). -/
  outstanding : List Outstanding := []
  /-- The number of the next request. -/
  nextReq : Nat := 0
  /-- The completion last handed to its requester: its data and its error (R24). -/
  completed : Option Outstanding := none
  /-- Records on their way to Fumarole, oldest first (R493). -/
  fumIn : List FumRec := []
  /-- Domains with a wake request that the sequencer has not admitted, and the partition it is for, oldest first
  (R447, R449). -/
  wakeQ : List (Domain × PartId) := []
  /-- Tiles 0 to 95. -/
  tiles : Tab TileId Tile := []
  /-- Slot buffers HELD whose holder has committed while another uncommitted reader remains (R164). -/
  heldDone : List (TileId × Nat × Nat) := []
  /-- Slot-step requests held at ring tiles, oldest first (R259). -/
  remoteSteps : List RemoteStep := []
  /-- Barrier counts, 64 per partition (R264). -/
  barriers : Tab (PartId × Nat) Nat := []
  /-- Changes of barrier counts that have not reached the tiles: what each partition's tiles still see (R266). -/
  barrierSeen : Tab (PartId × Nat) Nat := []
  /-- Evidence on its way to Caldera's intake, oldest first (R144, R409). -/
  evidenceIn : List Evidence := []
  -- hubs (09)
  /-- HUB_MEM_CFG as it was when the subchannels that are not OFF were brought up; none while every one is OFF (R318). -/
  memCfg : Option Word := none
  hubs : Tab HubId HubSt := []
  /-- Subchannels, by HUB_DDR page instance. -/
  subs : Tab Nat SubSt := []
  /-- What the manufacturer and revision registers of each subchannel's devices read, by HUB_DDR page instance (R314). -/
  devs : Tab Nat Nat := []
  /-- The retained copy's S fields, by register, where they differ from the factory's, and its training records (R487). -/
  retained : Tab RegKey Word := []
  trained : List TrainRec := []
  -- jobs (11)
  /-- Jobs from submission to completion record, oldest first. -/
  jobs : List JobRun := []
  /-- PART_CNT of each partition; none until its configuration first applies with VALID = 1, which PART0's is at reset
  (R377, R400; log 13). -/
  partCnt : Tab PartId (Option Nat) := [(0, some 0)]
  nextJid : Nat := 0
  nextRel : Nat := 0
  /-- Submissions the firmware has not read yet: partition and descriptor address, oldest first (R383). -/
  submits : List (PartId × Nat) := []
  /-- Contexts in save areas (R392). -/
  saved : List SavedCtx := []
  /-- Lines a save or restore in progress has still to move, by tile (R392, R404). -/
  ctxRun : Tab TileId (Bool × Nat) := []
  /-- Each partition's open frame window; none while no window is open (R398). -/
  window : Tab PartId (Option FrameWin) := []
  /-- Windows each partition has opened since its configuration first applied (R418). -/
  winNo : Tab PartId Nat := []
  /-- Completion rings (R390). -/
  cpl : Tab PartId CplRing := []
  -- cameras, rings and shared engines (10)
  rings : Tab RingId RingSt := []
  cams : Tab Port CamSt := []
  chans : Tab (SharedEng × Chan) EngChan := []
  /-- Slice entry each engine runs (R347). -/
  slices : Tab SharedEng Nat := []
  -- safety (12)
  cal : CalSt := {}
  -- power, clocks and temperature (13)
  pwr : PwrSt := {}
  thm : ThmSt := {}
  -- boot, records and hosts (14, 11)
  snt : SinterSt := {}
  fum : FumSt := {}
  boot : BootSt := {}
  sdio : Tab PartId SdioSt := []
  deriving DecidableEq, Repr

/-- The state right after reset: every register at its table value, every queue and buffer empty, every domain off
(R11, R12, R446); values the spec does not give are named in logs 4, 5, 6 and 7. -/
def State.reset : State := {}

/-- Reasons to stop with a fault. No command raises it: every fault of the spec is recorded in a register and the
block goes on (R43). It stands for the interface only; safe. -/
inductive Fault where
  /-- Raised by nothing (safe). -/
  | none
  deriving DecidableEq, Repr

/-- Reasons to refuse a command. -/
inductive Refusal where
  /-- A command that has no meaning yet; raised by Dispatch alone (safe). -/
  | notModelled (mnemonic : String)
  deriving DecidableEq, Repr

end Sys2Proof.Machine
end

