-- ==== Sys2Proof/Machine/Ops.lean ====
section
/-! DEFINITION. Operations the commands share: registers and fields, interrupts and faults, free values, memory. -/

namespace Sys2Proof.Machine

/-! ## Pages and where they are -/

def pgTile (t : TileId) : PageKey := ⟨.tile, t.val⟩
def pgSeq (t : TileId) : PageKey := ⟨.seq, t.val⟩
def pgLane (t : TileId) : PageKey := ⟨.lane, t.val⟩
def pgVec (t : TileId) : PageKey := ⟨.vec, t.val⟩
def pgSpad (t : TileId) : PageKey := ⟨.spad, t.val⟩
/-- The page of stream engine `e` of tile `t`. -/
def pgStrm (t : TileId) (e : StrmId) : PageKey := ⟨if e.val = 0 then .strm0 else .strm1, t.val⟩
def pgScale (t : TileId) : PageKey := ⟨.scale, t.val⟩
def pgStats (t : TileId) : PageKey := ⟨.stats, t.val⟩
def pgCam (n : Port) : PageKey := ⟨.cam, n.val⟩
def pgIsp (n : Port) : PageKey := ⟨.isp, n.val⟩
def pgTap (n : Port) : PageKey := ⟨.tap, n.val⟩
def pgHub (h : HubId) : PageKey := ⟨.hub, h.val⟩
def pgDdr (h : HubId) (c : Sub) : PageKey := ⟨.hubDdr, 4 * h.val + c.val⟩
def pgLlc (h : HubId) : PageKey := ⟨.hubLlc, h.val⟩
def pgPart (p : PartId) : PageKey := ⟨.part, p.val⟩
def pgSdio (p : PartId) : PageKey := ⟨.sdio, p.val⟩
def pgClk : PageKey := ⟨.clk, 0⟩
def pgPwr : PageKey := ⟨.pwr, 0⟩
def pgThm : PageKey := ⟨.thm, 0⟩
def pgSnt : PageKey := ⟨.snt, 0⟩
def pgFum : PageKey := ⟨.fum, 0⟩
def pgCal : PageKey := ⟨.cal, 0⟩
def pgSec : PageKey := ⟨.sec, 0⟩
def pgXcore : PageKey := ⟨.xcore, 0⟩
/-- The page of a shared engine. -/
def pgEng : SharedEng → PageKey
  | .warp => ⟨.warp, 0⟩
  | .codec => ⟨.codec, 0⟩
  | .token => ⟨.token, 0⟩
/-- The page of an engine of a tile. -/
def pgEngine (t : TileId) : Engine → PageKey
  | .lane => pgLane t
  | .vec => pgVec t
  | .s0 => pgStrm t 0
  | .s1 => pgStrm t 1

/-- Is the page one of the index of R36. -/
def pageExists (pg : PageKey) : Bool := decide (pg.inst < kindCount pg.kind)

/-- The pages of a tile (R36). -/
def tilePages (t : TileId) : List PageKey :=
  [pgTile t, pgSeq t, pgLane t, pgVec t, pgSpad t, pgStrm t 0, pgStrm t 1, pgScale t, pgStats t]

/-- The pages of a camera port (R36). -/
def camPages (n : Port) : List PageKey := [pgCam n, pgIsp n, pgTap n]

/-- Is the page one of a tile's nine. -/
def isTilePage : PageKind → Bool
  | .tile | .seq | .lane | .vec | .spad | .strm0 | .strm1 | .scale | .stats => true
  | _ => false

/-- Is the page one of a camera port's three. -/
def isCamPage : PageKind → Bool
  | .cam | .isp | .tap => true
  | _ => false

/-- The tile with a number. -/
def tileOf (n : Nat) : TileId := ⟨n % 96, Nat.mod_lt _ (by decide)⟩
/-- The camera port with a number. -/
def portOf (n : Nat) : Port := ⟨n % 12, Nat.mod_lt _ (by decide)⟩
/-- The partition with a number. -/
def partOf (n : Nat) : PartId := ⟨n % 4, Nat.mod_lt _ (by decide)⟩
/-- The channel with a number. -/
def chanOf (n : Nat) : Chan := ⟨n % 16, Nat.mod_lt _ (by decide)⟩
/-- The power domain with a number. -/
def domOf (n : Nat) : Domain := ⟨n % 26, Nat.mod_lt _ (by decide)⟩

/-- All tiles, ports and partitions, in order. -/
def allTiles : List TileId := (upTo 96).map tileOf
def allPorts : List Port := (upTo 12).map portOf
def allParts : List PartId := (upTo 4).map partOf
def allDomains : List Domain := (upTo 26).map domOf

/-- Every page of the index, in ascending address order (R36). -/
def allPages : List PageKey :=
  allTiles.flatMap tilePages ++ allPorts.flatMap camPages
    ++ (upTo 2).flatMap (fun h => ⟨.hub, h⟩ :: (upTo 4).map (fun i => ⟨.hubDdr, 4 * h + i⟩) ++ [⟨.hubLlc, h⟩])
    ++ allParts.map pgPart ++ [pgClk, pgPwr, pgThm, pgSnt, pgFum, pgCal, pgSec, pgEng .warp, pgEng .codec, pgEng .token]
    ++ allParts.map pgSdio ++ [pgXcore]

/-- The die that holds a page (R35). -/
def dieOfPage (pg : PageKey) : Die :=
  if isTilePage pg.kind then .cd else match pg.kind with
    | .hub | .hubLlc => if pg.inst = 0 then .ha else .hb
    | .hubDdr => if pg.inst < 4 then .ha else .hb
    | _ => .xd

/-- The switched domain a page lies in; none for the always-on domain (R446). -/
def domainOfPage (pg : PageKey) : Option Nat :=
  if isTilePage pg.kind then some (pg.inst / 8) else match pg.kind with
    | .hub => some (14 + 2 * pg.inst)
    | .hubDdr => some (14 + 2 * (pg.inst / 4))
    | .hubLlc => some (15 + 2 * pg.inst)
    | .cam | .isp | .tap => some (18 + pg.inst / 6)
    | .warp => some 20
    | .codec => some 21
    | .token => some 22
    | .xcore => some 23
    | .sdio => some 24
    | .cal => some 25
    | _ => none

/-! ## Registers -/

/-- Where a register is kept: both HUB pages present the same link registers (R27, R28), kept under HA's. -/
def canonKey (pg : PageKey) (off : Nat) : RegKey :=
  if pg.kind = .hub ∧ 0x800 ≤ off then ⟨⟨.hub, 0⟩, off⟩ else ⟨pg, off⟩

/-- The stored word of a register. -/
def rd (s : State) (pg : PageKey) (off : Nat) : Word :=
  Tab.get (resetWord (canonKey pg off).pg off) s.regs (canonKey pg off)

/-- Store a register's word. -/
def wr (pg : PageKey) (off : Nat) (w : Word) (s : State) : State :=
  { s with regs := Tab.put s.regs (canonKey pg off) w }

/-- The value of a field. -/
def fget (s : State) (pg : PageKey) (f : Fld) : Nat := f.get (rd s pg f.off)

/-- Set a field; the rest of its register stays. -/
def fset (pg : PageKey) (f : Fld) (v : Nat) (s : State) : State := wr pg f.off (f.put (rd s pg f.off) v) s

/-- Add to a field, saturating at its width. -/
def fbump (pg : PageKey) (f : Fld) (n : Nat) (s : State) : State := fset pg f (satAdd f.width (fget s pg f) n) s

/-- Add to a field, modulo its width. -/
def fwrap (pg : PageKey) (f : Fld) (n : Nat) (s : State) : State := fset pg f (fget s pg f + n) s

/-- Is a one-bit field set. -/
def fon (s : State) (pg : PageKey) (f : Fld) : Bool := fget s pg f != 0

/-- Bit `i` of a bit-vector field. -/
def fbit (s : State) (pg : PageKey) (f : Fld) (i : Nat) : Bool := (fget s pg f).testBit i

/-- Set or clear bit `i` of a bit-vector field. -/
def fsetBit (pg : PageKey) (f : Fld) (i : Nat) (b : Bool) (s : State) : State :=
  let v := fget s pg f
  fset pg f (if b then v ||| 2 ^ i else v - (if v.testBit i then 2 ^ i else 0)) s

/-- Set several fields of a page. -/
def fsets (pg : PageKey) (l : List (Fld × Nat)) (s : State) : State := l.foldl (fun s e => fset pg e.1 e.2 s) s

/-- A 64-bit counter over two registers. -/
def fget64 (s : State) (pg : PageKey) (lo hi : Fld) : Nat := fget s pg lo + 2 ^ 32 * fget s pg hi
/-- Set a 64-bit counter over two registers, modulo 2^64. -/
def fset64 (pg : PageKey) (lo hi : Fld) (v : Nat) (s : State) : State := fset pg hi (v / 2 ^ 32) (fset pg lo v s)

/-- A device address over a LO and a HI field, each counting from its own lowest bit. -/
def fgetAddr (s : State) (pg : PageKey) (lo hi : Fld) : Nat := fget s pg lo * 2 ^ lo.lo + 2 ^ 32 * fget s pg hi

/-! ## Domains -/

/-- The domain is powered with its clocks running (PWR_DOM_STAT). -/
def domainOn (s : State) (d : Nat) : Bool := fbit s pgPwr Fl.pwrDomStatOn d

/-- The page's domain is on; the always-on domain always is (R446). -/
def pagePowered (s : State) (pg : PageKey) : Bool :=
  match domainOfPage pg with
  | none => true
  | some d => domainOn s d

/-- Which pages have no function to switch here: those of R50, and XCORE while its domain is on (R500). -/
def fixedOn (pg : PageKey) : Bool := kindAlwaysOn pg.kind || decide (pg.kind = .xcore)

/-- The page's STATE as it reads (R39, R50, R500). -/
def pageState (s : State) (pg : PageKey) : Nat :=
  if kindAlwaysOn pg.kind then 2
  else if pg.kind = .xcore then (if pagePowered s pg then 2 else 0)
  else fget s pg Fl.state

/-- The page's function is on. -/
def pageOn (s : State) (pg : PageKey) : Bool := pageState s pg == 2 && pagePowered s pg

/-! ## Interrupts and faults (R41 to R43) -/

/-- Latch events of IRQ_RAW. -/
def raise (pg : PageKey) (bits : Word) (s : State) : State := wr pg 0x010 (rd s pg 0x010 ||| bits) s

/-- Latch event `i` of IRQ_RAW. -/
def setIrq (pg : PageKey) (i : Nat) (s : State) : State := raise pg (oneBit i) s

/-- IRQ_STAT reads IRQ_RAW AND IRQ_MASK (R41). -/
def irqStat (s : State) (pg : PageKey) : Word := rd s pg 0x010 &&& rd s pg 0x014

/-- SOURCE of a Fumarole record: bits [23:16] of the page's PAGE_ID and its instance (R491). -/
def fumSource (pg : PageKey) : Nat := (kindCode pg.kind % 256) * 256 + pg.inst % 256

/-- Send a record to Fumarole (R491). -/
def sendFum (code : Nat) (pg : PageKey) (d0 d1 d2 d3 : Word) (s : State) : State :=
  { s with fumIn := s.fumIn ++ [⟨code, fumSource pg, 0, 0, 0, d0, d1, d2, d3⟩] }

/-- FAULT and IRQ_RAW when a fault is recorded on a page: the first is held, a later one sets MORE (R41, R43). -/
def latchFault (pg : PageKey) (cls det : Nat) (s : State) : State :=
  let s := if fget s pg Fl.faultClass = 0
    then fset pg Fl.faultClass cls (fset pg Fl.faultDetail det s)
    else fset pg Fl.faultMore 1 s
  setIrq pg 0 s

/-- Record a fault on a page with its Fumarole record; `d1` to `d3` are data words 1 to 3 (R43, R491). -/
def faultData (pg : PageKey) (cls det : Nat) (d1 d2 d3 : Word) (s : State) : State :=
  let s := latchFault pg cls det s
  let d0 := BitVec.ofNat 32 (det + 256 * cls + 0x10000 * fget s pg Fl.faultMore)
  sendFum (256 * cls + det) pg d0 d1 d2 d3 s

/-- Record a fault with no further data (R43, R491). -/
def recordFault (pg : PageKey) (cls det : Nat) (s : State) : State := faultData pg cls det 0 0 0 s

/-- Write an event record of R492 with data word 1. -/
def recordEvent (code : Nat) (pg : PageKey) (d1 d2 d3 : Word) (s : State) : State := sendFum code pg 0 d1 d2 d3 s

/-- STATE changes; entering OFF, ON or FAULT latches STATE_CHG (R41). -/
def enterState (pg : PageKey) (v : Nat) (s : State) : State :=
  let s := fset pg Fl.state v s
  if v = 0 ∨ v = 2 ∨ v = 7 then setIrq pg 1 s else s

/-! ## Free values (log 7) -/

/-- The next free value and the state with the counter advanced. -/
def fresh (s : State) : Nat × State := (Config.freeNat s.freeCtr, { s with freeCtr := s.freeCtr + 1 })

/-! ## Memory: a list of cells, addresses rising, no cell that holds what an unlisted address reads as (log 4) -/

/-- The canonical form, with every address above `lo`. -/
def memWfFrom (lo : Nat) : List Host.Cell → Bool
  | [] => true
  | (a, b) :: r => decide (lo ≤ a) && b != 0 && memWfFrom (a + 1) r

/-- Addresses strictly rising and no cell that holds 0. -/
def Memory.wf (m : List Host.Cell) : Bool := memWfFrom 0 m

/-- The byte at an address; an unlisted address reads 0 (log 4). -/
def memGet : List Host.Cell → Nat → Byte
  | [], _ => 0
  | (a, b) :: r, x => if x < a then 0 else if x = a then b else memGet r x

/-- Set the byte at an address, keeping the canonical form. -/
def memSet : List Host.Cell → Nat → Byte → List Host.Cell
  | [], x, v => if v = 0 then [] else [(x, v)]
  | (a, b) :: r, x, v =>
    if x < a then (if v = 0 then (a, b) :: r else (x, v) :: (a, b) :: r)
    else if x = a then (if v = 0 then r else (a, v) :: r)
    else (a, b) :: memSet r x v

/-- `n` bytes from an address up. -/
def memRead (m : List Host.Cell) (a : Nat) : Nat → List Byte
  | 0 => []
  | n + 1 => memGet m a :: memRead m (a + 1) n

/-- Write bytes from an address up. -/
def memWrite (m : List Host.Cell) (a : Nat) : List Byte → List Host.Cell
  | [] => m
  | b :: r => memWrite (memSet m a b) (a + 1) r

/-- Remove the cells of `[lo, hi)`: they read 0. -/
def memZero (m : List Host.Cell) (lo hi : Nat) : List Host.Cell := m.filter (fun c => !(decide (lo ≤ c.1) && decide (c.1 < hi)))

/-- `n` bytes of the state's memory. -/
def peek (s : State) (a n : Nat) : List Byte := memRead s.mem a n
/-- Write bytes into the state's memory. -/
def poke (a : Nat) (l : List Byte) (s : State) : State := { s with mem := memWrite s.mem a l }
/-- Zero the bytes of `[lo, hi)` in the state's memory. -/
def pokeZero (lo hi : Nat) (s : State) : State := { s with mem := memZero s.mem lo hi }
/-- Write words from an address up. -/
def pokeWords (a : Nat) (l : List Word) (s : State) : State := poke a (l.flatMap wordBytes) s

/-- First address of tile `t`'s scratchpad (R31). -/
def spadBase (t : TileId) : Nat := 0x1000000000 + t.val * 0x100000

/-! ## Redirects (R430) -/

/-- Tile a request for tile `t` is delivered to: a redirect entry moves it (R430). -/
def redirTile (s : State) (t : TileId) : TileId :=
  match (upTo 4).find? (fun k => fon s pgCal (Fl.calRedirEn k) && fget s pgCal (Fl.calRedirFrom k) == t.val) with
  | some k => tileOf (fget s pgCal (Fl.calRedirTo k))
  | none => t

/-! ## Outcomes -/

/-- Every meaning ends in a next state. -/
def ok (s : State) : Host.Outcome State Fault Refusal := .next s

/-- Run a step only if its condition holds; otherwise nothing happened (log 3). -/
def whenB (b : Bool) (s t : State) : State := if b then t else s

end Sys2Proof.Machine
end

