-- ==== Sys2Proof/Machine/Operands.lean ====
section
/-! DEFINITION. Operand forms: handles and tensor descriptors (R149 to R160), element types (R111, R112), the address
of an element in each layout (R155), padding (R157), stream descriptors (R255), and conversion between element types. -/

namespace Sys2Proof.Machine

/-! ## Element types -/

/-- Bits of an element of a type code (R111). -/
def etBits : Nat → Nat
  | 0 => 4
  | 1 => 8
  | 2 => 16
  | 3 => 32
  | 4 => 16
  | _ => 32

/-- Nibbles of an element. -/
def etNib (t : Nat) : Nat := etBits t / 4

/-- Bytes of a row of 32 elements (R112). -/
def rowBytes (t : Nat) : Nat := etBits t * 4

/-- An integer type (R111). -/
def etInt (t : Nat) : Bool := decide (t ≤ 3)

/-- The range of an integer type. -/
def etMin (t : Nat) : Int := -(2 ^ (etBits t - 1) : Nat)
def etMax (t : Nat) : Int := (2 ^ (etBits t - 1) : Nat) - 1

/-- The element at a nibble address of memory: INT4 elements two to a byte, others little-endian (R112). -/
def readElem (m : List Host.Cell) (t nib : Nat) : Nat :=
  if t = 0 then bitsOf (memGet m (nib / 2)).toNat (4 * (nib % 2)) 4
  else leNat (memRead m (nib / 2) (etBits t / 8))

/-- Write an element at a nibble address. -/
def writeElem (t nib v : Nat) (m : List Host.Cell) : List Host.Cell :=
  if t = 0 then
    let b := (memGet m (nib / 2)).toNat
    let lo := if nib % 2 = 0 then v % 16 else b % 16
    let hi := if nib % 2 = 0 then b / 16 else v % 16
    memSet m (nib / 2) (BitVec.ofNat 8 (lo + 16 * hi))
  else memWrite m (nib / 2) (leBytes (etBits t / 8) v)

/-- The 32 elements of a row that starts at a byte address. -/
def readRow (m : List Host.Cell) (t a : Nat) : List Nat := (upTo 32).map (fun k => readElem m t (2 * a + k * etNib t))

/-- Write elements from a byte address up. -/
def writeRowFrom (t : Nat) : Nat → List Nat → List Host.Cell → List Host.Cell
  | _, [], m => m
  | nib, v :: r, m => writeRowFrom t (nib + etNib t) r (writeElem t nib v m)

/-- Write a row of elements at a byte address. -/
def writeRow (t a : Nat) (l : List Nat) (m : List Host.Cell) : List Host.Cell := writeRowFrom t (2 * a) l m

/-- Write a row of elements into the state's memory. -/
def pokeRow (t a : Nat) (l : List Nat) (s : State) : State := { s with mem := writeRow t a l s.mem }

/-- The value of an element pattern as a signed integer (integer types). -/
def elemInt (t v : Nat) : Int := signed (etBits t) v

/-- The value of an element pattern as a floating value (BF16, FP32). -/
def elemFv (t v : Nat) : FV := if t = 4 then fv16 v else fv32 v

/-- Convert an element pattern from one type to another, and whether it was clipped (R96 group 2, R136): integers are
sign-extended or clipped, floating values round to nearest even (R99), and a value beyond an integer type clips. DESIGN
CHOICE (log 97): a NaN converted to an integer type gives 0 and counts as clipped. -/
def convElem (src dst v : Nat) : Nat × Bool :=
  if etInt src then
    let i := elemInt src v
    if etInt dst then
      let c := clampI (etMin dst) (etMax dst) i
      (unsignedOf (etBits dst) c, c != i)
    else if dst = 4 then (pack16 (fvOf false i 0), false) else (pack32 (fvOf false i 0), false)
  else
    let f := elemFv src v
    if etInt dst then
      match f with
      | .nan => (0, true)
      | .inf n => (unsignedOf (etBits dst) (if n then etMin dst else etMax dst), true)
      | _ =>
        let i := f.toIntRne
        let c := clampI (etMin dst) (etMax dst) i
        (unsignedOf (etBits dst) c, c != i)
    else if dst = 4 then (pack16 f, false) else (pack32 f, false)

/-! ## Descriptors (R153) -/

/-- Word `i` of a descriptor's sixteen. -/
def dw (d : List Word) (i : Nat) : Nat := (d.getD i 0).toNat
/-- A field of a descriptor: byte offset, lowest bit, width. -/
def df (d : List Word) (off lo w : Nat) : Nat := bitsOf (dw d (off / 4)) lo w

def dBase (d : List Word) : Nat := dw d 0 + 2 ^ 32 * df d 4 0 8
def dLoc (d : List Word) : Nat := df d 4 8 2
def dTile (d : List Word) : Nat := df d 4 10 7
def dRing (d : List Word) : Nat := df d 4 17 5
def dType (d : List Word) : Nat := df d 4 22 3
def dChlast (d : List Word) : Bool := df d 4 25 1 = 1
def dCrit (d : List Word) : Bool := df d 4 26 1 = 1
def dValid (d : List Word) : Bool := df d 4 31 1 = 1
def dW (d : List Word) : Nat := df d 8 0 16 + 1
def dH (d : List Word) : Nat := df d 8 16 16 + 1
def dC (d : List Word) : Nat := df d 0xC 0 16 + 1
def dN (d : List Word) : Nat := df d 0xC 16 12 + 1
def dG (d : List Word) : Nat := df d 0x10 0 12 + 1
/-- Padding mode of side 0 top, 1 bottom, 2 left, 3 right. -/
def dPad (d : List Word) (side : Nat) : Nat := df d 0x10 (16 + 2 * side) 2
def dSN (d : List Word) : Nat := dw d 5
def dSC (d : List Word) : Nat := dw d 6
def dSH (d : List Word) : Nat := dw d 7
def dSG (d : List Word) : Nat := dw d 8
def dSW (d : List Word) : Nat := dw d 9
def dZp (d : List Word) : Int := signed 16 (df d 0x28 0 16)
def dPadValue (d : List Word) : Nat := df d 0x28 16 16
def dSatLimit (d : List Word) : Nat := df d 0x2C 0 16
def dOutShift (d : List Word) : Nat := df d 0x2C 16 5
def dScaleBase (d : List Word) : Nat := df d 0x30 0 10
def dScaleCnt (d : List Word) : Nat := df d 0x30 10 11
/-- Adaptive channel `i` of the list. -/
def dAdp (d : List Word) (i : Nat) : Nat := df d (0x34 + 4 * (i / 3)) (10 * (i % 3)) 10
def dAdpCnt (d : List Word) : Nat := df d 0x3C 20 4

/-- Does the strides' rule of R155 hold: every stride the layout uses is a multiple of 16 B, and INT4 has an even
count in its contiguous dimension. -/
def dStridesOk (d : List Word) : Bool :=
  if dLoc d = 3 then true else
  let common := dSN d % 16 = 0 && dSG d % 16 = 0 && dSH d % 16 = 0
  let own := if dChlast d then dSW d % 16 = 0 else dSC d % 16 = 0
  let even := dType d != 0 || (if dChlast d then dC d else dW d) % 2 = 0
  common && own && even

/-- Does BASE lie where the location class requires (R154). -/
def dBaseOk (d : List Word) : Bool :=
  let b := dBase d
  match dLoc d with
  | 0 => decide (b < 0x1000000000)
  | 1 => decide (0x1800000000 ≤ b ∧ b < 0x1804000000)
  | 2 => decide (dTile d < 96 ∧ 0x1000000000 + dTile d * 0x100000 ≤ b ∧ b < 0x1000000000 + (dTile d + 1) * 0x100000)
  | _ => decide (dTile d < 96)

/-- The descriptor checks that give BAD_DESCRIPTOR whatever the command (R159). -/
def dBad (d : List Word) : Bool :=
  !dValid d || decide (6 ≤ dType d) || !dBaseOk d || !dStridesOk d
    || decide (1024 < dScaleBase d + dScaleCnt d) || (dScaleCnt d != 0 && decide (dScaleCnt d < dC d))

/-- The adaptive list is malformed (R142, R159). -/
def dAdpBad (d : List Word) : Bool :=
  decide (8 < dAdpCnt d)
    || (upTo (min (dAdpCnt d) 8)).any (fun i => decide (dScaleCnt d ≤ dAdp d i))
    || (dAdpCnt d != 0 && (dLoc d != 3 || decide (2 < dType d)))

/-- Nibble offset of element (n, g, c, h, w) from the tensor's or buffer's start (R155); `t` is the type in memory. -/
def elemNib (d : List Word) (t n g c h w : Nat) : Nat :=
  if dLoc d = 3 then
    let cb := ceilDiv (dC d) 32
    let r := (((n * dG d + g) * cb + c / 32) * dH d + h) * dW d + w
    r * 32 * etNib t + (c % 32) * etNib t
  else if dChlast d then 2 * (n * dSN d + g * dSG d + h * dSH d + w * dSW d) + c * etNib t
  else 2 * (n * dSN d + g * dSG d + c * dSC d + h * dSH d) + w * etNib t

/-- The (n, g, c, h, w) position of element `j` of row `r` of a tensor in storage order (R155, R156). -/
def rowPos (d : List Word) (r j : Nat) : Nat × Nat × Nat × Nat × Nat :=
  if dLoc d = 3 then
    let cb := ceilDiv (dC d) 32
    let w := r % dW d
    let q := r / dW d
    let h := q % dH d
    let q := q / dH d
    (q / cb / dG d, q / cb % dG d, q % cb * 32 + j, h, w)
  else if dChlast d then
    let p := r * 32 + j
    let q := p / dC d
    (q / dW d / dH d / dG d, q / dW d / dH d % dG d, p % dC d, q / dW d % dH d, q % dW d)
  else
    let p := r * 32 + j
    let q := p / dW d
    (q / dH d / dC d / dG d, q / dH d / dC d % dG d, q / dH d % dC d, q % dH d, p % dW d)

/-- Nibble offset of element `j` of row `r` from the tensor's or buffer's start, in type `t` (R155, R156). -/
def rowNib (d : List Word) (t r j : Nat) : Nat :=
  let p := rowPos d r j
  elemNib d t p.1 p.2.1 p.2.2.1 p.2.2.2.1 p.2.2.2.2

/-- The 32 elements of row `r` of a tensor that starts at byte `a`. -/
def readRowAt (m : List Host.Cell) (d : List Word) (t a r : Nat) : List Nat :=
  (upTo 32).map (fun j => readElem m t (2 * a + rowNib d t r j))

/-- Write the elements of row `r` of a tensor that starts at byte `a`. -/
def writeRowAt (d : List Word) (t a r : Nat) (l : List Nat) (m : List Host.Cell) : List Host.Cell :=
  l.zipIdx.foldl (fun m p => writeElem t (2 * a + rowNib d t r p.2) p.1 m) m

/-- The 64 B lines that elements at nibble offsets from byte `a` lie in, each once. -/
def nibLines (a : Nat) (l : List Nat) : List Nat := (l.map (fun n => (a + n / 2) / 64 * 64)).eraseDups

/-- The lines of row `r` of a tensor that starts at byte `a`. -/
def rowLines (d : List Word) (t a r : Nat) : List Nat := nibLines a ((upTo 32).map (rowNib d t r))

/-- Bytes a tensor spans from its base: one past its last addressed byte. -/
def tensorSpan (d : List Word) : Nat :=
  ceilDiv (elemNib d (dType d) (dN d - 1) (dG d - 1) (dC d - 1) (dH d - 1) (dW d - 1) + etNib (dType d)) 2

/-- PAD_VALUE as an element of the descriptor's type (R153): the upper half of FP32, sign-extended for INT32. -/
def padConst (d : List Word) : Nat :=
  match dType d with
  | 5 => dPadValue d * 2 ^ 16
  | 3 => unsignedOf 32 (signed 16 (dPadValue d))
  | t => dPadValue d % 2 ^ etBits t

/-- PAD_VALUE as an element of type `ty`, which is the descriptor's or, where the tensor lies in the INT16 form, wider:
the element of the tensor's type, sign-extended (R135, R153, R157). -/
def padIn (d : List Word) (ty : Nat) : Nat :=
  if ty = dType d || !etInt (dType d) then padConst d else unsignedOf (etBits ty) (elemInt (dType d) (padConst d))

/-- Fold a coordinate outside `[0, n)` by MIRROR (2) or REPEAT (3); `none` when ZERO or CONST leaves it outside. -/
def foldCoord (mode n : Nat) (x : Int) : Option Nat :=
  if 0 ≤ x ∧ x < n then some x.toNat
  else if mode = 2 then
    let y := if x < 0 then -x else 2 * ((n : Int) - 1) - x
    if 0 ≤ y ∧ y < n then some y.toNat else none
  else if mode = 3 then some (if x < 0 then 0 else n - 1)
  else none

/-- Where a padded element takes its value from (R157): a position, or the ZERO or CONST mode (0, 1). -/
def padPos (d : List Word) (hh ww : Nat) (y x : Int) : (Nat × Nat) ⊕ Nat :=
  let my := if y < 0 then dPad d 0 else dPad d 1
  let mx := if x < 0 then dPad d 2 else dPad d 3
  match foldCoord my hh y, foldCoord mx ww x with
  | some a, some b => .inl (a, b)
  | none, _ => .inr my
  | _, none => .inr mx

/-- A channel-row tensor (R229): PLANAR, W = 32, C = 1; element w of a row is channel w of the block. -/
def isChannelRow (d : List Word) : Bool := dLoc d != 3 && !dChlast d && dW d == 32 && dC d == 1

/-- The channel of element `j` of row `r` of a tensor (R155, R156, R229). -/
def chanAtRow (d : List Word) (r j : Nat) : Nat := if isChannelRow d then j else (rowPos d r j).2.2.1

/-- The channel of element `j` of the row at byte offset `ofs` of a tensor, which the lane engine addresses without the
descriptor's strides (R155, R171, R229). -/
def rowChan (d : List Word) (ty ofs j : Nat) : Nat :=
  if dLoc d = 3 then ofs / rowBytes ty / (dH d * dW d) % ceilDiv (dC d) 32 * 32 + j
  else if isChannelRow d then j
  else if dChlast d then (if dSW d = 0 then 0 else ofs % dSW d * 2 / etNib ty) + j
  else
    let o := if dN d = 1 || dSN d = 0 then ofs else ofs % dSN d
    let o := if dG d = 1 || dSG d = 0 then o else o % dSG d
    if dSC d = 0 then 0 else o / dSC d % dC d

/-! ## Stream descriptors (R255) -/

def sdExtW (w : List Word) : Nat := bitsOf (dw w 0) 0 16 + 1
def sdExtH (w : List Word) : Nat := bitsOf (dw w 0) 16 16 + 1
def sdExtC (w : List Word) : Nat := bitsOf (dw w 1) 0 16 + 1
def sdExtN (w : List Word) : Nat := bitsOf (dw w 1) 16 12 + 1
/-- Padding extent of side 0 top, 1 bottom, 2 left, 3 right. -/
def sdPad (w : List Word) (side : Nat) : Nat := bitsOf (dw w 2) (4 * side) 4
def sdPhase (w : List Word) : Nat := bitsOf (dw w 2) 16 3 + 1
def sdPersist (w : List Word) : Bool := bitsOf (dw w 2) 22 1 = 1
def sdHalo (w : List Word) : Bool := bitsOf (dw w 2) 23 1 = 1
def sdPart (w : List Word) : Nat := bitsOf (dw w 2) 24 2
def sdRole (w : List Word) : Nat := bitsOf (dw w 2) 26 2
def sdValid (w : List Word) : Bool := bitsOf (dw w 2) 31 1 = 1
def sdMask (w : List Word) : Nat := dw w 3
def sdTile (w : List Word) : Nat := bitsOf (dw w 4) 0 7
def sdTag (w : List Word) : Nat := bitsOf (dw w 4) 8 8
def sdBlocks (w : List Word) : Nat := bitsOf (dw w 4) 16 16 + 1
def sdSrcStep (w : List Word) : Int := signed 32 (dw w 5)
def sdDstStep (w : List Word) : Int := signed 32 (dw w 6)
/-- A reserved field of the descriptor is not zero (R255). -/
def sdReserved (w : List Word) : Bool :=
  bitsOf (dw w 1) 28 4 != 0 || bitsOf (dw w 2) 19 1 != 0 || bitsOf (dw w 2) 28 3 != 0
    || bitsOf (dw w 4) 7 1 != 0 || dw w 7 != 0

/-! ## Scale entries (R124) -/

/-- Word 0 and word 1 of scale entry `n`, kept above the SCALE page's own registers. -/
def scaleOff (n : Nat) : Nat := 0x10000 + 8 * n

def seRange (s : State) (t : TileId) (n : Nat) : Nat := bitsOf (rd s (pgScale t) (scaleOff n)).toNat 0 16
def seZp (s : State) (t : TileId) (n : Nat) : Int := signed 16 (bitsOf (rd s (pgScale t) (scaleOff n)).toNat 16 16)
/-- EXP, signed; −8 to −5 act as −4 (R124). -/
def seExp (s : State) (t : TileId) (n : Nat) : Int :=
  max (-4) (signed 4 (bitsOf (rd s (pgScale t) (scaleOff n + 4)).toNat 0 4))
def seAdaptive (s : State) (t : TileId) (n : Nat) : Bool := bitsOf (rd s (pgScale t) (scaleOff n + 4)).toNat 4 1 = 1
def seBias (s : State) (t : TileId) (n : Nat) : Nat := bitsOf (rd s (pgScale t) (scaleOff n + 4)).toNat 8 24

/-- What channel `c` of a tensor takes from its scale entry, or from the descriptor where the range is empty (R113,
R117, R118); a channel row takes the entry of each of its 32 channels (R229). -/
def chanCfg (s : State) (t : TileId) (d : List Word) (c : Nat) : ChanCfg :=
  if dScaleCnt d = 0 then ⟨none, dZp d, 0, false, 0, 0⟩
  else
    let n := dScaleBase d + c
    if dScaleCnt d ≤ c && !isChannelRow d then ⟨none, dZp d, 0, false, 0, 0⟩
    else ⟨some n, seZp s t n, if seAdaptive s t n then seExp s t n else 0, seAdaptive s t n, seBias s t n, seRange s t n⟩

/-- The pattern of a channel's zero point in a type. -/
def zpPat (ty : Nat) (c : ChanCfg) : Nat := if etInt ty then unsignedOf (etBits ty) (clampI (etMin ty) (etMax ty) c.zp) else 0

/-- What the channels of a tensor take, by channel: nothing where the range is empty (R113, R121). -/
def chanCfgs (s : State) (t : TileId) (d : List Word) : List ChanCfg :=
  if dScaleCnt d = 0 then [] else (upTo (ceilDiv (dC d) 32 * 32)).map (chanCfg s t d)

/-- What channel `c` takes, from what its tensor's channels take. -/
def cfgOf (d : List Word) (l : List ChanCfg) (c : Nat) : ChanCfg := l.getD c ⟨none, dZp d, 0, false, 0, 0⟩

/-- What the elements of row `r` of a tensor take. -/
def rowCfgs (d : List Word) (l : List ChanCfg) (r : Nat) : List ChanCfg := (upTo 32).map (fun j => cfgOf d l (chanAtRow d r j))

end Sys2Proof.Machine
end

