-- ==== Sys2Proof/Machine/Flags.lean ====
section
/-! DEFINITION. What the tile computes beside its results: saturation, rectification and OVF (R81, R118 to R120), the
checksum comparison with its tolerance (R86 to R88, R94, R143), and the saturation test (R133, R134). -/

namespace Sys2Proof.Machine

/-- The largest magnitude of an integer accumulator (R81). -/
def accMax : Int := 2 ^ 39 - 1

/-- Accumulate with saturation: the sum and whether it saturated (R81). -/
def accAdd (a b : Int) : Int × Bool :=
  let c := clampI (-accMax) accMax (a + b)
  (c, c != a + b)

/-- Division by 2^k rounded half away from zero (R118). -/
def roundHalfAway (a : Int) (k : Nat) : Int :=
  let m := (a.natAbs + 2 ^ k / 2) / 2 ^ k
  if a < 0 then -(m : Int) else (m : Int)

/-- A converted element: its pattern, whether it counts as a saturation, and its contribution to the channel's
maximum of absolute values. -/
structure Conv where
  q : Nat
  sat : Bool
  mag : Nat
  deriving DecidableEq, Repr

/-- The conversion of R118 and R119 of one integer accumulator value. -/
def convInt (outType outShift : Nat) (c : ChanCfg) (acc : Int) (laneSat : Bool) : Conv :=
  let t : Int := (outShift : Int) + (if c.adaptive then c.exp else 0)
  let v := if 0 < t then roundHalfAway acc t.toNat
    else clampI (-accMax) accMax (acc * (2 ^ (-t).toNat : Nat))
  let u := v + c.zp
  let lo := etMin outType
  let q := clampI lo (etMax outType) u
  let rectified := c.zp = lo && decide (u < lo)
  ⟨unsignedOf (etBits outType) q, (q != u && !rectified) || laneSat, if rectified then 0 else v.natAbs⟩

/-- The conversion of R120: BF16, the largest finite value of the sign for a value beyond it or in a row with OVF, 0x7FC0
for a NaN. -/
def convBf16 (ovf : Bool) (w : Nat) : Conv :=
  match fv32 w with
  | .nan => ⟨0x7FC0, true, 0⟩
  | f =>
    let neg := bitsOf w 31 1
    let p := pack16 f
    if ovf || decide (0x7F7F0000 < w % 2 ^ 31) then ⟨neg * 0x8000 + 0x7F7F, true, 0x7F7F⟩ else ⟨p, false, p % 0x8000⟩

/-- Convert one accumulator value at a drain, by the output type; `sat` says that its lane has saturated (R119). -/
def convDrain (outType outShift : Nat) (c : ChanCfg) (ovf sat : Bool) (a : BitVec 40) : Conv :=
  if outType = 4 then convBf16 ovf (a.toNat % 2 ^ 32) else convInt outType outShift c a.toInt sat

/-- D of R86 as a signed 40-bit value: the lanes' sum less the checksum. -/
def chkDiff (vals : List (BitVec 40)) (chk : BitVec 40) : Int :=
  ((vals.foldl (fun (a : BitVec 40) v => a + v) 0) - chk).toInt

/-- An integer row mismatches when D lies outside ±TOL (R86). -/
def chkMismatchInt (vals : List (BitVec 40)) (chk : BitVec 40) (tol : Nat) : Bool :=
  decide (tol < (chkDiff vals chk).natAbs)

/-- Exact value of a finite FP32 pattern with exponent aligned to 2^-200, for comparisons. -/
def f32exact (w : Nat) : Int :=
  match fv32 w with
  | .fin n m e => sgn n m * (2 ^ (e + 200).toNat : Nat)
  | _ => 0

/-- A BF16 row mismatches when |Σ acc − chk| > 2^-8 · Σ |acc| (R87); a checksum that is no finite number differs from a
finite sum by more than any bound. -/
def chkMismatchFp (vals : List (BitVec 40)) (chk : BitVec 40) : Bool :=
  !(fv32 (chk.toNat % 2 ^ 32)).isFin ||
  let xs := vals.map (fun v => f32exact (v.toNat % 2 ^ 32))
  let d := xs.foldl (· + ·) 0 - f32exact (chk.toNat % 2 ^ 32)
  let a := (xs.map (fun x => (x.natAbs : Int))).foldl (· + ·) 0
  decide (a < 256 * (d.natAbs : Int))

/-- The effective limit of a SAT_LIMIT field, `none` when wide re-runs are disabled (R133). -/
def satLimit (field : Nat) (safe : Bool) : Option Nat :=
  if field = 0xFFFF then none else if field = 0xFFFE then some (if safe then 0 else 16) else some field

/-- The saturation test of R134: it fails when 65,536·S > L·E. -/
def satTestFails (limit : Option Nat) (sats elems : Nat) : Bool :=
  match limit with
  | none => false
  | some l => decide (l * elems < 65536 * sats)

/-- Is a row's every value finite (OVF of R81 for FP32). -/
def fpOvf (vals : List (BitVec 40)) : Bool := vals.any (fun v => !(fv32 (v.toNat % 2 ^ 32)).isFin)

end Sys2Proof.Machine
end

