-- ==== Sys2Proof/Machine/Tile.lean ====
section
/-! DEFINITION. Operations on a tile that its engines share: queues, slot buffers, the scratchpad's checks, spans,
kills, faults and re-runs (05, 06, 08). -/

namespace Sys2Proof.Machine

/-! ## Access -/

/-- The state of tile `t`. -/
def tile (s : State) (t : TileId) : Tile := Tab.get {} s.tiles t

/-- Replace the state of tile `t`. -/
def setTile (t : TileId) (x : Tile) (s : State) : State := { s with tiles := Tab.put s.tiles t x }

/-- Change the state of tile `t`. -/
def updTile (t : TileId) (f : Tile → Tile) (s : State) : State := setTile t (f (tile s t)) s

/-- The engine's number in TILE_KILL and W0 [9:8] (R168, R189). -/
def engNo : Engine → Nat
  | .lane => 0
  | .vec => 1
  | .s0 => 2
  | .s1 => 3

/-- The engine with a number (R168). -/
def engOf (n : Nat) : Engine := if n % 4 = 0 then .lane else if n % 4 = 1 then .vec else if n % 4 = 2 then .s0 else .s1

def allEngines : List Engine := [.lane, .vec, .s0, .s1]

/-- The stream engine as an engine. -/
def strmEng (e : StrmId) : Engine := if e.val = 0 then .s0 else .s1

/-- A queue of a tile. -/
def queueOf (x : Tile) : Engine → List QEntry
  | .lane => x.lane
  | .vec => x.vec
  | .s0 => x.s0
  | .s1 => x.s1

/-- Replace a queue of a tile. -/
def setQueueOf (x : Tile) (q : Engine) (l : List QEntry) : Tile :=
  match q with
  | .lane => { x with lane := l }
  | .vec => { x with vec := l }
  | .s0 => { x with s0 := l }
  | .s1 => { x with s1 := l }

def queue (s : State) (t : TileId) (q : Engine) : List QEntry := queueOf (tile s t) q
def setQueue (t : TileId) (q : Engine) (l : List QEntry) (s : State) : State := updTile t (fun x => setQueueOf x q l) s

/-- Entries a queue holds (R69). -/
def queueCap : Engine → Nat
  | .lane | .vec => 16
  | .s0 | .s1 => 32

/-- Change the entry with a program-order number. -/
def updEntry (t : TileId) (q : Engine) (num : Nat) (f : QEntry → QEntry) (s : State) : State :=
  setQueue t q ((queue s t q).map (fun e => if e.num = num then f e else e)) s

/-- The opcode of an entry (R168). -/
def opcodeOf (e : QEntry) : Nat := bitsOf e.w0.toNat 0 8

/-- Stream channels and multicast runs of a stream engine. -/
def chansOf (x : Tile) (e : StrmId) : List StrmChan := if e.val = 0 then x.chans0 else x.chans1
def setChans (t : TileId) (e : StrmId) (l : List StrmChan) (s : State) : State :=
  updTile t (fun x => if e.val = 0 then { x with chans0 := l } else { x with chans1 := l }) s
def mcOf (x : Tile) (e : StrmId) : List McRun := if e.val = 0 then x.mc0 else x.mc1
def setMc (t : TileId) (e : StrmId) (l : List McRun) (s : State) : State :=
  updTile t (fun x => if e.val = 0 then { x with mc0 := l } else { x with mc1 := l }) s
/-- What a stream engine is carrying out. -/
def strOf (x : Tile) (e : StrmId) : StrmSt := if e.val = 0 then x.str0 else x.str1
def setStr (t : TileId) (e : StrmId) (r : StrmSt) (s : State) : State :=
  updTile t (fun x => if e.val = 0 then { x with str0 := r } else { x with str1 := r }) s
def epochOf (x : Tile) : Engine → Nat
  | .s0 => x.epoch0
  | .s1 => x.epoch1
  | _ => 0

/-! ## The accumulator (R79, R84) -/

/-- An accumulator row after reset: 0, V set, tag OLD (R84, R209). -/
def accZero : AccRow :=
  { vals := List.replicate 32 0, chk := 0, v := true, ovf := false, tol := 0, tag := none, fp := false }

def accRow (x : Tile) (bank row : Nat) : AccRow := Tab.get accZero x.acc (bank, row)

/-- Write an accumulator row; the first write since a commit point saves the row's prior contents (R83). -/
def setAccRow (bank row : Nat) (r : AccRow) (x : Tile) : Tile :=
  let saved := x.undo.any (fun e => e.1 = (bank, row))
  { x with
    undo := if saved then x.undo else ((bank, row), accRow x bank row) :: x.undo
    acc := Tab.put x.acc (bank, row) r }

/-- The physical planes. -/
def planeOf (x : Tile) (i : Nat) : Plane := if i = 0 then x.planes0 else x.planes1
def setPlane (i : Nat) (p : Plane) (x : Tile) : Tile :=
  if i = 0 then { x with planes0 := p } else { x with planes1 := p }

/-! ## Program order (R209) -/

/-- Every live entry's number of a tile. -/
def liveNums (x : Tile) : List Nat := allEngines.flatMap (fun q => (queueOf x q).map QEntry.num)

/-- Distance of `a` from `b` modulo 2^16. -/
def numDist (a b : Nat) : Nat := (a % 2 ^ 16 + 2 ^ 16 - b % 2 ^ 16) % 2 ^ 16

/-- B: the number of the oldest command pushed and not committed, or the next number. Every live number lies less than
2^15 before the next one to be pushed. -/
def numBase (x : Tile) : Nat :=
  (liveNums x).foldl (fun b n => if numDist x.nextNum b < numDist x.nextNum n then n else b) x.nextNum

/-- B has moved up from `b0`: tags that it has passed by 2^14 numbers or more are OLD (R209). -/
def ageTags (b0 : Nat) (x : Tile) : Tile :=
  let jump := numDist (numBase x) b0
  let passed := fun (g : Nat) => if numDist g b0 < 2 ^ 15 then jump - numDist g b0 else jump + numDist b0 g
  let old := fun (r : AccRow) => match r.tag with
    | some g => if 2 ^ 14 ≤ passed g then { r with tag := none } else r
    | none => r
  if jump = 0 then x
  else { x with acc := x.acc.map (fun e => (e.1, old e.2)), undo := x.undo.map (fun e => (e.1, old e.2)) }

/-- Entries leave a tile's queues (R209). -/
def entriesLeave (f : Tile → Tile) (x : Tile) : Tile := ageTags (numBase x) (f x)

/-- `a` is below `b` in the window. -/
def numBelow (x : Tile) (a b : Nat) : Bool := decide (numDist a (numBase x) < numDist b (numBase x))

/-- A writer tag is a number above `q`: OLD tags and tags before the window are below every number. -/
def tagAbove (x : Tile) (tag : Option Nat) (q : Nat) : Bool :=
  match tag with
  | none => false
  | some g => decide (numDist g (numBase x) < 2 ^ 15) && numBelow x q g

/-! ## Slot rings (R161 to R166): the TILE page's registers are their home -/

def ringValid (s : State) (t : TileId) (r : Nat) : Bool := decide (r < 32) && fon s (pgTile t) (Fl.tileSlotCfgValid r)
/-- Buffers of a ring; NBUF_M1 = 0 acts as 1 (R189). -/
def ringBufs (s : State) (t : TileId) (r : Nat) : Nat := max 1 (fget s (pgTile t) (Fl.tileSlotCfgNbufM1 r)) + 1
def ringLines (s : State) (t : TileId) (r : Nat) : Nat := fget s (pgTile t) (Fl.tileSlotSizeLines r)
/-- Scratchpad offset of buffer `b`; bits [5:0] of BASE are taken as 0 (R189). -/
def bufOff (s : State) (t : TileId) (r b : Nat) : Nat :=
  fget s (pgTile t) (Fl.tileSlotCfgBase r) / 64 * 64 + b * ringLines s t r * 64
def bufBytes (s : State) (t : TileId) (r : Nat) : Nat := ringLines s t r * 64
def wrIdx (s : State) (t : TileId) (r : Nat) : Nat := fget s (pgTile t) (Fl.tileSlotSizeWrIdx r)
def rdIdx (s : State) (t : TileId) (r : Nat) : Nat := fget s (pgTile t) (Fl.tileSlotSizeRdIdx r)

/-- State of buffer `b`: 0 EMPTY, 1 PENDING, 2 FULL, 3 HELD (R189). -/
def bufState (s : State) (t : TileId) (r b : Nat) : Nat := bitsOf (fget s (pgTile t) (Fl.tileSlotStateBufs r)) (2 * b) 2
def setBufState (t : TileId) (r b v : Nat) (s : State) : State :=
  let f : Fld := ⟨(Fl.tileSlotStateBufs r).off, 2 * b, 2⟩
  fset (pgTile t) f v s

/-- The tags of a buffer (R166). -/
def bufWide (s : State) (t : TileId) (r b : Nat) : Bool := fbit s (pgTile t) (Fl.tileSlotTagWide r) b
def bufInvalid (s : State) (t : TileId) (r b : Nat) : Bool := fbit s (pgTile t) (Fl.tileSlotTagInvalid r) b
def setTags (t : TileId) (r b : Nat) (wide invalid : Bool) (s : State) : State :=
  fsetBit (pgTile t) (Fl.tileSlotTagInvalid r) b invalid (fsetBit (pgTile t) (Fl.tileSlotTagWide r) b wide s)

def setWrIdx (t : TileId) (r v : Nat) (s : State) : State := fset (pgTile t) (Fl.tileSlotSizeWrIdx r) v s
def setRdIdx (t : TileId) (r v : Nat) (s : State) : State := fset (pgTile t) (Fl.tileSlotSizeRdIdx r) v s

/-- Take the write step: buffer WR_IDX becomes PENDING and the index advances (R165). -/
def takeWrite (t : TileId) (r : Nat) (s : State) : State × SlotStep :=
  let b := wrIdx s t r
  (setWrIdx t r ((b + 1) % ringBufs s t r) (setBufState t r b 1 s), ⟨t, r, b, 0, false, false⟩)

/-- Take the read step: with CONSUME buffer RD_IDX becomes HELD and the index advances (R165). -/
def takeRead (t : TileId) (r : Nat) (consume : Bool) (s : State) : State × SlotStep :=
  let b := rdIdx s t r
  if consume then (setRdIdx t r ((b + 1) % ringBufs s t r) (setBufState t r b 3 s), ⟨t, r, b, 1, false, false⟩)
  else (s, ⟨t, r, b, 2, false, false⟩)

/-- Every uncommitted command of every tile (R164). -/
def allEntries (s : State) : List QEntry := s.tiles.flatMap (fun e => allEngines.flatMap (queueOf e.2))

/-- Buffer steps of the blocks that channels have in progress (R271). -/
def blockSteps (x : Tile) : List SlotStep := (x.chans0 ++ x.chans1).flatMap (fun c => if c.busy then c.steps else [])

/-- Some uncommitted command or channel block has read the buffer. -/
def hasReader (s : State) (t : TileId) (r b : Nat) : Bool :=
  let reads := fun (p : SlotStep) => decide (p.tile = t) && p.ring = r && p.buf = b && p.kind != 0
  (allEntries s).any (fun e => e.phase != .queued && e.steps.any reads) || s.tiles.any (fun e => (blockSteps e.2).any reads)

/-- A buffer becomes EMPTY; its tags clear (R166). -/
def emptyBuf (t : TileId) (r b : Nat) (s : State) : State := setTags t r b false false (setBufState t r b 0 s)

/-- The commit of a step (R164, R181): PENDING becomes FULL with its tags, HELD waits for its last reader. -/
def commitStep (p : SlotStep) (s : State) : State :=
  match p.kind with
  | 0 => setTags p.tile p.ring p.buf p.wide p.invalid (setBufState p.tile p.ring p.buf 2 s)
  | 1 => { s with heldDone := s.heldDone ++ [(p.tile, p.ring, p.buf)] }
  | _ => s

/-- Buffers whose holder has committed and that no uncommitted command has read become EMPTY (R164). -/
def releaseHeld (s : State) : State :=
  let free := s.heldDone.filter (fun h => !hasReader s h.1 h.2.1 h.2.2)
  let s' := { s with heldDone := s.heldDone.filter (fun h => hasReader s h.1 h.2.1 h.2.2) }
  free.foldl (fun a h => emptyBuf h.1 h.2.1 h.2.2 a) s'

/-- An index one step back. -/
def backIdx (s : State) (t : TileId) (r i : Nat) : Nat := (i + ringBufs s t r - 1) % ringBufs s t r

/-- The reversal of a step by a kill: its index moves back over it (R164, R165, R184). -/
def reverseStep (p : SlotStep) (s : State) : State :=
  match p.kind with
  | 0 => setWrIdx p.tile p.ring (backIdx s p.tile p.ring (wrIdx s p.tile p.ring)) (emptyBuf p.tile p.ring p.buf s)
  | 1 => setRdIdx p.tile p.ring (backIdx s p.tile p.ring (rdIdx s p.tile p.ring)) (setBufState p.tile p.ring p.buf 2 s)
  | _ => s

/-! ## Accesses in one cycle (R85, R100, R245) -/

/-- The later of two paths, by rank, is delayed by one cycle: within port W in LANE_CONFLICT, of another port class in
SPAD_CONFLICTp, and a vector read of the accumulator in VEC_CONFLICT. Ranks 0 to 2 are the row, drain and plane paths of
port W, 3 to 7 ports V, S0, S1, C and N, 8 and 9 a drain's and the vector unit's reads of the accumulator. -/
def pathDelayed (t : TileId) (later : Nat) (s : State) : State :=
  if later ≤ 2 then fbump (pgLane t) Fl.laneConflictCycles 1 s
  else if later = 9 then fbump (pgVec t) Fl.vecConflictCycles 1 s
  else fbump (pgSpad t) (Fl.spadConflictCycles (later - 2)) 1 s

/-- A path accesses a bank in the present cycle, which every command before the next idle step shares: against each other
path on that bank in the cycle, the one of the higher rank loses (R85, R100, R245; log 96). -/
def useBank (rank : Nat) (t : TileId) (s : State) (bank : Nat) : State :=
  let x := tile s t
  let l := if x.busAt = s.now then x.busUse else []
  if l.contains (rank, bank) then s else
  (l.filter (fun e => e.2 = bank)).foldl (fun s e => pathDelayed t (Nat.max rank e.1) s)
    (setTile t { x with busAt := s.now, busUse := l ++ [(rank, bank)] } s)

/-- A path accesses `len` bytes at a scratchpad offset. -/
def useBanks (rank : Nat) (t : TileId) (off len : Nat) (s : State) : State :=
  if len = 0 then s
  else ((upTo ((off + len - 1) / 0x10000 - off / 0x10000 + 1)).map (fun i => off / 0x10000 + i)).foldl (useBank rank t) s

/-- The rank of a port class. -/
def portRank (port : Nat) : Nat := if port = 0 then 0 else port + 2

/-! ## The scratchpad's checks (R244 to R249) -/

/-- Owner of bank `b`; values other than 0 to 5 read as 0xF (R106). -/
def bankOwner (s : State) (t : TileId) (b : Nat) : Nat :=
  let v := bitsOf (fget s (pgTile t) (if b < 8 then Fl.tileBankOwn0Owners else Fl.tileBankOwn1Owners)) (4 * (b % 8)) 4
  if v ≤ 5 then v else 0xF

/-- The offset lies in a buffer of a valid ring (R247). -/
def inRing (s : State) (t : TileId) (off : Nat) : Bool :=
  (upTo 32).any (fun r => ringValid s t r && decide (bufOff s t r 0 ≤ off ∧ off < bufOff s t r (ringBufs s t r)))

/-- The first check of R249 that an access to a line fails: 4 SPAD_OFF, 3 RING_OVERLAP, 1 WRITE_OWNER, 2 READ_OWNER. -/
def spadCheck (s : State) (t : TileId) (port : Nat) (write slot : Bool) (off : Nat) : Option Nat :=
  if !pageOn s (pgSpad t) then some 4
  else if slot then none
  else if inRing s t off then some 3
  else
    let o := bankOwner s t (off / 0x10000)
    if o = 0xF then some 2
    else if write && o != port then some 1
    else if !write && port = 5 && o != 5 then some 2
    else none

/-- Record a class 0x04 fault or an ECC error on the SPAD page (R249, R280). -/
def spadFault (t : TileId) (port : Nat) (write : Bool) (off det : Nat) (s : State) : State :=
  let s := fsets (pgSpad t) [(Fl.spadFltAddrOffset, off / 64 * 64), (Fl.spadFltAddrPort, port),
    (Fl.spadFltAddrWrite, b2n write), (Fl.spadFltAddrEcc, b2n (det = 5))] s
  let s := if det = 5 then fbump (pgSpad t) Fl.spadEccCntUncorr 1 s else s
  setIrq (pgSpad t) 9 (recordFault (pgSpad t) 4 det s)

/-! ## Faults of a command (R190, R242) -/

/-- Capture the first class 0x01 or 0x02 fault of the tile with its command (R190). -/
def captureFault (t : TileId) (qn cls det : Nat) (cmd : List Word) (s : State) : State :=
  if fon s (pgTile t) Fl.tileFinfoValid then s
  else
    let s := fsets (pgTile t) [(Fl.tileFinfoQueue, qn), (Fl.tileFinfoClass, cls), (Fl.tileFinfoDetail, det), (Fl.tileFinfoValid, 1)] s
    fsets (pgTile t) ((upTo 4).map (fun i => (Fl.tileFcmdCmd i, (cmd.getD i 0).toNat))) s

/-- Record a class 0x01 or 0x02 fault on a page of the tile with its capture; class 0x01 carries W0 in data word 1 (R190,
R242, R491). One that no command caused is captured with words of 0 (log 33). -/
def commandFault (t : TileId) (pg : PageKey) (qn cls det : Nat) (cmd : List Word) (s : State) : State :=
  let s := faultData pg cls det (if cls = 1 then cmd.getD 0 0 else 0) 0 0 s
  captureFault t qn cls det cmd s

/-- The words of an entry. -/
def entryWords (e : QEntry) : List Word := [e.w0, e.w1, e.w2, e.w3]

/-! ## Kills (R184 to R187) -/

/-- The tile is being killed on an engine. -/
def beingKilled (x : Tile) (q : Engine) : Bool :=
  match x.kill with
  | none => false
  | some k => k.engines.contains q

/-- Accept a kill of the named engines: dispatch stops and stream epochs advance (R186, phase 1). Engines already
being killed are not killed twice (R187). With no write held at port N a kill takes 93 cycles. -/
def startKill (t : TileId) (engs : List Engine) (halts : Bool) (s : State) : State :=
  if engs.isEmpty then s else
  let x := tile s t
  let new := engs.filter (fun q => !beingKilled x q)
  let k : KillRun := match x.kill with
    | none => ⟨engs, 93, halts⟩
    | some k => ⟨k.engines ++ new, k.cycles, k.halts || halts⟩
  let x := { x with
    kill := some k
    epoch0 := if new.contains .s0 then x.epoch0 + 1 else x.epoch0
    epoch1 := if new.contains .s1 then x.epoch1 + 1 else x.epoch1 }
  let s := fset (pgTile t) Fl.tileKillStatBusy 1 (setTile t x s)
  if halts then setIrq (pgTile t) 9 (fset (pgTile t) Fl.tileRunHalted 1 s) else s

/-- Reverse steps, the last first. -/
def reverseSteps (l : List SlotStep) (s : State) : State := l.reverse.foldl (fun s p => reverseStep p s) s

/-- A channel slot as STRM_CHk_STAT shows it (R282). -/
def showChan (t : TileId) (e : StrmId) (k : Nat) (c : StrmChan) (s : State) : State :=
  fsets (pgStrm t e) [(Fl.strmChStatSdesc k, c.d), (Fl.strmChStatArmed k, b2n c.armed), (Fl.strmChStatRunning k, b2n (c.armed && !c.idle)),
    (Fl.strmChStatRearmPend k, b2n c.shadow.isSome), (Fl.strmChStatBlock k, c.block)] s

/-- Replace channel slot `k` of a stream engine. -/
def setChan (t : TileId) (e : StrmId) (k : Nat) (c : StrmChan) (s : State) : State :=
  showChan t e k c (setChans t e (setAt (chansOf (tile s t) e) k c) s)

/-- A kill reverses the block each channel of the engine has in progress; it restarts afterwards (R274). -/
def reverseBlocks (t : TileId) (e : StrmId) (s : State) : State :=
  let l := chansOf (tile s t) e
  let s := l.reverse.foldl (fun s c => if c.busy then reverseSteps c.steps s else s) s
  let r := strOf (tile s t) e
  setStr t e { r with runs := r.runs.filter (fun r => r.chan.isNone) } (setChans t e (l.map (fun c => { c with busy := false, steps := [] })) s)

/-- Disarm the channels of a stream engine, their blocks in progress reversed; what a persistent MOVE has committed and the
engine has not taken up is over too (R274). -/
def disarmChans (t : TileId) (e : StrmId) (s : State) : State :=
  let s := updTile t (fun x => if e.val = 0 then { x with arm0 := [] } else { x with arm1 := [] }) (reverseBlocks t e s)
  (upTo 4).foldl (fun s k => setChan t e k {} s) s

/-- Discard the staged instruction words: GSTATE ABORTED (R215). -/
def discardImem (t : TileId) (s : State) : State :=
  if (tile s t).imemStaged.isEmpty then s
  else fsets (pgSeq t) [(Fl.seqImemStatGstate, 3), (Fl.seqImemStatStaged, 0)] (updTile t (fun x => { x with imemStaged := [] }) s)

/-- The tile dispatches nothing further: its job has faulted, or a command of a tile with no job has (R185; log 92). -/
def tileFaulted (x : Tile) : Bool :=
  x.stopped || (match x.job with
    | some j => j.faulted
    | none => false)

/-- The tiles that run the same job as tile `t`; a Geyser patch is its tile's own. -/
def jobMates (s : State) (t : TileId) (j : TileJob) : List TileId :=
  match j.jid with
  | none => [t]
  | some n => (s.tiles.filter (fun e => match e.2.job with
      | none => false
      | some k => decide (k.jid = some n))).map Prod.fst

/-- A tile dispatches nothing further for its job, its spans are killed, its channels are disarmed and its staged
instruction words are discarded (R185, R215, R274, R389). -/
def stopTile (t : TileId) (s : State) : State :=
  let s := updTile t (fun x => { x with job := x.job.map (fun k => { k with faulted := true }) }) s
  let s := startKill t allEngines false s
  discardImem t (disarmChans t 1 (disarmChans t 0 s))

/-- A job ends other than normally: with this status, from its first fault if it is one (R389, R390). -/
def endingJob (n status : Nat) (cause : Option (Nat × TileId)) (s : State) : State :=
  { s with jobs := s.jobs.map (fun r => if r.jid != n then r else
      let r := match r.cause, cause with
        | none, some c => { r with cause := some c.1, causeTile := c.2.val }
        | _, _ => r
      { r with stage := .ending, status := if r.stage = .ending && status = 1 then r.status else status }) }

/-- A tile's job faults: on every tile of the job nothing further dispatches, and channels are disarmed; the spans of
the job's tiles are killed (R185, R274, R389). -/
def faultJob (t : TileId) (cls det : Nat) (s : State) : State :=
  let s := startKill t allEngines false s
  match (tile s t).job with
  | none => discardImem t (disarmChans t 1 (disarmChans t 0 (updTile t (fun x => { x with stopped := true }) s)))
  | some j =>
    let s := (jobMates s t j).foldl (fun s u => stopTile u s) s
    match j.jid with
    | none => s
    | some n => endingJob n 1 (some (256 * cls + det, t)) s

/-- Reject a command at dispatch: the fault with its capture, all four spans killed, the job faults (R185, R519). -/
def rejectCmd (t : TileId) (q : Engine) (e : QEntry) (cls det : Nat) (s : State) : State :=
  let s := commandFault t (pgEngine t q) (engNo q) cls det (entryWords e) s
  faultJob t cls det s

/-- Interlocked safe mode is in force (R212). -/
def ilActive (s : State) (t : TileId) : Bool :=
  fon s (pgSeq t) Fl.seqCtrlIlock || fon s (pgSeq t) Fl.seqStatusAutoIl || fon s (pgSeq t) Fl.seqStatusWideIl

/-- A violation faults the job with SEQ_FAULT.CAUSE 8 (R211). -/
def seqCause (t : TileId) (cause : Nat) (s : State) : State :=
  let s := fsets (pgSeq t) [(Fl.seqFaultCause, cause), (Fl.seqFaultPc, fget s (pgSeq t) Fl.seqPcPc)] s
  setIrq (pgSeq t) 9 s

/-- A slot violation or guard hit of engine `q` with its sequel (R211); one that arrives while the engine is being
killed is discarded (R187). -/
def violation (t : TileId) (q : Engine) (e : QEntry) (det : Nat) (s : State) : State :=
  if beingKilled (tile s t) q then s else
  let s := commandFault t (pgEngine t q) (engNo q) 2 det (entryWords e) s
  let s := if det = 3 then setIrq (pgLane t) 9 (setIrq (pgEngine t q) 9 s) else s
  if fon s (pgSeq t) Fl.seqStatusViol then
    faultJob t 2 det (seqCause t 8 s)
  else if !ilActive s t && !fon s (pgSeq t) Fl.seqCtrlAutoIlock then
    faultJob t 2 det (seqCause t 8 (fset (pgSeq t) Fl.seqStatusViol 1 s))
  else
    let s := fbump (pgSeq t) Fl.seqViolCntCount 1 (fset (pgSeq t) Fl.seqStatusViol 1 s)
    let s := if ilActive s t then s else setIrq (pgSeq t) 10 (fset (pgSeq t) Fl.seqStatusAutoIl 1 s)
    startKill t [q] false s

/-- The sequel of a class 0x04 fault of a local engine: an uncorrectable error kills its span and halts the tile; any
other kills all four spans and the job faults (R249). -/
def spadSequel (t : TileId) (q : Engine) (det : Nat) (s : State) : State :=
  if det = 5 then startKill t [q] true s else faultJob t 4 det s

/-- The port class code of a local engine (R244). -/
def portOfEng : Engine → Nat
  | .lane => 0
  | .vec => 1
  | .s0 => 2
  | .s1 => 3

/-- The first line of `[off, off+len)` an access of a local engine may not reach, with its detail. -/
def spadScan (s : State) (t : TileId) (q : Engine) (write slot : Bool) (off len : Nat) : Option (Nat × Nat) :=
  if len = 0 then none else
  (upTo ((off + len - 1) / 64 - off / 64 + 1)).findSome? (fun i =>
    let o := (off / 64 + i) * 64
    (spadCheck s t (portOfEng q) write slot o).map (fun d => (o, d)))

/-- Check an access of a local engine; a refused one is recorded and has its sequel. -/
def spadGuard (t : TileId) (q : Engine) (write slot : Bool) (off len : Nat) (s : State) : Option State :=
  match spadScan s t q write slot off len with
  | none => none
  | some (o, d) => some (spadSequel t q d (spadFault t (portOfEng q) write o d s))

/-! ## Dispatch (R76, R104, R179) -/

/-- The first entry of a queue that has not dispatched, if nothing in front of it holds it back: a COMMIT that has
reached the head lets nothing by before its commit point (R179). -/
def headEntry (l : List QEntry) : Option QEntry :=
  match l with
  | [] => none
  | e :: r => if e.phase = .queued then some e else if opcodeOf e = 0x32 then none else headEntry r

/-- The tile may dispatch from a queue: its engine's page is ON, the tile is not halted, no kill of the engine runs, the
job has not faulted, its killed commands do not wait for FREEZE to clear, and no frame step holds the lane engine and the
vector unit (R104, R140, R185, R195, R393). -/
def mayDispatch (s : State) (t : TileId) (q : Engine) : Bool :=
  let x := tile s t
  pageOn s (pgEngine t q) && !fon s (pgTile t) Fl.tileRunHalted && !beingKilled x q && !x.hold
    && !tileFaulted x
    && !(x.frameStep && (q = .lane || q = .vec))

/-- The entry a dispatch of opcode `op` would take. -/
def dispatchHead (s : State) (t : TileId) (q : Engine) (op : Nat) : Option QEntry :=
  if mayDispatch s t q then (headEntry (queue s t q)).filter (fun e => decide (opcodeOf e = op)) else none

/-- A stalled attempt counts one cycle of its cause (R261, R262). -/
def stall (t : TileId) (c : Nat) (s : State) : State := fbump (pgSpad t) (Fl.spadStallCycles c) 1 s

/-- The criticality of the tile's job (R133, R374). -/
def jobSafe (s : State) (t : TileId) : Bool :=
  match (tile s t).job with
  | some j => j.safe
  | none => false

/-- Set the phase of the entry with a number. -/
def setPhase (t : TileId) (q : Engine) (num : Nat) (p : Phase) (s : State) : State :=
  updEntry t q num (fun e => { e with phase := p }) s

end Sys2Proof.Machine
end

