-- ==== Sys2Proof/Machine/Issue.lean ====
section
/-! DEFINITION. The checks every command passes at dispatch, in the order of R519, and the descriptor store (R149 to
R160, R169, R241). -/

namespace Sys2Proof.Machine

/-! ## Opcodes and fields (R168 to R178) -/

/-- The queues that accept an opcode (R169). -/
def opAccepted (op : Nat) (q : Engine) : Bool :=
  match q with
  | .lane => [0x01, 0x02, 0x30, 0x31, 0x32, 0x34].contains op
  | .vec => [0x10, 0x11, 0x12, 0x13, 0x21, 0x30, 0x31, 0x32, 0x33, 0x34].contains op
  | .s0 | .s1 => [0x20, 0x21, 0x22, 0x30, 0x31, 0x32, 0x34].contains op

/-- The bits of word `i` that an opcode's fields use, beside OPCODE and Q (R170 to R178). -/
def fieldMask (op i : Nat) : Nat :=
  match op, i with
  | 0x01, 0 => 0x000087FF
  | 0x01, 1 => 0x0000FFFF
  | 0x01, 2 => 0
  | 0x01, _ => 0x0000FFFF
  | 0x02, 0 => 0x0FFFFFFF
  | 0x02, 2 => 0x0FFFFFFF
  | 0x02, _ => 0xFFFFFFFF
  | 0x10, 0 => 0xFF3FFFFF
  | 0x10, _ => 0xFFFFFFFF
  | 0x11, 0 => 0x01FFF7FF
  | 0x11, 2 => 0x0000FFFF
  | 0x11, _ => 0xFFFFFFFF
  | 0x12, 0 => 0x000007FF
  | 0x12, 2 => 0x000FFFFF
  | 0x12, _ => 0xFFFFFFFF
  | 0x13, 0 => 0x001F07FF
  | 0x13, 2 => 0x000FFFFF
  | 0x13, _ => 0xFFFFFFFF
  | 0x20, 0 => 0x000007FF
  | 0x20, 3 => 0x0000FFFF
  | 0x20, _ => 0xFFFFFFFF
  | 0x21, 0 => 0x000007FF
  | 0x21, 2 => 0x000000FF
  | 0x21, _ => 0xFFFFFFFF
  | 0x22, 0 => 0x00007FFF
  | 0x22, 2 => 0x000000FF
  | 0x22, _ => 0xFFFFFFFF
  | 0x30, 0 | 0x31, 0 => 0x003F03FF
  | 0x30, 1 | 0x31, 1 => 0x0000FFFF
  | 0x32, 0 => 0x000003FF
  | 0x33, 0 => 0x000007FF
  | 0x33, 1 => 0x0000FFFF
  | 0x33, 2 => 0x001FFFFF
  | 0x34, 0 => 0x00FF03FF
  | _, _ => 0

/-- A field of a command's word. -/
def cf (e : QEntry) (i lo w : Nat) : Nat := bitsOf ((entryWords e).getD i 0).toNat lo w

/-- A reserved field is not zero (R169). -/
def reservedBad (e : QEntry) : Bool :=
  (upTo 4).any (fun i =>
    let w := ((entryWords e).getD i 0).toNat
    w &&& fieldMask (opcodeOf e) i != w)

/-- The values FUNC takes (R173). -/
def funcOk (f : Nat) : Bool :=
  decide (f ≤ 0x0B) || within 0x10 0x15 f || within 0x20 0x21 f || within 0x30 0x32 f || f = 0x40 || f = 0x50 || within 0x60 0x61 f

/-- VEC operations that read an operand B (R173). -/
def funcTakesB (f : Nat) : Bool :=
  decide (f ≤ 0x04) || within 0x08 0x0B f || within 0x10 0x15 f || f = 0x50

/-- The per-lane limits of R91, and zero per-lane fields without PERLANE (R171). -/
def streamFieldsBad (e : QEntry) : Bool :=
  let dw := cf e 0 22 3 + 1
  let sw := cf e 0 25 3 + 1
  let kh := cf e 2 20 3 + 1
  let kw := cf e 2 23 5 + 1
  if cf e 0 14 1 = 1 then decide (32 < kh * kw) || decide (8 < (kw - 1) * dw + 1)
  else dw != 1 || sw != 1 || kh != 1 || kw != 1

/-- A field of the command is out of range (R169, R171, R173, R175, R254, R264). -/
def fieldBad (s : State) (t : TileId) (q : Engine) (e : QEntry) : Bool :=
  reservedBad e ||
  match opcodeOf e with
  | 0x02 => streamFieldsBad e
  | 0x10 => !funcOk (cf e 0 24 8)
  | 0x33 => cf e 2 10 11 = 0 || decide (1024 < cf e 2 0 10 + cf e 2 10 11)
  | 0x21 | 0x22 => let d := cf e 2 0 8; d != 0xFF && (q = .vec || decide (32 ≤ d))
  | 0x30 | 0x31 =>
    match (tile s t).job with
    | some j => !j.barMask.testBit (cf e 0 16 6)
    | none => false
  | _ => false

/-- A use of a handle field: 0 unused (must be null), 1 optional, 2 required (R149). -/
structure HUse where
  h : Nat
  use : Nat
  out : Bool
  deriving DecidableEq, Repr

/-- The handles of a command in field order (R149, R170 to R177). -/
def cmdHandles (e : QEntry) : List HUse :=
  match opcodeOf e with
  | 0x01 => [⟨cf e 1 0 16, 2, false⟩]
  | 0x02 => [⟨cf e 1 0 16, 2, false⟩, ⟨cf e 1 16 16, if cf e 0 11 1 = 1 then 2 else 1, cf e 0 11 1 = 1⟩]
  | 0x10 => [⟨cf e 1 0 16, if cf e 0 12 1 = 1 then 0 else 2, false⟩,
      ⟨cf e 1 16 16, if funcTakesB (cf e 0 24 8) then 2 else 0, false⟩, ⟨cf e 2 0 16, 2, true⟩]
  | 0x11 => [⟨cf e 1 0 16, 2, false⟩, ⟨cf e 1 16 16, 2, true⟩]
  | 0x12 => [⟨cf e 1 0 16, 2, false⟩, ⟨cf e 1 16 16, 2, true⟩, ⟨cf e 3 16 16, 0, false⟩]
  | 0x13 => [⟨cf e 1 0 16, 2, false⟩, ⟨cf e 1 16 16, 2, true⟩, ⟨cf e 3 16 16, 2, false⟩]
  | 0x20 => [⟨cf e 1 0 16, 2, false⟩, ⟨cf e 1 16 16, 2, false⟩, ⟨cf e 2 0 16, 2, true⟩]
  | 0x21 | 0x22 => [⟨cf e 1 0 16, 2, false⟩, ⟨cf e 1 16 16, 2, true⟩]
  | 0x33 => [⟨cf e 1 0 16, 2, true⟩]
  | _ => []

/-- The partition a tile's engines act for (R374). -/
def tilePart (s : State) (t : TileId) : PartId := partOf (fget s (pgTile t) Fl.ownerPart)

/-- A handle field that breaks R149 or R150. -/
def handleBad (s : State) (t : TileId) (u : HUse) : Bool :=
  if u.h = 0xFFFF then u.use = 2
  else u.use = 0 || decide (4096 ≤ u.h) || decide (fget s (pgPart (tilePart s t)) Fl.partDescCntCount ≤ u.h)

/-! ## The descriptor store (R151, R152) -/

def descOf (x : Tile) (h : Nat) : Option (List Word) := (x.descs.find? (fun e => e.1 = h)).map Prod.snd

/-- Start the copy of a descriptor; a 65th distinct handle in a job is refused and the job faults (R151). -/
def requestDesc (t : TileId) (qn : Nat) (cmd : List Word) (h : Nat) (s : State) : State :=
  let x := tile s t
  if (descOf x h).isSome || x.descPend.contains h then s
  else if 64 ≤ x.descs.length + x.descPend.length then faultJob t 1 4 (commandFault t (pgTile t) qn 1 4 cmd s)
  else setTile t { x with descPend := x.descPend ++ [h] } s

/-! ## The order of checks (R519) -/

/-- What the checks find. -/
inductive Verdict where
  /-- The first check that fails: class and detail. -/
  | reject (cls det : Nat)
  /-- Descriptors not yet in the store. -/
  | wait (missing : List Nat)
  /-- Every descriptor, by handle field; `none` for a null handle. -/
  | ready (ds : List (Option (List Word)))

/-- The tile a descriptor names, after a redirect (R154, R430). -/
def effTile (s : State) (d : List Word) : TileId := if dTile d < 96 then redirTile s (tileOf (dTile d)) else tileOf (dTile d)

/-- The operand lies in the scratchpad of the tile (R154). -/
def onTile (s : State) (t : TileId) (d : List Word) : Bool :=
  decide (2 ≤ dLoc d) && decide (dTile d < 96) && decide (effTile s d = t)

/-- The words of stream descriptor `d` of an engine's page, as committed (R254, R282). -/
def sdescWords (s : State) (t : TileId) (e : StrmId) (d : Nat) : List Word :=
  (upTo 8).map (fun i => rd s (pgStrm t e) (0x400 + 0x20 * d + 4 * i))

/-- A MOVE or REGROUP of a stream engine whose descriptor selects HALO_EXCHANGE (R160, R255). -/
def haloCmd (s : State) (t : TileId) (q : Engine) (e : QEntry) : Bool :=
  let w := sdescWords s t (if q = .s1 then 1 else 0) (cf e 2 0 8)
  (q = .s0 || q = .s1) && (opcodeOf e = 0x21 || opcodeOf e = 0x22) && cf e 2 0 8 != 0xFF && sdValid w && sdHalo w

/-- Checks 1 to 4 for a command of any queue; `strm` for the stream engines' commands. -/
def checkHead (s : State) (t : TileId) (q : Engine) (e : QEntry) : Verdict :=
  if !e.passed && !opAccepted (opcodeOf e) q then .reject 2 0x10
  else if !e.passed && fieldBad s t q e then .reject 2 0x18
  else
    let us := cmdHandles e
    if !e.passed && us.any (handleBad s t) then .reject 2 0x11
    else
      let x := tile s t
      let hs := (us.filter (fun u => u.h != 0xFFFF)).map HUse.h
      let missing := hs.filter (fun h => (descOf x h).isNone)
      if !missing.isEmpty then .wait missing
      else
        let ds := us.map (fun u => if u.h = 0xFFFF then none else descOf x u.h)
        let all := ds.filterMap id
        let local' := q = .lane || q = .vec
        if e.passed then .ready ds else
        if q = .vec && opcodeOf e = 0x21 && all.any (fun d => !onTile s t d) then .reject 2 0x10
        else if all.any (fun d => dBad d || (local' && !onTile s t d)) then .reject 2 0x12
        else if opcodeOf e = 0x33 && all.any (fun d => !onTile s t d) then .reject 2 0x12
        else if all.any dAdpBad then .reject 2 0x16
        else if (opcodeOf e = 0x22 || haloCmd s t q e) && all.any (fun d => dLoc d != 3 && dChlast d) then .reject 2 0x15
        else if !jobSafe s t && (us.zip ds).any (fun p => p.1.out && (match p.2 with | some d => dCrit d | none => false)) then .reject 2 0x17
        else .ready ds

/-- A SLOT operand names a ring that is not valid (R161). -/
def ringInvalid (s : State) (ds : List (Option (List Word))) : Bool :=
  ds.any (fun o => match o with
    | some d => dLoc d = 3 && !ringValid s (effTile s d) (dRing d)
    | none => false)

/-- A SPAD tensor's last addressed byte lies beyond its tile's scratchpad (R241). -/
def spadAlloc (ds : List (Option (List Word))) : Bool :=
  ds.any (fun o => match o with
    | some d => dLoc d = 2 && decide (0x1000000000 + (dTile d + 1) * 0x100000 < dBase d + tensorSpan d)
    | none => false)

/-- Is an output of this descriptor subject to the saturation test: narrow integer and wide re-runs enabled (R134). -/
def wideEligible (d : List Word) : Bool := decide (dType d ≤ 1) && dSatLimit d != 0xFFFF

/-- The buffers of a ring are sized for the INT16 form of `rows` rows from a byte offset of the narrow form (R137). -/
def slotWideRoom (s : State) (t : TileId) (d : List Word) (bytes : Nat) : Bool :=
  decide (bytes * (16 / etBits (dType d)) ≤ bufBytes s t (dRing d))

/-- The source buffer is FULL (R167). -/
def slotReadable (s : State) (t : TileId) (r : Nat) : Bool := bufState s t r (rdIdx s t r) = 2
/-- The destination buffer is EMPTY (R167). -/
def slotWritable (s : State) (t : TileId) (r : Nat) : Bool := bufState s t r (wrIdx s t r) = 0

/-- The buffer that a read takes after `k` reads of the same command have consumed buffers of its ring (R165; log 98). -/
def rdAt (s : State) (t : TileId) (r k : Nat) : Nat := (rdIdx s t r + k) % ringBufs s t r

/-- The type of the elements a source holds: INT16 where its buffer is tagged WIDE (R135). -/
def srcTypeAt (k : Nat) (s : State) (d : List Word) : Nat :=
  if dLoc d = 3 && bufWide s (effTile s d) (dRing d) (rdAt s (effTile s d) (dRing d) k) then 2 else dType d
def srcType (s : State) (d : List Word) : Nat := srcTypeAt 0 s d

/-- Scratchpad offset of an operand's start: its base, or the start of the buffer in use. -/
def srcStartAt (k : Nat) (s : State) (d : List Word) : Nat :=
  let t := effTile s d
  if dLoc d = 3 then bufOff s t (dRing d) (rdAt s t (dRing d) k) else dBase d % 0x100000
def srcStart (s : State) (d : List Word) : Nat := srcStartAt 0 s d

/-- Buffers of the ring of `d` that the reads before it consume. -/
def consumedBefore (d : List Word) (reads : List (List Word × Bool)) : Nat :=
  if dLoc d = 3 then (reads.filter (fun p => p.2 && decide (dLoc p.1 = 3) && decide (dRing p.1 = dRing d))).length else 0
def dstStart (s : State) (d : List Word) : Nat :=
  let t := effTile s d
  if dLoc d = 3 then bufOff s t (dRing d) (wrIdx s t (dRing d)) else dBase d % 0x100000

/-- The ring and buffer an operand uses, for a SLOT operand. -/
def slotUse (s : State) (d : List Word) (write : Bool) (k : Nat := 0) : Option (Nat × Nat) :=
  let t := effTile s d
  if dLoc d = 3 then some (dRing d, if write then wrIdx s t (dRing d) else rdAt s t (dRing d) k) else none

/-- The slot checks of R167 for an engine that violates: SLOT_READ for a source, SLOT_WRITE for an output. Each source,
with whether it is consumed, must find its own buffer FULL. -/
def slotCheck (s : State) (t : TileId) (srcs : List (List Word × Bool)) (outs : List (List Word)) : Option Nat :=
  if srcs.zipIdx.any (fun p => dLoc p.1.1 = 3 && bufState s t (dRing p.1.1) (rdAt s t (dRing p.1.1) (consumedBefore p.1.1 (srcs.take p.2))) != 2)
  then some 1
  else if outs.any (fun d => dLoc d = 3 && !slotWritable s t (dRing d)) then some 2
  else none

/-- One more cycle of a wait at dispatch under interlock; past SEQ_ILOCK_LIMIT it ends in the violation it replaced
(R212). The command is at the last check of R519, and has passed those before it. -/
def ilockHold (t : TileId) (q : Engine) (e : QEntry) (det : Nat) (s : State) : State :=
  let n := if e.waitDet = det then e.waited + 1 else 1
  let s := updEntry t q e.num (fun x => { x with waited := n, waitDet := det, passed := true }) s
  if fget s (pgSeq t) Fl.seqIlockLimitCycles < n then violation t q e det s else s

/-- A wait on a slot or on accumulator rows, which counts as a stall of its cause (R212). -/
def ilockWait (t : TileId) (q : Engine) (e : QEntry) (det cause : Nat) (s : State) : State :=
  ilockHold t q e det (stall t cause s)

/-- What the checks before the last find; a command that waits at the last is checked against that alone (R519). -/
def unlessPassed (e : QEntry) (v : Option (Nat × Nat)) : Option (Nat × Nat) := if e.passed then none else v

/-- Take the slot steps of a lane or vector command: reads in order, then the output (R165). -/
def takeSteps (t : TileId) (reads : List (List Word × Bool)) (outs : List (List Word)) (wide : Bool) (s : State) :
    State × List SlotStep :=
  let r := reads.foldl (fun (a : State × List SlotStep) p =>
    if dLoc p.1 = 3 then
      let x := takeRead t (dRing p.1) p.2 a.1
      (x.1, a.2 ++ [x.2])
    else a) (s, [])
  let inv := r.2.any (fun p => bufInvalid s t p.ring p.buf)
  outs.foldl (fun (a : State × List SlotStep) d =>
    if dLoc d = 3 then
      let x := takeWrite t (dRing d) a.1
      (x.1, a.2 ++ [{ x.2 with wide := wide, invalid := inv }])
    else a) r

/-- A command that dispatches: its entry runs, with its steps. -/
def dispatched (t : TileId) (q : Engine) (num : Nat) (f : QEntry → QEntry) (s : State) : State :=
  updEntry t q num (fun e => { f e with phase := .running }) s

/-- Run the checks for the head entry with opcode `op` of a queue, and `k` with its descriptors when it passes checks 1
to 4; an entry whose opcode its queue does not accept is rejected whichever command tries it (R169). -/
def withHead (s : State) (t : TileId) (q : Engine) (op : Nat)
    (k : QEntry → List (Option (List Word)) → State) : State :=
  if !mayDispatch s t q then s else
  match headEntry (queue s t q) with
  | none => s
  | some e =>
    if !opAccepted (opcodeOf e) q then rejectCmd t q e 2 0x10 s
    else if opcodeOf e != op then s
    else match checkHead s t q e with
      | .reject c d => rejectCmd t q e c d s
      | .wait hs =>
        let s := fbump (pgTile t) Fl.tileDescStatWait 1 s
        hs.foldl (fun s h => requestDesc t (engNo q) (entryWords e) h s) s
      | .ready ds => k e ds

/-- Merge a staged statistics value (R128). -/
def mergeStat (l : List StagedStat) (x : StagedStat) : List StagedStat :=
  if l.any (fun y => y.entry = x.entry) then
    l.map (fun y => if y.entry = x.entry then { y with max := Nat.max y.max x.max, sats := y.sats + x.sats } else y)
  else l ++ [x]

/-- The effects of writing converted elements on an entry: staged statistics, counts of elements and saturations, those in
adaptive channels apart (R128, R134). -/
def stageRow (cfgs : List ChanCfg) (convs : List Conv) (bf : Bool) (e : QEntry) : QEntry :=
  let ps := cfgs.zip convs
  let stats := ps.foldl (fun l p => match p.1.entry with
    | some n => mergeStat l ⟨n, min p.2.mag 0xFFFF, b2n p.2.sat, p.1.range, p.1.adaptive, bf⟩
    | none => l) e.stats
  let sats := (ps.filter (fun p => p.2.sat && !p.1.adaptive)).length
  { e with stats := stats, elems := e.elems + convs.length, sats := e.sats + sats }

end Sys2Proof.Machine
end

