-- ==== Sys2Proof/Machine/Access.lean ====
section
/-! DEFINITION. Requests into the device address space: who they are for, how they are routed over the links, what the
serving die's firewall says, and whether their target is in service (01, R18 to R33; 09, R290, R295, R315, R316; 11,
R374, R378 to R380; 12, R430). -/

namespace Sys2Proof.Machine

/-! ## Requesters (R374, R379) -/

/-- The page that records a requester's faults (R379). -/
def reqPage : Requester → PageKey
  | .host p => pgSdio p
  | .fw _ _ => pgXcore
  | .tile t q => pgEngine t q
  | .seq t => pgSeq t
  | .camera n => pgCam n
  | .channel e _ => pgEng e

/-- The partition tag of a request (R374). -/
def reqPart (s : State) : Requester → PartId
  | .host p => p
  | .fw p _ => p
  | .tile t q => partOf (fget s (pgEngine t q) Fl.ownerPart)
  | .seq t => partOf (fget s (pgSeq t) Fl.ownerPart)
  | .camera n => partOf (fget s (pgCam n) Fl.ownerPart)
  | .channel e c => partOf (fget s (pgEng e) (Fl.chOwnPart c.val))

/-- The SAFE bit of a request (R374). -/
def reqSafe (s : State) : Requester → Bool
  | .fw _ safe => safe
  | .tile t _ => jobSafe s t
  | .seq t => jobSafe s t
  | _ => false

/-- The requester is a firmware core. -/
def isFw : Requester → Bool
  | .fw _ _ => true
  | _ => false

/-- The die a request starts from. -/
def reqDie : Requester → Die
  | .tile _ _ | .seq _ => .cd
  | _ => .xd

/-! ## Wake requests (R446, R447, R449) -/

/-- The domains a domain requires, itself last (R446). -/
def wakeChain (d : Nat) : List Nat := if d ≤ 11 then [13, 12, d] else if d = 12 then [13, 12] else [d]

/-- Queue a wake request unless the domain is on, ramping or queued (R447, R449). -/
def wakeOne (p : PartId) (s : State) (d : Nat) : State :=
  if domainOn s d || fbit s pgPwr Fl.pwrDomBusyRamp d || s.wakeQ.any (fun w => w.1.val = d) then s
  else { s with wakeQ := s.wakeQ ++ [(domOf d, p)] }

/-- A wake request of a domain, with the requests of what it requires (R447). -/
def requestWake (d : Nat) (p : PartId) (s : State) : State := (wakeChain d).foldl (wakeOne p) s

/-! ## The memory configuration and a subchannel's way into service (R285, R313, R314, R318) -/

/-- The subchannels each hub populates, n, by the SUBCH code (R318). -/
def cfgSubs (w : Word) : Nat := match Fl.hubMemCfgSubch.get w with
  | 0 => 1
  | 1 => 2
  | _ => 4

/-- Package capacity of a configuration in GiB: 2 · n · ranks · data devices · GiB of one (R285). -/
def cfgGib (w : Word) : Nat :=
  2 * cfgSubs w * (Fl.hubMemCfgRanks.get w + 1) * (if Fl.hubMemCfgWidth.get w = 1 then 2 else 4) * (Fl.hubMemCfgDensity.get w + 2)

/-- A configuration inside the limits of R285. -/
def cfgOk (w : Word) : Bool :=
  Fl.hubMemCfgSubch.get w != 3 && Fl.hubMemCfgDensity.get w != 3 && Fl.hubMemCfgSpeed.get w != 3 && within 8 64 (cfgGib w)

/-- The configuration that decides the capacity: the one in force, or HUB_MEM_CFG while every subchannel is OFF (R318). -/
def memConfig (s : State) : Word := s.memCfg.getD (rd s (pgHub 0) 0x100)

/-- Package capacity in bytes (R33, R318); a configuration that R285 refuses populates nothing. -/
def ddrCapacity (s : State) : Nat := if cfgOk (memConfig s) then cfgGib (memConfig s) * 2 ^ 30 else 0

/-- The subchannels each hub populates (R285). -/
def subCount (s : State) : Nat := cfgSubs (memConfig s)

/-- What a subchannel holds beside its page's registers. -/
def subSt (s : State) (i : Nat) : SubSt := Tab.get {} s.subs i
def setSub (i : Nat) (x : SubSt) (s : State) : State := { s with subs := Tab.put s.subs i x }

/-- The HUB page of a HUB_DDR page. -/
def hubPageOf (i : Nat) : PageKey := ⟨.hub, i / 4⟩

/-- HUB_MEM_CFG cannot be brought up: outside R285, different on the two hubs, or other than the one in force (R317). -/
def cfgRefused (s : State) (i : Nat) : Bool :=
  let w := rd s (hubPageOf i) 0x100
  !cfgOk w || decide (rd s ⟨.hub, 0⟩ 0x100 ≠ rd s ⟨.hub, 1⟩ 0x100) || (match s.memCfg with
    | some m => decide (m ≠ w)
    | none => false)

/-- Every HUB_DDR page other than `i` is OFF. -/
def othersOff (s : State) (i : Nat) : Bool := (upTo 8).all (fun j => decide (j = i) || decide (fget s ⟨.hubDdr, j⟩ Fl.state = 0))

/-- A HUB_DDR page is OFF: with every one OFF no configuration is in force (R318). -/
def subIsOff (i : Nat) (s : State) : State := if othersOff s i then { s with memCfg := none } else s

/-- The training record of a subchannel that R314 lets TURNING_ON use: none after a lane's drift beyond its limit (R311), nor
with other devices than it was taken with (log 41). -/
def trainRecOf (s : State) (i : Nat) : Option TrainRec :=
  if fon s pgSnt Fl.sntCtrlIgnore || (subSt s i).retrain then none
  else s.trained.find? (fun r => decide (r.page = i ∧ r.cfg = rd s (hubPageOf i) 0x100 ∧ r.devs = Tab.get 0 s.devs i))

/-- The settings of a subchannel as they stand (R314, R315). -/
def settings (s : State) (i : Nat) : TrainRec :=
  ⟨i, rd s (hubPageOf i) 0x100, (upTo 5).map (fun l => rd s ⟨.hubDdr, i⟩ (0x110 + 4 * l)), rd s ⟨.hubDdr, i⟩ 0x130,
    Tab.get 0 s.devs i⟩

/-- PHASE of HUB_DDR_STATUS while a subchannel is brought up: self-refresh exit, restore or full training (R313). -/
def bringUpPhase (s : State) (i : Nat) : Nat :=
  if (subSt s i).selfRef.map (fun r => r.cfg) = some (rd s (hubPageOf i) 0x100) then 4
  else if (trainRecOf s i).isSome then 2 else 1

/-- A subchannel whose page is TURNING_ON with its domain powered starts on its path: no record is used yet, and an
initialisation of its devices ends their self-refresh (R313, R318, R319). A configuration that is refused starts nothing. -/
def startSub (i : Nat) (s : State) : State :=
  let w := rd s (hubPageOf i) 0x100
  let bad := if cfgRefused s i then 1 else if cfgSubs w ≤ i % 4 then 2 else 0
  let pg : PageKey := ⟨.hubDdr, i⟩
  let s := fset pg Fl.hubDdrStatusRestored 0 (setSub i { subSt s i with check := bad } s)
  if bad ≠ 0 then s else
  let ph := bringUpPhase s i
  let s := if ph = 4 then s else setSub i { subSt s i with selfRef := none } s
  let s := fset pg Fl.hubDdrStatusPhase ph s
  if s.memCfg.isNone then { s with memCfg := some w } else s

/-- What begins on a page that is TURNING_ON once its domain is powered. -/
def startOn (pg : PageKey) (s : State) : State :=
  if !pagePowered s pg then s else
  match pg.kind with
  | .hubDdr => startSub pg.inst s
  | _ => s

/-! ## CTRL.EN (R48 to R50, R105) -/

/-- Pages whose EN and STATE are those of their tile's TILE page (R105). -/
def followsTile (pg : PageKey) : Bool := decide (pg.kind = .scale ∨ pg.kind = .stats)

/-- CTRL.EN is written 1: the state table of R48, with the wake request of R49. -/
def enableCore (pg : PageKey) (p : PartId) (s : State) : State :=
  if fixedOn pg || followsTile pg then s else
  let s := fset pg Fl.ctrlEn 1 s
  match fget s pg Fl.state with
  | 0 =>
    let s := enterState pg 1 s
    let s := match domainOfPage pg with
      | some d => requestWake d p s
      | none => s
    startOn pg s
  | 3 => enterState pg 4 s
  | _ => s

/-- A STRM page leaves ON: its channels are disarmed, their blocks in progress reversed (R274). -/
def leaveOn (pg : PageKey) (s : State) : State :=
  match pg.kind with
  | .strm0 => disarmChans (tileOf pg.inst) 0 s
  | .strm1 => disarmChans (tileOf pg.inst) 1 s
  | _ => s

/-- CTRL.EN is written 0 (R48). -/
def disableCore (pg : PageKey) (s : State) : State :=
  if fixedOn pg || followsTile pg then s else
  let s := fset pg Fl.ctrlEn 0 s
  match fget s pg Fl.state with
  | 2 | 4 | 7 => enterState pg 3 (leaveOn pg s)
  | _ => s

/-! ## Links and routes (R14, R18, R23, R25, R26) -/

/-- The two dies link `k` joins (R15). -/
def linkEnds (k : LinkId) : Die × Die :=
  match k.val with
  | 0 => (.cd, .ha)
  | 1 => (.cd, .hb)
  | 2 => (.cd, .xd)
  | 3 => (.ha, .hb)
  | 4 => (.xd, .ha)
  | _ => (.xd, .hb)

/-- The direct link of two dies (R18). -/
def directLink (a b : Die) : Option LinkId :=
  ((List.range 6).map (fun i => (⟨i % 6, Nat.mod_lt _ (by decide)⟩ : LinkId))).find?
    (fun k => decide (linkEnds k = (a, b) ∨ linkEnds k = (b, a)))

/-- STATE of a link: 0 OFF, 1 TRAINING, 2 UP, 3 RETRAIN, 4 DOWN (R27). -/
def linkState (s : State) (k : LinkId) : Nat := fget s (pgHub 0) (Fl.hubLinkStatState k.val)

/-- GB/s of a link per direction (R15). -/
def linkWidth (k : LinkId) : Nat := match k.val with
  | 0 | 1 => 512
  | 2 => 256
  | _ => 128

/-- What the model keeps of a link beside its register. -/
def linkSt (s : State) (k : LinkId) : LinkSt := Tab.get {} s.links k
def setLinkSt (k : LinkId) (x : LinkSt) (s : State) : State := { s with links := Tab.put s.links k x }

/-- The links along a walk over dies. -/
def walkLinks : List Die → Option (List LinkId)
  | a :: b :: r => (directLink a b).bind (fun k => (walkLinks (b :: r)).map (fun l => k :: l))
  | _ => some []

/-- Dies in the order a tie between detours is decided (R23). -/
def dieOrder : List Die := [.ha, .hb, .cd, .xd]

/-- Detours of two or three links between two dies, in the order of preference of dies (R23). DESIGN CHOICE (log 93): two
paths of three links run through the same two dies, which the order of dies cannot tell apart; the one whose first die
after the sender comes first is taken. -/
def detours (a b : Die) : List (List LinkId) :=
  let mid := dieOrder.filter (fun d => d != a && d != b)
  let two := mid.filterMap (fun m => walkLinks [a, m, b])
  let three := mid.flatMap (fun m => mid.filterMap (fun n => if m = n then none else walkLinks [a, m, n, b]))
  two ++ three

/-- The narrowest link of a path. -/
def bottleneck (l : List LinkId) : Nat := l.foldl (fun b k => min b (linkWidth k)) 512

/-- The preferred path: fewest links, then the greatest bottleneck, then the order of dies (R23). -/
def bestPath (ps : List (List LinkId)) : Option (List LinkId) :=
  ps.foldl (fun best p => match best with
    | none => some p
    | some b => if p.length < b.length ∨ (p.length = b.length ∧ bottleneck b < bottleneck p) then some p else some b) none

/-- Where a new request goes. -/
inductive Route where
  /-- Over these links; none when both ends are one die. -/
  | path (l : List LinkId)
  /-- It waits at a port for link `k`. -/
  | held (k : LinkId)
  /-- No path (R26). -/
  | noRoute
  deriving DecidableEq, Repr

/-- The path that R23 prefers among those that survive: a link that is OFF or in TRAINING is waited for, and not detoured
around (R26). -/
def detourPath (s : State) (a b : Die) : Option (List LinkId) :=
  bestPath ((detours a b).filter (fun p => p.all (fun k => decide (linkState s k ≤ 2))))

/-- The detour between two dies: the surviving path, or the first link of it that is not UP yet (R23, R26). DESIGN CHOICE
(log 93): while DETOUR of the link is 1, a new request takes whichever path is preferred then, also where a second link has
left service since the detour was put in place. -/
def detourOf (s : State) (a b : Die) (k : LinkId) : Route :=
  match detourPath s a b with
  | none => .noRoute
  | some p => match p.find? (fun k => decide (linkState s k ≤ 1)) with
    | some m => .held m
    | none => if fon s (pgHub 0) (Fl.hubLinkStatDetour k.val) then .path p else .held k

/-- The route of a new request (R18, R23, R25, R26). -/
def routeOf (s : State) (a b : Die) : Route :=
  if a = b then .path [] else
  match directLink a b with
  | none => .noRoute
  | some k =>
    match linkState s k with
    | 0 | 1 => .held k
    | 2 => if fon s (pgHub 0) (Fl.hubLinkStatDetour k.val) then (match detourOf s a b k with
        | .noRoute => .path [k]
        | r => r) else .path [k]
    | _ => detourOf s a b k

/-- The switched domain that holds link `k`'s port on a die (R446). -/
def linkDomain (d : Die) : Option Nat := match d with
  | .cd => some 13
  | .ha => some 14
  | .hb => some 16
  | .xd => none

/-- A request held for a link in state OFF wakes the domains of its endpoints that are off (R26, R447). -/
def wakeLink (k : LinkId) (p : PartId) (s : State) : State :=
  let e := linkEnds k
  ([e.1, e.2].filterMap linkDomain).foldl (fun s d => requestWake d p s) s

/-! ## Regions (R31 to R33) -/

/-- What an address names. -/
inductive Region where
  | ddr (h : HubId) (c : Sub)
  | spad (t : TileId)
  | window (h : HubId) (w : Nat)
  | sram
  | regs
  | none
  deriving DecidableEq, Repr

/-- The hub of a DDR address (R32) and its subchannel (R290). -/
def ddrHub (a : Nat) : HubId := if a.testBit 12 then 1 else 0
def ddrSub (s : State) (a : Nat) : Sub :=
  match subCount s with
  | 1 => 0
  | 2 => ⟨bitsOf a 8 1 % 4, Nat.mod_lt _ (by decide)⟩
  | _ => ⟨bitsOf a 8 2 % 4, Nat.mod_lt _ (by decide)⟩

/-- Decode an address (R31). Firmware SRAM is unmapped for all but the firmware cores. -/
def regionOf (s : State) (who : Requester) (a : Nat) : Region :=
  if a < 0x1000000000 then (if a < ddrCapacity s then .ddr (ddrHub a) (ddrSub s a) else .none)
  else if within 0x1000000000 0x1005FFFFFF a then .spad (tileOf ((a - 0x1000000000) / 0x100000))
  else if within 0x1800000000 0x1803FFFFFF a then
    .window (if a < 0x1802000000 then 0 else 1) ((a - 0x1800000000) % 0x2000000 / 0x200000)
  else if within 0x1C00000000 0x1C000FFFFF a then (if isFw who then .sram else .none)
  else if within 0x2000000000 0x20FFFFFFFF a then .regs
  else .none

/-- The page and offset of a place in a tile's 64 KiB register block (R36): nine pages, then the windows of SEQ and SCALE. -/
def tileSlot (t : TileId) (off : Nat) : Option (PageKey × Nat) :=
  let o := off % 0x1000
  match off / 0x1000 with
  | 0 => some (pgTile t, o)
  | 1 => some (pgSeq t, o)
  | 2 => some (pgLane t, o)
  | 3 => some (pgVec t, o)
  | 4 => some (pgSpad t, o)
  | 5 => some (pgStrm t 0, o)
  | 6 => some (pgStrm t 1, o)
  | 7 => some (pgScale t, o)
  | 8 => some (pgStats t, o)
  | 9 => some (pgSeq t, if o < 0x400 then 0x10000 + o else 0x300)
  | 10 | 11 => some (pgScale t, 0x10000 + (off - 0xA000))
  | 12 | 13 | 14 | 15 => some (pgSeq t, 0x20000 + (off - 0xC000))
  | _ => none

/-- The page and offset of a register-space address; none where no page or window lies (R35, R36). -/
def regTarget (a : Nat) : Option (PageKey × Nat) :=
  let o := a - 0x2000000000
  let q := o % 0x1000
  if a < 0x2000000000 then none
  else if within 0x01000000 0x015FFFFF o then tileSlot (tileOf ((o - 0x01000000) / 0x10000)) (o % 0x10000)
  else if within 0x02000000 0x0202FFFF o then
    let n := portOf ((o - 0x02000000) / 0x4000)
    match (o - 0x02000000) % 0x4000 / 0x1000 with
    | 0 => some (pgCam n, q)
    | 1 => some (pgIsp n, q)
    | 2 => some (pgTap n, q)
    | _ => none
  else if within 0x03000000 0x031FFFFF o then
    let h := (o - 0x03000000) / 0x100000
    match (o - 0x03000000) % 0x100000 / 0x1000 with
    | 0 => some (⟨.hub, h⟩, q)
    | 1 => some (⟨.hubDdr, 4 * h⟩, q)
    | 2 => some (⟨.hubDdr, 4 * h + 1⟩, q)
    | 3 => some (⟨.hubDdr, 4 * h + 2⟩, q)
    | 4 => some (⟨.hubDdr, 4 * h + 3⟩, q)
    | 5 => some (⟨.hubLlc, h⟩, q)
    | _ => none
  else if within 0x04000000 0x04003FFF o then some (pgPart (partOf ((o - 0x04000000) / 0x1000)), q)
  else if within 0x05000000 0x0500EFFF o then
    some (nth pgXcore ([pgClk, pgPwr, pgThm, pgSnt, pgFum, pgCal, pgSec, pgEng .warp, pgEng .codec, pgEng .token] ++ allParts.map pgSdio)
      ((o - 0x05000000) / 0x1000), q)
  else none

/-- The die that serves an address (R31, R35). -/
def regionDie (a : Nat) : Region → Die
  | .ddr h _ | .window h _ => if h.val = 0 then .ha else .hb
  | .spad _ => .cd
  | .regs => match regTarget a with
    | some t => dieOfPage t.1
    | none => .xd
  | _ => .xd

/-- Where an address lies in `mem` after a redirect: a scratchpad's bytes are those of the tile it is delivered to. -/
def physAddr (s : State) (a : Nat) : Nat :=
  if within 0x1000000000 0x1005FFFFFF a then
    spadBase (redirTile s (tileOf ((a - 0x1000000000) / 0x100000))) + (a - 0x1000000000) % 0x100000
  else a

/-- The parts of `[a, a+len)` in each line it touches: first address and bytes. -/
def lineCuts (a len : Nat) : List (Nat × Nat) :=
  (upTo (if len = 0 then 0 else (a + len - 1) / 64 - a / 64 + 1)).map (fun i =>
    let lo := if i = 0 then a else (a / 64 + i) * 64
    (lo, min (a + len) ((a / 64 + i + 1) * 64) - lo))

/-- What a requester's reads return, line by line; a line of register space reads 0 (R37; log 70). -/
def peekReq (s : State) (a n : Nat) : List Byte := (lineCuts a n).flatMap (fun c => peek s (physAddr s c.1) c.2)

/-- A word read through the network. -/
def reqWord (s : State) (a : Nat) : Word := BitVec.ofNat 32 (leNat (peekReq s a 4))

/-- Mode of an LLC way: 0 CACHE, 1 WINDOW, 2 OFF; 3 acts as OFF (R321). -/
def wayMode (s : State) (h : HubId) (w : Nat) : Nat := min 2 (bitsOf (fget s (pgLlc h) Fl.hubLlcWaymodeMode) (2 * w) 2)
def wayOwner (s : State) (h : HubId) (w : Nat) : Nat := bitsOf (fget s (pgLlc h) Fl.hubLlcWayownPart) (2 * w) 2

/-! ## Firewalls (R295, R378) -/

/-- An enabled DDR range of a partition that holds the address. -/
def inDdrRange (s : State) (p : PartId) (k a : Nat) : Bool :=
  fon s (pgPart p) (Fl.partDdrLimitEn k) &&
    within (fget s (pgPart p) (Fl.partDdrBaseBase k)) (fget s (pgPart p) (Fl.partDdrLimitLimit k)) (a / 0x10000)

/-- Tile `t` is in a partition's tile mask. -/
def inTileMask (s : State) (p : PartId) (t : TileId) : Bool :=
  fon s (pgPart p) Fl.partCfgValid && fbit s (pgPart p) (Fl.partTilesMask (t.val / 32)) (t.val % 32)

/-- The firewall of the serving die: the class 0x05 detail of a refusal (R373, R378). -/
def firewall (s : State) (p : PartId) (safe write : Bool) (a : Nat) : Region → Option Nat
  | .ddr _ _ =>
    if safe && !fon s (pgPart p) Fl.partCfgSafety then some 7
    else
      let ks := (upTo 4).filter (fun k => fon s (pgPart p) Fl.partCfgValid && inDdrRange s p k a)
      if ks.isEmpty then some 1
      else if write && ks.any (fun k => fon s (pgPart p) (Fl.partDdrLimitRo k)) then some 2 else none
  | .spad t =>
    if safe && !fon s (pgPart p) Fl.partCfgSafety then some 7
    else if inTileMask s p t then none else some 3
  | .window h w =>
    if safe && !fon s (pgPart p) Fl.partCfgSafety then some 7
    else if fon s (pgPart p) Fl.partCfgValid && bitsOf (fget s (pgLlc h) Fl.hubLlcWaymodeMode) (2 * w) 2 = 1
      && bitsOf (fget s (pgLlc h) Fl.hubLlcWayownPart) (2 * w) 2 = p.val then none else some 5
  | _ => if safe && !fon s (pgPart p) Fl.partCfgSafety then some 7 else none

/-- Record a fault at the requester's page; a firewall's refusal counts at its partition (R33, R379). -/
def refuseReq (who : Requester) (cls det : Nat) (s : State) : State :=
  let p := reqPart s who
  let s := recordFault (reqPage who) cls det s
  if cls = 5 then setIrq (pgPart p) 11 (fbump (pgPart p) Fl.partFwCntCount 1 s) else s

/-! ## What an access meets -/

/-- The outcome of a request for one line. -/
inductive Grant where
  | served
  /-- An error response, recorded at the requester's page. -/
  | error (cls det : Nat)
  /-- An error response recorded on the serving page; for a scratchpad with the line's offset, the port and whether it is a
  write (R249, R316). -/
  | errorOn (pg : PageKey) (cls det : Nat) (at' : Option (Nat × Nat × Bool))
  /-- It waits for a link (R23, R26). -/
  | atLink (k : LinkId)
  /-- It waits for a subchannel to come into service (R315). -/
  | atDdr (pg : PageKey)
  /-- It waits for a window way's zeroing (R296). -/
  | atWay
  deriving DecidableEq, Repr

/-- Record a fault on the serving page (R249, R316). -/
def recordOn (pg : PageKey) (cls det : Nat) (at' : Option (Nat × Nat × Bool)) (s : State) : State :=
  match at' with
  | some x => spadFault (tileOf pg.inst) x.2.1 x.2.2 x.1 det s
  | none => recordFault pg cls det s

/-- The wait has its effect: wake requests, a page brought up on demand (R26, R315). -/
def waitEffect (who : Requester) (g : Grant) (s : State) : State :=
  match g with
  | .atLink k => wakeLink k (reqPart s who) s
  | .atDdr pg => enableCore pg (reqPart s who) s
  | _ => s

/-- Some populated subchannel has failed its training: the whole DDR range is out of service (R313). -/
def ddrFailed (s : State) : Bool :=
  (upTo 8).any (fun i => decide (i % 4 < subCount s) && fget s ⟨.hubDdr, i⟩ Fl.state = 7 && fget s ⟨.hubDdr, i⟩ Fl.hubDdrStatusPhase = 7)

/-- The target's own state: subchannel, LLC page or way (R296, R313, R315, R316). -/
def targetGrant (s : State) : Region → Grant
  | .ddr h c =>
    if ddrFailed s then .error 0x0E 4 else
    match fget s (pgDdr h c) Fl.state with
    | 2 => if fget s (pgDdr h c) Fl.hubDdrStatusPhase = 4 then .atDdr (pgDdr h c) else .served
    | 7 => .error 0x0E 4
    | _ => .atDdr (pgDdr h c)
  | .window h w =>
    if !pageOn s (pgLlc h) then .errorOn (pgLlc h) 0x0E 8 none
    else if fbit s (pgLlc h) Fl.hubLlcWaystatBusy w then .atWay else .served
  | _ => .served

/-- The port class by which a request reaches a scratchpad (R244). -/
def spadPort (who : Requester) (t : TileId) : Nat := match who with
  | .tile u q => if u = t then portOfEng q else 5
  | _ => 4

/-- A scratchpad's own checks of a request (R249). -/
def spadGrant (s : State) (who : Requester) (write : Bool) (a : Nat) (t : TileId) : Grant :=
  let off := a % 0x100000 / 64 * 64
  match spadCheck s t (spadPort who t) write false off with
  | some d => .errorOn (pgSpad t) 4 d (some (off, spadPort who t, write))
  | none => .served

/-- The fate of one line access of a requester outside its own scratchpad ports: unmapped, routed, checked, in service
(R26, R33, R378). -/
def grantOf (s : State) (who : Requester) (write : Bool) (a : Nat) : Grant :=
  let g := regionOf s who a
  if g = .none || (decide (g = .regs) && (regTarget a).isNone) then .error 0x0F 5 else
  match routeOf s (reqDie who) (regionDie a g) with
  | .noRoute => .error 0x0F 3
  | .held k => .atLink k
  | .path _ =>
    match firewall s (reqPart s who) (reqSafe s who) write a g with
    | some d => .error 5 d
    | none => match g with
      | .spad t => spadGrant s who write a (redirTile s t)
      | _ => targetGrant s g

/-- The first line of `[a, a+len)` that is not served. -/
def grantRange (s : State) (who : Requester) (write : Bool) (a len : Nat) : Grant :=
  if len = 0 then .served else
  ((upTo ((a + len - 1) / 64 - a / 64 + 1)).findSome? (fun i =>
    match grantOf s who write (if i = 0 then a else (a / 64 + i) * 64) with
    | .served => none
    | g => some g)).getD .served

/-- An error response reaches a tile engine: all four spans are killed and the job faults (R185). -/
def tileError (t : TileId) (q : Engine) (g : Grant) (s : State) : State :=
  match g with
  | .error c d => faultJob t c d (refuseReq (.tile t q) c d s)
  | .errorOn pg c d x => faultJob t c d (recordOn pg c d x s)
  | _ => s

end Sys2Proof.Machine
end

