-- ==== Sys2Proof/Machine/Guard.lean ====
section
/-! DEFINITION. Who may write and read a register, and what a refused write records (02, R33, R45, R46, R52; 11, R372 to
R375, R379; and the exceptions of R29, R318, R321, R349, R404, R440, R446, R490, R497 to R500). -/

namespace Sys2Proof.Machine

/-- Set registers of a page to 0. -/
def zeroRegs (pg : PageKey) (offs : List Nat) (s : State) : State := offs.foldl (fun s o => wr pg o 0 s) s

/-- The shared engine of a page type. -/
def sharedOf : PageKind → Option SharedEng
  | .warp => some .warp
  | .codec => some .codec
  | .token => some .token
  | _ => none

/-- The page is a partition's own PART or SDIO page, which it reaches while its configuration is not valid (R373). -/
def ownPages (p : PartId) (pg : PageKey) : Bool := decide (pg = pgPart p ∨ pg = pgSdio p)

/-- The partition is in use, or the page is its own (R373). -/
def partReaches (s : State) (p : PartId) (pg : PageKey) : Bool := fon s (pgPart p) Fl.partCfgValid || ownPages p pg

/-- The partition OWNER names (R44). -/
def ownerOf (s : State) (pg : PageKey) : PartId := partOf (fget s pg Fl.ownerPart)

/-- The channel whose registers an offset of a shared-engine page belongs to (R349, R359). -/
def chanAt (off : Nat) : Option Nat := if within 0x400 0xBFF off then some ((off - 0x400) / 0x80) else none

/-- CHc_OWN is the first register of a channel's block (R363). -/
def isChOwn (off : Nat) : Bool := decide ((off - 0x400) % 0x80 = 0)

/-- First offset of a page's array window: SEQ_TPL at 0x10000 and SEQ_IMEM at 0x20000 of SEQ, SCALE_FILE at 0x10000 of
SCALE (R36; the model's own keys, log 8). -/
def isWindow (off : Nat) : Bool := decide (0x10000 ≤ off)

/-- A register of a page that R45 guards: a header register that has fields to write, or a register at 0x100 and above. At
every other offset a write does nothing and is no fault (R9, R10, R38). -/
def guardedReg (pg : PageKey) (off : Nat) : Bool :=
  if off < 0x100 then decide (off = 0x008 ∨ off = 0x014 ∨ off = 0x018 ∨ off = 0x01C ∨ off = 0x020 ∨ off = 0x028 ∨ off = 0x02C)
  else isWindow off || (regSpec pg.kind off).isSome

/-- May partition `p` (a firmware core if `fw`) write the register at `off` of a page (R45 with the exceptions the
chapters name)? -/
def mayWriteBy (s : State) (p : PartId) (fw : Bool) (pg : PageKey) (off : Nat) : Bool :=
  let owner := decide (ownerOf s pg = p)
  let part0 := decide (p.val = 0)
  if !guardedReg pg off then true
  else if off = 0x028 then part0 else
  match pg.kind with
  | .part =>
    if off = 0x014 ∨ off = 0x018 ∨ off = 0x01C ∨ off = 0x020 then part0 || decide (p.val = pg.inst)
    else if off = 0x02C then part0
    else if off < 0x100 then owner
    else if off < 0x200 then part0 else decide (p.val = pg.inst)
  | .sdio =>
    if off = 0x114 ∨ off = 0x118 ∨ off = 0x124 then fw
    else decide (p.val = pg.inst)
  | .tile => if within 0x500 0x510 off then fw else owner
  | .cal =>
    if off = (Fl.calFwHbBeat).off ∨ within (Fl.calRedirEn 0).off ((Fl.calRedirEn 3).off) off then fw
    else if off = (Fl.calTileForceTile).off then part0 else owner
  | .sec => if off = (Fl.secWdogKick).off ∨ off = (Fl.secArbAdvTarget).off then fw else owner
  | .snt | .fum => if off < 0x100 then owner else part0
  | .clk | .pwr | .thm => part0
  | .hub =>
    if off < 0x100 then owner
    else if within (Fl.hubLoadSelClass 0).off (Fl.hubLoadSelClass 3).off off && decide (off = (Fl.hubLoadSelClass p.val).off) then true
    else part0
  | .hubLlc => if off < 0x100 then owner else part0
  | .warp | .codec | .token =>
    match chanAt off, sharedOf pg.kind with
    | some c, some e => if isChOwn off then part0 else decide (fget s (pgEng e) (Fl.chOwnPart c) = p.val)
    | _, _ => owner
  | .xcore => if off < 0x100 then owner else fw
  | _ => owner

/-- May the requester write a register (R373, R374, R45)? -/
def mayWrite (s : State) (who : Requester) (pg : PageKey) (off : Nat) : Bool :=
  partReaches s (reqPart s who) pg && mayWriteBy s (reqPart s who) (isFw who) pg off

/-- May the requester write `v` to a register? LOCK holds two bits with writers of their own, LOCK.CFG and LOCK.OWN: one
who may write neither writes nothing there, and one who sets a bit has to be its writer (R45). -/
def mayWriteWord (s : State) (who : Requester) (pg : PageKey) (off : Nat) (v : Word) : Bool :=
  let cfg := mayWrite s who pg 0x02C
  let own := partReaches s (reqPart s who) pg && decide ((reqPart s who).val = 0)
  if off = 0x02C then (cfg || own) && (cfg || !bitAt v 0) && (own || !bitAt v 1) else mayWrite s who pg off

/-- Registers every partition reads regardless of SHARED (R29, R440, R446, R490, R497, R500). -/
def readByAll (pg : PageKey) (off : Nat) : Bool :=
  match pg.kind with
  | .hub => within 0x800 0x817 off
  | .cal => off = (Fl.calStatusMode).off || within (Fl.calTileOosOos 0).off (Fl.calTileOosOos 2).off off || off = (Fl.calStStatFailed).off
  | .clk => off = (Fl.clkArithPstate).off
  | .pwr => off = (Fl.pwrPkgNowMw).off
  | .thm => within (Fl.thmTTemp 0).off (Fl.thmTTemp 31).off off
  | .snt => within (Fl.sntTagData 0).off (Fl.sntTagData 255).off off
  | .sec => within Fl.secIdName0Name.off (Fl.secUnitIdId 1).off off || off = (Fl.secBootStatSource).off
      || decide ((Fl.secDevkeyKey 0).off ≤ off)
  | .xcore => off = (Fl.xcoreFwStatPhase).off
  | _ => false

/-- Does a read by partition `p` return the register's value; otherwise it returns 0 (R45)? -/
def mayReadBy (s : State) (p : PartId) (pg : PageKey) (off : Nat) : Bool :=
  if off = 0x000 ∨ off = 0x004 ∨ off = 0x008 ∨ off = 0x00C ∨ off = 0x028 then true
  else if readByAll pg off then true
  else
    let seen := decide (ownerOf s pg = p) || fon s pg Fl.ownerShared
    match pg.kind with
    | .part => seen || decide (p.val = 0 ∨ p.val = pg.inst)
    | .sdio => decide (p.val = pg.inst)
    | .fum => if off < 0x100 then seen else decide (p.val = 0)
    | .hub => seen || (within (Fl.hubLoadSelClass 0).off (Fl.hubLoadValLoad 3).off off &&
        (decide (p.val = 0) || decide (off = (Fl.hubLoadSelClass p.val).off) || decide (off = (Fl.hubLoadValLoad p.val).off)))
    | .warp | .codec | .token =>
      match chanAt off, sharedOf pg.kind with
      | some c, some e => if isChOwn off then seen else decide (fget s (pgEng e) (Fl.chOwnPart c) = p.val) || fon s pg Fl.ownerShared
      | _, _ => seen
    | .xcore => seen || decide (p.val = 0)
    | _ => seen

/-- The refusal of a register write (R45, R374): the detail of class 0x05. -/
def writeRefusal (s : State) (who : Requester) (pg : PageKey) (off : Nat) (v : Word) : Option Nat :=
  if reqSafe s who && !fon s (pgPart (reqPart s who)) Fl.partCfgSafety then some 7
  else if !mayWriteWord s who pg off v then some 4 else none

/-- The refusal of a register read (R373, R374). A read that R45 keeps from a partition in use is none: it returns 0. -/
def readRefusal (s : State) (who : Requester) (pg : PageKey) : Option Nat :=
  if reqSafe s who && !fon s (pgPart (reqPart s who)) Fl.partCfgSafety then some 7
  else if !partReaches s (reqPart s who) pg then some 4 else none

/-- The checks of a write of `v`, in order: the SAFE bit, R45, the page's domain; then the write acts. A page the index does
not hold refuses nothing and holds nothing (R10). -/
def guardedWord (who : Requester) (pg : PageKey) (off : Nat) (v : Word) (act : State → State) (s : State) : State :=
  if !pageExists pg then s else
  match writeRefusal s who pg off v with
  | some d => refuseReq who 5 d s
  | none => if decide (0x100 ≤ off) && guardedReg pg off && !pagePowered s pg then recordFault pg 6 0x0A s else act s

/-- The checks of a write of a register other than LOCK, whatever is written. -/
def guarded (who : Requester) (pg : PageKey) (off : Nat) (act : State → State) (s : State) : State :=
  guardedWord who pg off 0 act s

/-- A write a lock forbids is discarded (R46). -/
def unlocked (pg : PageKey) (act : State → State) (s : State) : State :=
  if fon s pg Fl.lockCfg then recordFault pg 6 9 s else act s

end Sys2Proof.Machine
end

