-- ==== Sys2Proof/Machine/Isp.lean ====
section
/-! DEFINITION. What a camera port's image pipeline makes of a frame: the ten stages of R333 with the formats of R336 and
the taps of R337. Where the rules give a result without its rounding, or leave a neighbour outside the frame open, the
value is Config's (log 43). -/

namespace Sys2Proof.Machine

/-- A plane: its lines of elements. -/
abbrev Plane2 := List (List Nat)

/-- Element (x, y) of a plane. -/
def px (p : Plane2) (x y : Nat) : Nat := nth 0 (nth [] p y) x

/-- Width and height of a plane. -/
def planeW (p : Plane2) : Nat := (nth [] p 0).length
def planeH (p : Plane2) : Nat := p.length

/-- Element at signed coordinates; outside the plane the value is not stated. -/
def pxAt (p : Plane2) (x y : Int) : Nat :=
  if 0 ≤ x ∧ x < planeW p ∧ 0 ≤ y ∧ y < planeH p then px p x.toNat y.toNat
  else Config.openValue 1 [x, y] % 65536

/-- Build a plane element by element. -/
def mkPlane (w h : Nat) (f : Nat → Nat → Nat) : Plane2 := (upTo h).map (fun y => (upTo w).map (fun x => f x y))

/-- A quotient with no stated rounding. -/
def quotOpen (num den : Int) : Int :=
  if den = 0 then 0
  else if num % den = 0 then num / den
  else if Config.quotUp num den then num / den + 1 else num / den

def clamp16 (v : Int) : Nat := (clampI 0 65535 v).toNat

/-- The controls of a frame: the registers in force while it is received (R335). -/
structure IspCtl where
  s : State
  n : Port

/-- A field of the port's ISP page. -/
def IspCtl.f (c : IspCtl) (f : Fld) : Nat := fget c.s (pgIsp c.n) f
/-- A stage's enable bit of ISP_EN. -/
def IspCtl.en (c : IspCtl) (i : Nat) : Bool := fbit c.s (pgIsp c.n) Fl.ispEnStages i

/-- CFA position of a pixel: top-left, top-right, bottom-left, bottom-right (R361). -/
def cfaPos (x y : Nat) : Nat := (y % 2) * 2 + x % 2

/-- A value of one of four CFA positions, two to a register. -/
def IspCtl.four (c : IspCtl) (lo hi : Nat → Fld) (p : Nat) : Nat := c.f (if p % 2 = 0 then lo (p / 2) else hi (p / 2))

/-! ## Stages 1 to 5 -/

/-- Bits per pixel: values other than 8 to 16 act as the nearer limit (R358). -/
def camWidth (s : State) (n : Port) : Nat := min 16 (max 8 (fget s (pgCam n) Fl.camCfgWidth))

/-- Reverse the low `w` bits. -/
def revBits (w v : Nat) : Nat := (upTo w).foldl (fun a i => a + (if v.testBit i then 2 ^ (w - 1 - i) else 0)) 0

/-- A pixel after CAM_MAP: D[WIDTH − 1:0] (R324). -/
def camPixel (s : State) (n : Port) (d : Nat) : Nat :=
  let w := camWidth s n
  let v := d % 2 ^ w
  if fon s (pgCam n) Fl.camMapRev then revBits w v else v

/-- Stage 1: the captured lines, left-aligned (R333). -/
def stageInput (s : State) (n : Port) (lines : List (List (BitVec 16))) : Plane2 :=
  lines.map (fun l => l.map (fun d => camPixel s n d.toNat * 2 ^ (16 - camWidth s n)))

/-- Stage 2: black level. -/
def stageBlc (c : IspCtl) (p : Plane2) : Plane2 :=
  if !c.en 0 then p else mkPlane (planeW p) (planeH p) (fun x y => px p x y - c.four Fl.ispBlcLow Fl.ispBlcHigh (cfaPos x y))

/-- Ascending order. -/
def insertNat (a : Nat) : List Nat → List Nat
  | [] => [a]
  | b :: r => if a ≤ b then a :: b :: r else b :: insertNat a r
def sortNat (l : List Nat) : List Nat := l.foldr insertNat []

/-- The four same-colour neighbours at distance 2, in ascending order. -/
def dpcAround (p : Plane2) (x y : Nat) : List Nat :=
  sortNat [pxAt p ((x : Int) - 2) y, pxAt p ((x : Int) + 2) y, pxAt p x ((y : Int) - 2), pxAt p x ((y : Int) + 2)]

/-- Is the pixel defective: beyond all four neighbours by more than 16·THRESH (R333)? -/
def dpcBad (thr : Nat) (p : Plane2) (x y : Nat) : Bool :=
  let a := dpcAround p x y
  decide (nth 0 a 3 + 16 * thr < px p x y) || decide (px p x y + 16 * thr < nth 0 a 0)

/-- Stage 3: defective pixels take the median of their neighbours. -/
def stageDpc (c : IspCtl) (p : Plane2) : Plane2 :=
  if !c.en 1 then p else mkPlane (planeW p) (planeH p) (fun x y =>
    let a := dpcAround p x y
    if dpcBad (c.f Fl.ispDpcThresh) p x y then (nth 0 a 1 + nth 0 a 2) / 2 else px p x y)

/-- Pixels stage 3 replaces (ISP_DPC_CNT). -/
def dpcCount (c : IspCtl) (p : Plane2) : Nat :=
  if !c.en 1 then 0 else
  sumN ((upTo (planeH p)).map (fun y => ((upTo (planeW p)).filter (fun x => dpcBad (c.f Fl.ispDpcThresh) p x y)).length))

/-- A 16-bit entry of a table in memory. -/
def memU16 (s : State) (a : Nat) : Nat := leNat (peekReq s a 2)

/-- Bilinear interpolation of a lens-shading gain, u4.12; nodes are spread over the frame from its first to its last
pixel (log 43). -/
def lscGain (c : IspCtl) (w h x y : Nat) : Int :=
  let base := c.f Fl.ispLscLoAddr + 2 ^ 32 * c.f Fl.ispLscHiAddr
  let node := fun i j => (memU16 c.s (base + 8 * (17 * j + i) + 2 * cfaPos x y) : Int)
  let dw := max 1 (w - 1)
  let dh := max 1 (h - 1)
  let i := min 15 (16 * x / dw)
  let j := min 11 (12 * y / dh)
  let fx : Int := 16 * x - i * dw
  let fy : Int := 12 * y - j * dh
  quotOpen ((dw - fx) * (dh - fy) * node i j + fx * (dh - fy) * node (i + 1) j + (dw - fx) * fy * node i (j + 1)
    + fx * fy * node (i + 1) (j + 1)) ((dw * dh : Nat) : Int)

/-- Stage 4: lens shading; a product above 65,535 has no stated value. -/
def stageLsc (c : IspCtl) (p : Plane2) : Plane2 :=
  if !c.en 2 then p else mkPlane (planeW p) (planeH p) (fun x y =>
    let v := quotOpen (px p x y * lscGain c (planeW p) (planeH p) x y) 4096
    if v ≤ 65535 then v.toNat else Config.openValue 2 [v] % 65536)

/-- A MONO sensor: stages 5 to 7 are bypassed and there is one plane (R334). -/
def IspCtl.mono (c : IspCtl) : Bool := fon c.s (pgIsp c.n) Fl.ispCfaMono

/-- Stage 5: white balance. -/
def stageWb (c : IspCtl) (p : Plane2) : Plane2 :=
  if !c.en 3 || c.mono then p else mkPlane (planeW p) (planeH p) (fun x y =>
    clamp16 (quotOpen (px p x y * c.four Fl.ispWbLow Fl.ispWbHigh (cfaPos x y)) 4096))

/-! ## Stages 6 to 8 -/

/-- Colour of a CFA position: 0 red, 1 green, 2 blue, by ISP_CFA.PATTERN (R361). -/
def cfaColour (pattern pos : Nat) : Nat :=
  match pattern with
  | 0 => nth 0 [0, 1, 1, 2] pos
  | 1 => nth 0 [1, 0, 2, 1] pos
  | 2 => nth 0 [1, 2, 0, 1] pos
  | _ => nth 0 [2, 1, 1, 0] pos

/-- The 5 × 5 window of a pixel. -/
def window5 (p : Plane2) (x y : Nat) : List Nat :=
  (upTo 5).flatMap (fun (j : Nat) => (upTo 5).map (fun (i : Nat) => pxAt p ((x : Int) + (i : Int) - 2) ((y : Int) + (j : Int) - 2)))

/-- Stage 6: at each pixel its own colour is the sample, the others are interpolated (R334). -/
def stageDemosaic (c : IspCtl) (p : Plane2) : List Plane2 :=
  if c.mono then [p] else
  (upTo 3).map (fun col => mkPlane (planeW p) (planeH p) (fun x y =>
    let site := cfaColour (c.f Fl.ispCfaPattern) (cfaPos x y)
    if site = col then px p x y
    else Config.demosaic col (4 * c.f Fl.ispCfaPattern + cfaPos x y) (c.f Fl.ispCfaEdgeThr) (window5 p x y) % 65536))

/-- Coefficient (i, j) of the colour matrix, s3.12 (R361). -/
def IspCtl.ccm (c : IspCtl) (k : Nat) : Int := signed 16 (c.f (if k % 2 = 0 then Fl.ispCcmLow (k / 2) else Fl.ispCcmHigh (k / 2)))

/-- Stage 7: colour matrix. -/
def stageCcm (c : IspCtl) (l : List Plane2) : List Plane2 :=
  if !c.en 4 || c.mono then l else
  let at' := fun k x y => (px (nth [] l k) x y : Int)
  let p := nth [] l 0
  (upTo 3).map (fun i => mkPlane (planeW p) (planeH p) (fun x y =>
    let ofs := signed 16 (c.f (if i % 2 = 0 then Fl.ispCcmOfsLow (i / 2) else Fl.ispCcmOfsHigh (i / 2)))
    clamp16 (quotOpen (c.ccm (3 * i) * at' 0 x y + c.ccm (3 * i + 1) * at' 1 x y + c.ccm (3 * i + 2) * at' 2 x y) 4096 + ofs)))

/-- Stage 8: the tone curve, linear between 65 points. -/
def stageTone (c : IspCtl) (l : List Plane2) : List Plane2 :=
  if !c.en 5 then l else
  let base := c.f Fl.ispToneLoAddr + 2 ^ 32 * c.f Fl.ispToneHiAddr
  let pt := fun k => (memU16 c.s (base + 2 * k) : Int)
  l.map (fun p => p.map (fun r => r.map (fun v =>
    let k := v / 1024
    clamp16 (quotOpen (pt k * (1024 - v % 1024 : Nat) + pt (k + 1) * (v % 1024 : Nat)) 1024))))

/-! ## Stages 9 and 10 -/

/-- ISP_OUT.FMT as it acts: MONO sensors give MONO; 5 to 7 act as 0 (R334, R361). -/
def IspCtl.fmt (c : IspCtl) : Nat := if c.mono then 4 else if 5 ≤ c.f Fl.ispOutFmt then 0 else c.f Fl.ispOutFmt

/-- Luma weights of red and blue in 1/10,000: ITU-R BT.709 and BT.601 (R336; log 43). -/
def lumaWeights (fmt : Nat) : Int × Int := if fmt = 2 then (2990, 1140) else (2126, 722)

/-- Y, U or V of a pixel, full range. -/
def yuv (fmt k : Nat) (r g b : Int) : Nat :=
  let w := lumaWeights fmt
  let y10 := w.1 * r + (10000 - w.1 - w.2) * g + w.2 * b
  match k with
  | 0 => clamp16 (quotOpen y10 10000)
  | 1 => clamp16 (32768 + quotOpen (10000 * b - y10) (2 * (10000 - w.2)))
  | _ => clamp16 (32768 + quotOpen (10000 * r - y10) (2 * (10000 - w.1)))

/-- Half size of a chroma plane; how four values become one is not stated. -/
def halfPlane (p : Plane2) : Plane2 :=
  mkPlane (ceilDiv (planeW p) 2) (ceilDiv (planeH p) 2) (fun x y =>
    let g := fun (i j : Nat) => (px p (min (2 * x + i) (planeW p - 1)) (min (2 * y + j) (planeH p - 1)) : Int)
    let l := [g 0 0, g 1 0, g 0 1, g 1 1]
    if l.all (fun v => v = g 0 0) then (g 0 0).toNat else Config.openValue 3 l % 65536)

/-- Stage 9: conversion to the output's planes. -/
def stageColour (c : IspCtl) (l : List Plane2) : List Plane2 :=
  let p := nth [] l 0
  let at' := fun k x y => (px (nth [] l k) x y : Int)
  let conv := fun k => mkPlane (planeW p) (planeH p) (fun x y => yuv c.fmt k (at' 0 x y) (at' 1 x y) (at' 2 x y))
  if c.mono then l else
  match c.fmt with
  | 0 => l
  | 3 => [conv 0, halfPlane (conv 1), halfPlane (conv 2)]
  | 4 => [mkPlane (planeW p) (planeH p) (fun x y =>
      let v := [at' 0 x y, at' 1 x y, at' 2 x y]
      if v.all (fun a => a = at' 0 x y) then (at' 0 x y).toNat else Config.openValue 4 v % 65536)]
  | _ => [conv 0, conv 1, conv 2]

/-- Crop: origin and size, clipped to the input (R361). -/
def cropOf (c : IspCtl) (w h : Nat) : Nat × Nat × Nat × Nat :=
  let x := min (c.f Fl.ispCrop0X) (w - 1)
  let y := min (c.f Fl.ispCrop0Y) (h - 1)
  (x, y, min (c.f Fl.ispCrop1WM1 + 1) (w - x), min (c.f Fl.ispCrop1HM1 + 1) (h - y))

/-- Output size: clamped between crop/16 and crop (R361). -/
def outSize (c : IspCtl) (cw ch : Nat) : Nat × Nat :=
  (min cw (max (max 1 (ceilDiv cw 16)) (c.f Fl.ispOutSizeWM1 + 1)), min ch (max (max 1 (ceilDiv ch 16)) (c.f Fl.ispOutSizeHM1 + 1)))

/-- The source elements of output element `i` of `n` over `m` elements, with their coverage in 1/256. -/
def boxSpan (m n i : Nat) : List (Nat × Nat) :=
  let lo := (quotOpen (256 * m * i) n).toNat
  let hi := (quotOpen (256 * m * (i + 1)) n).toNat
  ((upTo m).filter (fun k => decide (256 * k < hi ∧ lo < 256 * (k + 1)))).map
    (fun k => (k, min hi (256 * (k + 1)) - max lo (256 * k)))

/-- Stage 10 on one plane: crop, then a box filter. -/
def scalePlane (p : Plane2) (x0 y0 cw ch ow oh : Nat) : Plane2 :=
  let xs := (upTo ow).map (boxSpan cw ow)
  let ys := (upTo oh).map (boxSpan ch oh)
  ys.map (fun ry => xs.map (fun rx =>
    let sum := sumN (ry.map (fun b => sumN (rx.map (fun a => a.2 * b.2 * px p (x0 + a.1) (y0 + b.1)))))
    let w := sumN (ry.map Prod.snd) * sumN (rx.map Prod.snd)
    clamp16 (quotOpen sum w)))

/-- Stage 10: the scaler. Half-size planes take half the crop and half the output size. -/
def stageScale (c : IspCtl) (l : List Plane2) : List Plane2 :=
  if !c.en 6 then l else
  let p := nth [] l 0
  let k := cropOf c (planeW p) (planeH p)
  let o := outSize c k.2.2.1 k.2.2.2
  (upTo l.length).map (fun i =>
    let q := nth [] l i
    if c.fmt = 3 && i != 0 then scalePlane q (k.1 / 2) (k.2.1 / 2) (ceilDiv k.2.2.1 2) (ceilDiv k.2.2.2 2) (ceilDiv o.1 2) (ceilDiv o.2 2)
    else scalePlane q k.1 k.2.1 k.2.2.1 k.2.2.2 o.1 o.2)

/-! ## Planar samples (R336) -/

def roundUpTo (n v : Nat) : Nat := ceilDiv v n * n

/-- Bytes of a plane of a planar sample: lines padded to 16 B, the plane to 64 B. -/
def imgBytes (w h elem : Nat) : Nat := roundUpTo 64 (roundUpTo 16 (w * elem) * h)

/-- Zero fill to a length. -/
def padTo (n : Nat) (l : List Byte) : List Byte := l ++ List.replicate (n - l.length) 0

/-- The bytes of a plane. -/
def packPlane (elem : Nat) (p : Plane2) : List Byte :=
  padTo (imgBytes (planeW p) (planeH p) elem)
    (p.flatMap (fun r => padTo (roundUpTo 16 (r.length * elem)) (r.flatMap (fun v => leBytes elem v))))

/-- The widths and heights of a format's planes. -/
def fmtPlanes (fmt w h : Nat) : List (Nat × Nat) :=
  match fmt with
  | 3 => [(w, h), (ceilDiv w 2, ceilDiv h 2), (ceilDiv w 2, ceilDiv h 2)]
  | 4 => [(w, h)]
  | _ => [(w, h), (w, h), (w, h)]

/-- Bytes of a planar sample. -/
def planarSize (fmt w h elem : Nat) : Nat := sumN ((fmtPlanes fmt w h).map (fun p => imgBytes p.1 p.2 elem))

/-- An output element: the upper byte rounded half away from zero, or all 16 bits; SIGNED subtracts half the range. -/
def outElem (bits16 sgn : Bool) (v : Nat) : Nat :=
  if bits16 then (if sgn then (v + 32768) % 65536 else v)
  else let b := min 255 ((v + 128) / 256); if sgn then (b + 128) % 256 else b

/-- What a frame yields: the main output, taps T0 to T2, and pixels replaced. -/
structure FrameOut where
  main : List Byte
  t0 : List Byte
  t1 : List Byte
  t2 : List Byte
  dpc : Nat

/-- The pipeline over a frame's captured lines (R333 to R337). -/
def ispFrame (s : State) (n : Port) (lines : List (List (BitVec 16))) : FrameOut :=
  let c : IspCtl := ⟨s, n⟩
  let p1 := stageInput s n lines
  let p2 := stageBlc c p1
  let p4 := stageLsc c (stageDpc c p2)
  let p6 := stageDemosaic c (stageWb c p4)
  let out := stageScale c (stageColour c (stageTone c (stageCcm c p6)))
  let b16 := fon s (pgIsp n) Fl.ispOutBits16
  let sg := fon s (pgIsp n) Fl.ispOutSigned
  ⟨out.flatMap (fun p => packPlane (if b16 then 2 else 1) (p.map (fun r => r.map (outElem b16 sg)))),
    packPlane 2 p1, packPlane 2 p4, p6.flatMap (packPlane 2), dpcCount c p2⟩

/-- Input line length and lines of a port. -/
def camW (s : State) (n : Port) : Nat := fget s (pgCam n) Fl.camSizeWidthM1 + 1
def camH (s : State) (n : Port) : Nat := fget s (pgCam n) Fl.camSizeHeightM1 + 1

/-- Bytes of a valid main-output sample under the values in force (R343). -/
def mainSize (s : State) (n : Port) : Nat :=
  let c : IspCtl := ⟨s, n⟩
  let k := cropOf c (camW s n) (camH s n)
  let o := if c.en 6 then outSize c k.2.2.1 k.2.2.2 else (camW s n, camH s n)
  planarSize c.fmt o.1 o.2 (if fon s (pgIsp n) Fl.ispOutBits16 then 2 else 1)

/-- Bytes of a valid sample of tap `k` (R337). -/
def tapSize (s : State) (n : Port) (k : Nat) : Nat :=
  match k with
  | 3 => mainSize s n
  | 2 => (if fon s (pgIsp n) Fl.ispCfaMono then 1 else 3) * imgBytes (camW s n) (camH s n) 2
  | _ => imgBytes (camW s n) (camH s n) 2

end Sys2Proof.Machine
end

