-- ==== Sys2Proof/Machine/Hub.lean ====
section
/-! DEFINITION. The hubs: requests, bandwidth classes, the LLC, ECC, refresh and calibration of the DDR subchannels (09).
Data always stand in the state's memory; the LLC holds which lines are present, and which are dirty, so a hit and a miss
return the same bytes (R294). -/

namespace Sys2Proof.Machine

def hubSt (s : State) (h : HubId) : HubSt := Tab.get {} s.hubs h
def setHub (h : HubId) (x : HubSt) (s : State) : State := { s with hubs := Tab.put s.hubs h x }
def updHub (h : HubId) (f : HubSt → HubSt) (s : State) : State := setHub h (f (hubSt s h)) s

/-- The subchannel's page number. -/
def subNo (h : HubId) (c : Sub) : Nat := 4 * h.val + c.val

/-! ## Budgets (R299 to R303) -/

/-- Positions of class `c` in a turn of the wheel. -/
def wheelCount (w : Word) (c : Nat) : Nat := ((upTo 16).filter (fun i => bitsOf w.toNat (2 * i) 2 = c)).length

/-- Budgets dealt in partition order, each clipped to what is left (R300). -/
def dealt (n : Nat) : List Nat → Nat → List Nat
  | [], _ => []
  | x :: r, left => min left (4 * n * min 16 x) :: dealt n r (left - min left (4 * n * min 16 x))

/-- Positions partition `p` may use in class `c` in a period (R300). -/
def budgetOf (b : Budgets) (c p : Nat) : Nat :=
  let n := wheelCount b.wheel c
  nth 0 (dealt n (b.shares.map (fun w => bitsOf w.toNat (8 * c) 5)) (64 * n)) p

/-- The copies in force at a server. -/
def forceOf (x : HubSt) (srv : Nat) : Budgets := Tab.get {} x.force srv

/-- Budget left to a partition in a class at a server in the current period. -/
def budgetLeft (x : HubSt) (srv c p : Nat) : Nat := budgetOf (forceOf x srv) c p - Tab.get 0 x.used (srv, c, p)

/-- Add to an entry of a table of counts. -/
def tabAdd {κ : Type} [DecidableEq κ] (t : Tab κ Nat) (k : κ) (n : Nat) : Tab κ Nat := Tab.put t k (Tab.get 0 t k + n)

/-- Positions of a period: 64 turns of the wheel (R299). -/
def periodLen : Nat := 1024

/-- Positions of a server's period that have passed. -/
def posOf (x : HubSt) (srv : Nat) : Nat := Tab.get 0 x.pos srv

/-- The class of a position: 0 READ, 1 WRITE, 2 REMOTE, 3 none (R299). -/
def classAt (x : HubSt) (srv pos : Nat) : Nat := bitsOf (forceOf x srv).wheel.toNat (2 * (pos % 16)) 2

/-- What a server counts over a period joins the interval's loads; the next period begins with the copies in `next`. -/
def nextPeriod (srv : Nat) (next : Budgets) (x : HubSt) : HubSt :=
  let kind := if srv < 8 then 0 else 1
  let keys := (upTo 3).flatMap (fun c => (upTo 4).map (fun p => (c, p)))
  { x with
    force := Tab.put x.force srv next
    loadUsed := keys.foldl (fun t k => tabAdd t (kind, k.1, k.2) (Tab.get 0 x.used (srv, k.1, k.2))) x.loadUsed
    loadRoom := keys.foldl (fun t k => tabAdd t (kind, k.1, k.2) (budgetOf (forceOf x srv) k.1 k.2)) x.loadRoom
    used := Tab.drop x.used (fun k => decide (k.1 = srv))
    pos := Tab.put x.pos srv 0 }

/-- A 1 ms interval has ended: LOAD of each kind of server, class and partition over the periods that ended in it (R318). -/
def doLoadInterval (h : HubId) (s : State) : State :=
  let keys := (upTo 2).flatMap (fun k => (upTo 3).flatMap (fun c => (upTo 4).map (fun p => (k, c, p))))
  if s.us / 1000 ≤ (hubSt s h).loadAt then s else
  updHub h (fun x => { x with
    loadAt := s.us / 1000
    load := keys.map (fun k => (k, let room := Tab.get 0 x.loadRoom k
      if room = 0 then 0 else min 0x400 (Tab.get 0 x.loadUsed k * 1024 / room)))
    loadUsed := []
    loadRoom := [] }) s

/-! ## Requests at a hub (R298 to R301) -/

/-- The class a request takes from the link on which it arrives (R298). -/
def hubClass (k : LinkId) (write : Bool) : Nat := if k.val ≤ 1 then b2n write else 2

/-- The LLC serves: its page is ON (R316). -/
def llcOn (s : State) (h : HubId) : Bool := pageOn s (pgLlc h)

/-- The region of a request's line. -/
def reqRegion (s : State) (r : HubReq) : Region := regionOf s r.who r.addr

/-- The server whose position a request waits for (R299). -/
def serverOf (s : State) (h : HubId) (r : HubReq) : Nat :=
  match reqRegion s r with
  | .ddr _ c => if r.atDdr || !llcOn s h then 8 + c.val else bitsOf r.addr 6 3
  | _ => bitsOf r.addr 6 3

/-- What a line's target answers: a subchannel that is TURNING_OFF still serves what it held before (R315). -/
def lineGrant (s : State) (r : HubReq) : Grant :=
  match targetGrant s (reqRegion s r) with
  | .atDdr pg => if !r.late && (fget s pg Fl.state = 3 || fget s pg Fl.state = 4) then .served else .atDdr pg
  | g => g

/-- The request waits for its subchannel or its way (R296, R315). -/
def reqWaits (s : State) (r : HubReq) : Bool :=
  match lineGrant s r with
  | .atDdr _ | .atWay | .atLink _ => true
  | _ => false

/-- Replace the oldest request equal to `r`. -/
def putReq (h : HubId) (r r' : HubReq) (s : State) : State := updHub h (fun x => { x with reqs := x.reqs.replace r r' }) s
def dropReq (h : HubId) (r : HubReq) (s : State) : State := updHub h (fun x => { x with reqs := x.reqs.erase r }) s

/-- Overwrite part of a byte string. -/
def patchBytes (l : List Byte) (at' : Nat) (d : List Byte) : List Byte := l.take at' ++ d ++ l.drop (at' + d.length)

/-- Some line of an outstanding request is still at a hub. -/
def lineLeft (s : State) (id : Nat) : Bool := s.hubs.any (fun e => e.2.reqs.any (fun r => decide (r.id = some id)))

/-- A line of an outstanding request is answered; the last one answers the request. -/
def answerLine (h : HubId) (r : HubReq) (data : List Byte) (err : Option (Nat × Nat)) (s : State) : State :=
  let s := dropReq h r s
  match r.id with
  | none => s
  | some n =>
    let left := lineLeft s n
    { s with outstanding := s.outstanding.map (fun o => if o.id != n then o else
        { o with
          data := if r.write then o.data else patchBytes o.data (r.addr - o.req.addr.toNat) data
          err := o.err.orElse (fun _ => err)
          place := if left then o.place else .answered }) }

/-- A line completes with an error response, recorded as `g` says. -/
def errorLine (h : HubId) (r : HubReq) (g : Grant) (s : State) : State :=
  match g with
  | .error c d => answerLine h r [] (some (c, d)) (refuseReq r.who c d s)
  | .errorOn pg c d x => answerLine h r [] (some (c, d)) (recordOn pg c d x s)
  | _ => s

/-- What the requester of a line waits on, as its response will tell; a request once held by a share stays so (R263). -/
def waitsOn (r : HubReq) (cause : Nat) (s : State) : State :=
  match r.id with
  | none => s
  | some n => { s with outstanding := s.outstanding.map (fun o => if o.id = n ∧ o.cause ≠ 10 then { o with cause := cause } else o) }

/-- Count the requests of a class at a server whose partition has spent its budget (R263, R301). -/
def countHeld (h : HubId) (srv c : Nat) (s : State) : State :=
  ((hubSt s h).reqs.filter (fun r => !r.counted && !r.reading && decide (r.cls = c) && decide (serverOf s h r = srv)
      && !reqWaits s r && decide (budgetLeft (hubSt s h) srv c r.part.val = 0))).foldl
    (fun s r => fbump (pgHub h) (Fl.hubBwHeldCount r.part.val) 1 (waitsOn r 10 (putReq h r { r with counted := true } s))) s

/-- The request a position of class `c` at a server goes to: the next line of the request the last position was for, so that a
subchannel serves its bursts one after the other (R292); else partitions round-robin, then SAFE requests, then the oldest
(R301). -/
def pickReq (s : State) (h : HubId) (srv c : Nat) : Option HubReq :=
  let x := hubSt s h
  let fit := x.reqs.filter (fun r => !r.reading && decide (r.cls = c) && decide (serverOf s h r = srv) && !reqWaits s r
    && decide (0 < budgetLeft x srv c r.part.val))
  let first := Tab.get 3 x.last (srv, c) + 1
  let burst := Tab.get 0 x.lastBurst (srv, c)
  (fit.find? (fun r => decide (8 ≤ srv ∧ burst ≠ 0 ∧ r.burst = burst))).orElse (fun _ =>
    (upTo 4).findSome? (fun i =>
      let mine := fit.filter (fun r => decide (r.part.val = (first + i) % 4))
      (mine.find? (fun r => r.safe)).orElse (fun _ => mine.head?)))

/-- The hub is writing back lines of a way in transition or of a flush (R296, R322). -/
def wayWork (s : State) (h : HubId) : Bool := fget s (pgLlc h) Fl.hubLlcWaystatBusy != 0 || (hubSt s h).flush != 0

/-- The write-back a subchannel's position serves before any request: in the last position of a turn during a way's or a flush's
write-backs, in every position while the HUB_LLC page is TURNING_OFF (R296, R316, R322). -/
def firstWb (s : State) (h : HubId) (srv pos : Nat) : Option HubReq :=
  if 8 ≤ srv ∧ (fget s (pgLlc h) Fl.state = 3 ∨ fget s (pgLlc h) Fl.state = 4 ∨ (pos % 16 = 15 ∧ wayWork s h = true)) then
    (hubSt s h).reqs.find? (fun r => r.id.isNone && decide (serverOf s h r = srv) && !reqWaits s r)
  else none

/-- What a server's position goes to, and whether its partition's budget pays for it (R296, R301). -/
def claimant (s : State) (h : HubId) (srv pos : Nat) : Option (HubReq × Bool) :=
  match firstWb s h srv pos with
  | some r => some (r, false)
  | none => (pickReq s h srv (classAt (hubSt s h) srv pos)).map (fun r => (r, true))

/-- The next position of class `c` of a server's period, or of no class where a write-back takes it: positions that no request
claims pass unused, and one that another class's request claims comes first (R299, R301). -/
def nextPos (s : State) (h : HubId) (srv c : Nat) : Option Nat :=
  let x := hubSt s h
  let p0 := posOf x srv
  match ((upTo (min 16 (periodLen - p0))).map (p0 + ·)).find? (fun p => decide (classAt x srv p = c) || (claimant s h srv p).isSome) with
  | some p => if classAt x srv p = c ∨ classAt x srv p = 3 then some p else none
  | none => none

/-- The position that comes next at a subchannel is one that no request claims (R288, R289). -/
def positionFree (s : State) (h : HubId) (srv : Nat) : Bool := (claimant s h srv (posOf (hubSt s h) srv)).isNone

/-- A server's position has passed. -/
def passPos (h : HubId) (srv p : Nat) (s : State) : State := updHub h (fun x => { x with pos := Tab.put x.pos srv (p + 1) }) s

/-- A server's period ends once no position left in it is claimed: unused budget lapses, and committed wheel and shares take
effect (R299, R301, R303). -/
def doPeriodEnd (h : HubId) (srv : Nat) (s : State) : State :=
  let pg := pgHub h
  let p0 := posOf (hubSt s h) srv
  if ((upTo (min 16 (periodLen - p0))).map (p0 + ·)).any (fun p => (claimant s h srv p).isSome) then s else
  updHub h (nextPeriod srv ⟨rd s pg 0x110, (upTo 4).map (fun p => rd s pg (0x120 + 4 * p))⟩) s

/-! ## DDR devices (R287 to R292) -/

/-- The line index of an address in its subchannel: A[35:6] without A[12] and the subchannel bits (R291). -/
def subLine (n a : Nat) : Nat :=
  match n with
  | 4 => bitsOf a 6 2 + 4 * bitsOf a 10 2 + 16 * (a / 2 ^ 13)
  | 2 => bitsOf a 6 2 + 4 * bitsOf a 9 3 + 32 * (a / 2 ^ 13)
  | _ => bitsOf a 6 6 + 64 * (a / 2 ^ 13)

/-- The address of a line index of a subchannel. -/
def lineAddr (n h c l : Nat) : Nat :=
  match n with
  | 4 => 2 ^ 6 * (l % 4) + 2 ^ 8 * c + 2 ^ 10 * (l / 4 % 4) + 2 ^ 12 * h + 2 ^ 13 * (l / 16)
  | 2 => 2 ^ 6 * (l % 4) + 2 ^ 8 * c + 2 ^ 9 * (l / 4 % 8) + 2 ^ 12 * h + 2 ^ 13 * (l / 32)
  | _ => 2 ^ 6 * (l % 64) + 2 ^ 12 * h + 2 ^ 13 * (l / 64)

/-- Rows of a bank by the DENSITY code (R291). -/
def bankRows (w : Word) : Nat := match Fl.hubMemCfgDensity.get w with
  | 0 => 65536
  | 1 => 98304
  | _ => 131072

/-- Rank, bank (with its group, by 4) and row of a line index (R291). -/
def bankOf (w : Word) (l : Nat) : Nat × Nat × Nat :=
  let g := if Fl.hubMemCfgWidth.get w = 1 then 2 else 3
  let q := l / 2 ^ (6 + g + 2)
  let row := q % bankRows w
  (q / bankRows w, ((bitsOf l 6 g) ^^^ (row % 2 ^ g)) * 4 + bitsOf l (6 + g) 2, row)

/-- A burst to a line: a bank with another row or none open activates it, which counts towards RFM (R291, R292, R309). -/
def touchRow (i a : Nat) (s : State) : State :=
  let b := bankOf (memConfig s) (subLine (subCount s) a)
  let k := b.1 * 32 + b.2.1
  let x := subSt s i
  if x.rows.any (fun e => decide (e = (k, b.2.2))) then s
  else setSub i { x with rows := Tab.put x.rows k b.2.2, acts := if fon s ⟨.hubDdr, i⟩ Fl.hubDdrMaintRfm then tabAdd x.acts k 1 else x.acts } s

/-- What a DDR read of a line finds (R288, R289): a corrected line waits to be written back; an uncorrectable one is
recorded. -/
def ddrEcc (i a : Nat) (ecc : DdrEcc) (s : State) : State :=
  let pg : PageKey := ⟨.hubDdr, i⟩
  let addr := fun (u t : Nat) (s : State) => fsets pg [(Fl.hubDdrEccAddrLine, a / 64), (Fl.hubDdrEccAddrUncorr, u), (Fl.hubDdrEccAddrTag, t)] s
  match ecc with
  | .clean => s
  | .corrected =>
    let x := subSt s i
    let s := setSub i { x with fix := x.fix ++ [a / 64], rises := tabAdd x.rises (s.now / 1600000000) 1 } s
    setIrq pg 9 (fbump pg Fl.hubDdrEccCorrected 1 (addr 0 0 s))
  | .uncorrectable => recordFault pg 0x0E 1 (fbump pg Fl.hubDdrEccUncorr 1 (addr 1 0 s))
  | .tagMismatch => recordFault pg 0x0E 2 (fbump pg Fl.hubDdrEccUncorr 1 (addr 1 1 s))

/-- The class 0x0E detail of an uncorrectable DDR read. -/
def ddrErr : DdrEcc → Option Nat
  | .uncorrectable => some 1
  | .tagMismatch => some 2
  | _ => none

/-! ## The LLC (R293 to R297) -/

/-- Two addresses share a slice and a set: A[11:6] and A[21:13] are equal (R293). -/
def sameSet (a b : Nat) : Bool := decide (bitsOf a 6 6 = bitsOf b 6 6 ∧ bitsOf a 13 9 = bitsOf b 13 9)

/-- The line of an address in a CACHE way, or in a way whose transition has not invalidated it yet (R294, R296). -/
def llcFind (s : State) (h : HubId) (a : Nat) : Option LlcLine := (hubSt s h).lines.find? (fun l => decide (l.line = a / 64))

/-- The ways a partition's misses may be allocated in (R294). -/
def ownWays (s : State) (h : HubId) (p : PartId) : List Nat :=
  (upTo 16).filter (fun w => wayMode s h w = 0 && wayOwner s h w = p.val && !fbit s (pgLlc h) Fl.hubLlcWaystatBusy w)

/-- The write-back of a dirty line, of class WRITE and the way's owner; `way` is the line's where the line stays until it is
written (R294, R296, R298). -/
def writeBack (s : State) (h : HubId) (l : LlcLine) (way : Option Nat) : HubReq :=
  let p := partOf (wayOwner s h l.way)
  { id := none
    way := way
    who := .host p
    part := p
    safe := false
    cls := 1
    write := true
    addr := l.line * 64
    len := 64
    data := []
    atDdr := true
    reading := false
    counted := false
    late := decide (targetGrant s (regionOf s (.host p) (l.line * 64)) ≠ .served) }

/-- A write-back joins the hub's requests, once for each line; a subchannel that is out of service is brought up for it as for
any request (R315). -/
def queueWb (h : HubId) (r : HubReq) (s : State) : State :=
  if (hubSt s h).reqs.any (fun o => o.id.isNone && decide (o.addr = r.addr)) then s
  else updHub h (fun x => { x with reqs := x.reqs ++ [r] }) (waitEffect r.who (targetGrant s (reqRegion s r)) s)

/-- The dirty lines among `ls` are written back. -/
def queueWbs (h : HubId) (stay : Bool) (ls : List LlcLine) (s : State) : State :=
  (ls.filter LlcLine.dirty).foldl (fun a l => queueWb h (writeBack s h l (if stay then some l.way else none)) a) s

/-- The clean lines of a way that leaves its owner or mode are invalid; each dirty one is once it has been written back, and
served as a hit until then (R296; log 111). -/
def leaveWay (h : HubId) (w : Nat) (s : State) : State :=
  updHub h (fun x => { x with lines := x.lines.filter (fun l => l.way != w || l.dirty) }) s

/-- The HUB_LLC page leaves ON: every dirty line is written back (R316). -/
def llcDrain (h : HubId) (s : State) : State := queueWbs h true (hubSt s h).lines s

/-- A line that stayed for its write-back: invalid if its way is in transition, the flush says so or the page is TURNING_OFF,
else clean (R296, R316, R322). -/
def wroteBack (h : HubId) (r : HubReq) (s : State) : State :=
  match r.way with
  | none => s
  | some w =>
    let gone := fbit s (pgLlc h) Fl.hubLlcWaystatBusy w || (hubSt s h).flushInv.testBit w || !llcOn s h
    updHub h (fun x =>
      let left := if gone then x.lines.filter (fun l => l.line != r.addr / 64)
        else x.lines.map (fun l => if l.line = r.addr / 64 then { l with dirty := false } else l)
      { x with lines := left }) s

/-- A line becomes dirty. -/
def dirtyLine (h : HubId) (n : Nat) (s : State) : State :=
  updHub h (fun x => { x with lines := x.lines.map (fun m => if m.line = n then { m with dirty := true } else m) }) s

/-- Allocate a line in a way of the partition, unless another request has since (R294); which way pseudo-LRU takes is not stated
(log 40). -/
def allocLine (h : HubId) (p : PartId) (a : Nat) (dirty : Bool) (s : State) : State :=
  let ws := ownWays s h p
  if !llcOn s h || ws.isEmpty then s else
  if (llcFind s h a).isSome then (if dirty then dirtyLine h (a / 64) s else s) else
  let f := fresh s
  let w := nth 0 ws (f.1 % ws.length)
  let s := f.2
  let old := (hubSt s h).lines.filter (fun l => sameSet (l.line * 64) a && l.way = w)
  updHub h (fun x => { x with
    lines := x.lines.filter (fun l => !(sameSet (l.line * 64) a && l.way = w)) ++ [⟨a / 64, w, dirty⟩]
    bad := x.bad.filter (fun n => n != a / 64 && !old.any (fun l => decide (l.line = n))) }) (queueWbs h false old s)

/-- Store a request's bytes; a whole line rewritten has no error any more (R297). -/
def storeLine (h : HubId) (r : HubReq) (s : State) : State :=
  let s := if r.id.isNone then s else poke r.addr (r.data.take r.len) s
  if r.len = 64 then updHub h (fun x => { x with bad := x.bad.filter (fun n => n != r.addr / 64) }) s else s

/-- A lookup counts as a hit or a miss of the partition (R321). -/
def countLookup (h : HubId) (p : PartId) (hit : Bool) (s : State) : State :=
  updHub h (fun x => if hit then { x with hits := tabAdd x.hits p.val 1 } else { x with misses := tabAdd x.misses p.val 1 }) s

/-- An uncorrectable error in a dirty line or a window way (R297). -/
def llcUncorr (h : HubId) (r : HubReq) (s : State) : State :=
  let s := setIrq (pgLlc h) 10 (fbump (pgLlc h) Fl.hubLlcEcc2Uncorr 1 s)
  let s := updHub h (fun x => { x with bad := if x.bad.contains (r.addr / 64) then x.bad else x.bad ++ [r.addr / 64] }) s
  errorLine h r (.errorOn (pgLlc h) 0x0E 3 none) s

/-- The set of an address is invalidated, its dirty lines written back first (R297). -/
def dropSet (h : HubId) (a : Nat) (s : State) : State :=
  let old := (hubSt s h).lines.filter (fun l => sameSet (l.line * 64) a)
  updHub h (fun x => { x with lines := x.lines.filter (fun l => !sameSet (l.line * 64) a) }) (queueWbs h false old s)

/-- A request goes on to its subchannel: its requester waits on an LLC miss, or on DDR where its partition's lines are not
cached (R263, R294). -/
def toDdr (h : HubId) (r : HubReq) (s : State) : State :=
  waitsOn r (if (ownWays s h r.part).isEmpty then 4 else 3) (putReq h r { r with atDdr := true, counted := false } s)

/-- The request reads what its line holds: every one but a write of the whole line (R294, R297). -/
def readsLine (r : HubReq) : Bool := !(r.write && decide (r.len = 64))

/-- A corrected error in LLC data (R297). -/
def llcCorrected (h : HubId) (ecc : LlcEcc) (s : State) : State :=
  if ecc = .corrected then setIrq (pgLlc h) 10 (fbump (pgLlc h) Fl.hubLlcEccCorrected 1 s) else s

/-- The LLC serves a line: stores the request's bytes or returns them. -/
def serveLine (h : HubId) (r : HubReq) (s : State) : State :=
  if r.write then answerLine h r [] none (storeLine h r s) else answerLine h r (peek s r.addr r.len) none s

/-- A slice's lookup for a DDR request (R294, R297). -/
def serveSlice (h : HubId) (r : HubReq) (ecc : LlcEcc) (s : State) : State :=
  if ecc = .tagParity then
    let s := setIrq (pgLlc h) 10 (fbump (pgLlc h) Fl.hubLlcEcc2Tagpar 1 (dropSet h r.addr s))
    toDdr h r (countLookup h r.part false s)
  else match llcFind s h r.addr with
  | none => toDdr h r (countLookup h r.part false s)
  | some l =>
    let s := countLookup h r.part true s
    let err := readsLine r && (decide (ecc = .uncorrectable) || (hubSt s h).bad.contains (r.addr / 64))
    if err && l.dirty then llcUncorr h r s
    else if err then
      let s := updHub h (fun x => { x with lines := x.lines.filter (fun m => m.line != l.line), bad := x.bad.filter (fun n => n != l.line) }) s
      toDdr h r (setIrq (pgLlc h) 10 (fbump (pgLlc h) Fl.hubLlcEccRefetch 1 s))
    else
      let s := if readsLine r then llcCorrected h ecc s else s
      serveLine h r (if r.write then dirtyLine h l.line s else s)

/-- An access to a window way (R295, R297). -/
def serveWindow (h : HubId) (r : HubReq) (ecc : LlcEcc) (s : State) : State :=
  if readsLine r && (decide (ecc = .uncorrectable) || (hubSt s h).bad.contains (r.addr / 64)) then llcUncorr h r s
  else serveLine h r (if readsLine r then llcCorrected h ecc s else s)

/-- A position of a subchannel: a read starts; a write that needs no other byte of its line is done (R294, R301). -/
def serveSub (h : HubId) (c : Sub) (r : HubReq) (s : State) : State :=
  let s := touchRow (subNo h c) r.addr s
  let s := if r.atDdr then s else waitsOn r 4 s
  let keep := r.id.isSome && llcOn s h && !(ownWays s h r.part).isEmpty
  if r.write && (!keep || r.len = 64) then
    let s := answerLine h r [] none (storeLine h r s)
    if keep then allocLine h r.part r.addr true s else wroteBack h r s
  else putReq h r { r with reading := true } s

/-- A position's request is served, or completes with the error its target answers. -/
def serveAt (h : HubId) (srv : Nat) (r : HubReq) (ecc : LlcEcc) (s : State) : State :=
  let g := lineGrant s r
  if g != .served then errorLine h r g s
  else match reqRegion s r with
    | .ddr _ c => if srv < 8 then serveSlice h r ecc s else serveSub h c r s
    | _ => serveWindow h r ecc s

/-- The position that a request of class `c` takes is paid from its partition's budget (R301). -/
def payPos (h : HubId) (srv c : Nat) (r : HubReq) (s : State) : State :=
  updHub h (fun x => { x with
    used := tabAdd x.used (srv, c, r.part.val) 1
    last := Tab.put x.last (srv, c) r.part.val
    lastBurst := Tab.put x.lastBurst (srv, c) r.burst }) s

/-- The next position of class `c` comes at a server: requests without budget are counted held, and the position goes to an
eligible request or stays unused (R301). `ecc` is what an LLC lookup finds. -/
def doHubRequest (h : HubId) (srv c : Nat) (ecc : LlcEcc) (s : State) : State :=
  let s := countHeld h srv c s
  match nextPos s h srv c with
  | none => s
  | some p =>
    match claimant s h srv p with
    | none => passPos h srv p s
    | some (r, paid) => serveAt h srv r ecc (passPos h srv p (if paid then payPos h srv c r s else s))

/-- The oldest DDR read of a subchannel returns (R288). -/
def doDdrReadData (h : HubId) (c : Sub) (ecc : DdrEcc) (s : State) : State :=
  match (hubSt s h).reqs.find? (fun r => r.reading && decide (reqRegion s r = .ddr h c)) with
  | none => s
  | some r =>
    let s := ddrEcc (subNo h c) r.addr ecc s
    match ddrErr ecc with
    | some d => answerLine h r [] (some (0x0E, d)) s
    | none =>
      let s := if r.write then storeLine h r s else s
      let s := answerLine h r (peek s r.addr r.len) none s
      allocLine h r.part r.addr r.write s

/-- The oldest corrected line is written back in the next WRITE position, if no request claims it (R288). -/
def doEccWriteback (h : HubId) (c : Sub) (s : State) : State :=
  let i := subNo h c
  match (subSt s i).fix, nextPos s h (8 + c.val) 1 with
  | l :: r, some p =>
    if (claimant s h (8 + c.val) p).isSome then s else
    let s := passPos h (8 + c.val) p (touchRow i (l * 64) s)
    setSub i { subSt s i with fix := r } s
  | _, _ => s

/-! ## Scrub, refresh and calibration (R289, R302, R309 to R312) -/

/-- Lines of a subchannel. -/
def subLines (s : State) : Nat := ddrCapacity s / (2 * subCount s) / 64

/-- The subchannel serves. -/
def subServing (s : State) (h : HubId) (c : Sub) : Bool := pageOn s (pgDdr h c)

/-- Patrol scrub reads its next line, in a position that no request claims (R289); the wheel pauses for it (R302). -/
def doScrubRead (h : HubId) (c : Sub) (ecc : DdrEcc) (s : State) : State :=
  if !(subServing s h c && fon s (pgDdr h c) Fl.hubDdrMaintScrubEn && positionFree s h (8 + c.val)) then s else
  let i := subNo h c
  let a := lineAddr (subCount s) h.val c.val (subSt s i).scrub
  let s := ddrEcc i a ecc (touchRow i a s)
  let next := (subSt s i).scrub + 1
  if next < subLines s then setSub i { subSt s i with scrub := next } s
  else fbump (pgDdr h c) Fl.hubDdrMaintPasses 1 (setSub i { subSt s i with scrub := 0 } s)

/-- The seconds that have passed end: corrections above the limit in one of them are recorded (R289; log 112). -/
def doCeWindow (h : HubId) (c : Sub) (s : State) : State :=
  let i := subNo h c
  let x := subSt s i
  let n := s.now / 1600000000
  if n ≤ x.riseAt then s else
  let tooMany := x.rises.any (fun e => decide (e.1 < n ∧ fget s (pgDdr h c) Fl.hubDdrCeLimitLimit < e.2))
  let s := setSub i { x with rises := Tab.drop x.rises (fun k => decide (k < n)), riseAt := n } s
  if tooMany then recordFault (pgDdr h c) 0x0E 7 s else s

/-- Requests are pending at a subchannel. -/
def subPending (s : State) (h : HubId) (c : Sub) : Bool := (hubSt s h).reqs.any (fun r => decide (serverOf s h r = 8 + c.val))

/-- FABRIC cycles between two refreshes of a rank at a refresh-rate code: 3.9 us, or 1.95 us above the devices' normal limit;
which codes are above it is not stated (R309; log 113). -/
def refreshEvery (mr4 : Nat) : Nat := if mr4 ≤ 2 then 6240 else 3120

/-- A rank's refresh interval has expired: all-bank refresh, which closes its rows, or same-bank while requests are pending; the
rank's refresh-rate code was read (R309). -/
def doRefresh (h : HubId) (c : Sub) (rank mr4 : Nat) (s : State) : State :=
  let i := subNo h c
  let due := (subSt s i).refs.all (fun e => decide (e.1 ≠ rank)
    || decide (e.2.1 + refreshEvery (fget s (pgDdr h c) Fl.hubDdrStatusRefrate) ≤ s.now))
  if !subServing s h c || !due || decide (cfgSubs (memConfig s) ≤ c.val) || decide (Fl.hubMemCfgRanks.get (memConfig s) < rank) then s else
  let same := fon s (pgDdr h c) Fl.hubDdrMaintSamebank && subPending s h c
  let x := subSt s i
  let s := setSub i { x with refs := Tab.put x.refs rank (s.now, same), rows := if same then x.rows else Tab.drop x.rows (fun k => decide (k / 32 = rank)) } s
  fset (pgDdr h c) Fl.hubDdrStatusRefrate mr4 s

/-- The activates of a bank at which its devices ask for RFM; the spec states no number (R309; log 7). -/
def rfmLimit (i : Nat) : Nat := Config.openValue 40 [(i : Int)]

/-- A bank's activate count has reached the devices' threshold: RFM is issued and its count restarts (R309). -/
def doRfm (h : HubId) (c : Sub) (rank bank : Nat) (s : State) : State :=
  if !(subServing s h c && fon s (pgDdr h c) Fl.hubDdrMaintRfm) then s else
  let x := subSt s (subNo h c)
  if Tab.get 0 x.acts (rank * 32 + bank) < rfmLimit (subNo h c) then s else
  setSub (subNo h c) { x with acts := Tab.drop x.acts (fun k => decide (k = rank * 32 + bank)), rows := Tab.drop x.rows (fun k => decide (k = rank * 32 + bank)) } s

/-- A move towards a target by at most `n` steps. -/
def stepTo (n : Int) (now target : Int) : Int := clampI (-n) n (target - now)

/-- The move of one lane's write and read centring (R310). -/
def laneMoves (s : State) (pg : PageKey) (drift centre : List Int) (l : Nat) : Int × Int :=
  let wr' := (fget s pg (Fl.hubDdrLaneWr l) : Int)
  let rd' := (fget s pg (Fl.hubDdrLaneRd l) : Int)
  (stepTo 2 wr' ((fget s pg (Fl.hubDdrLaneWrTrained l) : Int) + nth 0 drift l), stepTo 1 rd' (nth rd' centre l))

/-- How far a lane's centrings stand from their trained values. -/
def laneAway (s : State) (pg : PageKey) (l : Nat) : Nat :=
  Nat.max ((fget s pg (Fl.hubDdrLaneWr l) : Int) - fget s pg (Fl.hubDdrLaneWrTrained l)).natAbs
    ((fget s pg (Fl.hubDdrLaneRd l) : Int) - fget s pg (Fl.hubDdrLaneRdTrained l)).natAbs

/-- One calibration: `drift` is each lane's drift from training, `centre` the read centres the edge samplers find,
`osc` the oscillator count of lane 0 of the rank; OSC keeps rank 0's, and the ranks take turns (R310, R311, R319). -/
def calibrate (h : HubId) (c : Sub) (drift centre : List Int) (osc : Nat) (s : State) : State :=
  let pg := pgDdr h c
  let mv := (upTo 5).map (laneMoves s pg drift centre)
  let most := (mv.map (fun m => Nat.max m.1.natAbs m.2.natAbs)).foldl Nat.max 0
  let lim := fget s pg Fl.hubDdrCalCtrlDriftLimit
  let near := (upTo 5).filter (fun l => decide (laneAway s pg l ≤ lim))
  let i := subNo h c
  let rank := (subSt s i).calRank
  let s := (upTo 5).foldl (fun s l =>
    let m := nth (0, 0) mv l
    fset pg (Fl.hubDdrLaneWr l) (unsignedOf 8 (clampI 0 255 (fget s pg (Fl.hubDdrLaneWr l) + m.1)))
      (fset pg (Fl.hubDdrLaneRd l) (unsignedOf 8 (clampI 0 255 (fget s pg (Fl.hubDdrLaneRd l) + m.2))) s)) s
  let away := ((upTo 5).map (laneAway s pg)).foldl Nat.max 0
  let s := fsets pg [(Fl.hubDdrCalStatLastMove, most), (Fl.hubDdrCalStatMaxDrift, min 255 (Nat.max away (fget s pg Fl.hubDdrCalStatMaxDrift)))]
    (fwrap pg Fl.hubDdrCalStatCount 1 s)
  let s := if rank = 0 then fset pg Fl.hubDdrOscCount osc s else s
  let beyond := near.filter (fun l => decide (lim < laneAway s pg l))
  let s := setSub i { subSt s i with
    calAt := s.us
    calRank := (rank + 1) % (Fl.hubMemCfgRanks.get (memConfig s) + 1)
    retrain := (subSt s i).retrain || !beyond.isEmpty } s
  let s := beyond.foldl (fun s _ => recordFault pg 0x0E 6 s) s
  let quiet := if most ≤ 1 then (subSt s i).quiet + 1 else 0
  if drift.any (fun d => decide (4 < d.natAbs)) then
    let s := setSub i { subSt s i with quiet := if fon s pg Fl.hubDdrStatusCalFast then quiet else 0 } s
    if fon s pg Fl.hubDdrStatusCalFast && decide (2 ≤ quiet) then fset pg Fl.hubDdrStatusCalFast 0 s
    else if fon s pg Fl.hubDdrStatusCalFast then s
    else setIrq pg 8 (fset pg Fl.hubDdrStatusCalFast 1 s)
  else
    let s := setSub i { subSt s i with quiet := quiet } s
    if 2 ≤ quiet then fset pg Fl.hubDdrStatusCalFast 0 s else s

/-- Calibrations of a subchannel that have fallen due by a microsecond: one in each INTERVAL, at the subchannel's offset (R310;
log 114). -/
def calsDue (s : State) (h : HubId) (c : Sub) (us : Nat) : Nat :=
  let every := 1000 * max 1 (fget s (pgDdr h c) Fl.hubDdrCalCtrlInterval)
  let at' := subNo h c * every / 8
  if us < at' then 0 else (us - at') / every + 1

/-- A calibration is due: every 1 ms while CAL_FAST is set, else once in each INTERVAL (R310, R311). -/
def calDue (s : State) (h : HubId) (c : Sub) : Bool :=
  let last := (subSt s (subNo h c)).calAt
  if fon s (pgDdr h c) Fl.hubDdrStatusCalFast then decide (last + 1000 ≤ s.us) else decide (calsDue s h c last < calsDue s h c s.us)

/-- A live calibration of a subchannel in service (R310). -/
def doCalibration (h : HubId) (c : Sub) (drift centre : List Int) (osc : Nat) (s : State) : State :=
  if subServing s h c && fon s (pgDdr h c) Fl.hubDdrCalCtrlLiveEn && calDue s h c then calibrate h c drift centre osc s else s

/-! ## Ways and flushes (R296, R322) -/

/-- First address of a way's window. -/
def windowBase (h : HubId) (w : Nat) : Nat := 0x1800000000 + h.val * 0x2000000 + w * 0x200000

/-- Zero a way's window. -/
def zeroWindow (h : HubId) (w : Nat) (s : State) : State :=
  let s := pokeZero (windowBase h w) (windowBase h w + 0x200000) s
  updHub h (fun x => { x with bad := x.bad.filter (fun n => !within (windowBase h w / 64) (windowBase h w / 64 + 0x7FFF) n) }) s

/-- The dirty lines of a flushed CACHE way that is not in transition are written back (R322). -/
def flushWay (h : HubId) (s : State) (w : Nat) : State :=
  if (hubSt s h).flush.testBit w && wayMode s h w = 0 && !fbit s (pgLlc h) Fl.hubLlcWaystatBusy w then
    queueWbs h true ((hubSt s h).lines.filter (fun l => l.way = w)) s
  else s

/-- A way's transition ends once its lines are written back and gone: a window is zero, and a flush that named the way starts
there (R296, R322). -/
def doWayDone (h : HubId) (w : Nat) (s : State) : State :=
  if !fbit s (pgLlc h) Fl.hubLlcWaystatBusy w || (hubSt s h).lines.any (fun l => l.way = w) then s
  else flushWay h (setIrq (pgLlc h) 8 (fsetBit (pgLlc h) Fl.hubLlcWaystatBusy w false (zeroWindow h w s))) w

/-- A write to HUB_LLC_FLUSH (R322). -/
def llcFlush (h : HubId) (v : Word) (s : State) : State :=
  let ways := Fl.hubLlcFlushWays.get v
  let s := updHub h (fun x => { x with
    flush := x.flush ||| ways
    flushInv := if v.toNat.testBit 16 then x.flushInv ||| ways else x.flushInv }) s
  (upTo 16).foldl (flushWay h) s

/-- A way that a flush named is still to be flushed: it is in transition, or lines of it wait to be written back (R322). -/
def flushLeft (s : State) (h : HubId) : Bool :=
  (upTo 16).any (fun w => (hubSt s h).flush.testBit w &&
    (fbit s (pgLlc h) Fl.hubLlcWaystatBusy w || (hubSt s h).reqs.any (fun r => decide (r.way = some w))))

/-- A flush ends once every way it named is flushed (R322). -/
def doFlushDone (h : HubId) (s : State) : State :=
  if (hubSt s h).flush = 0 || flushLeft s h then s
  else setIrq (pgLlc h) 9 (updHub h (fun x => { x with flush := 0, flushInv := 0 }) s)

/-! ## Software's clears (R318, R319, R321) -/

/-- HUB_BW_CLR.HELD. -/
def hubBwClear (h : HubId) (s : State) : State := zeroRegs (pgHub h) [0x130, 0x134, 0x138, 0x13C] s
/-- HUB_LLC_CNT_CLR.STAT: the counts that HITS and MISSES report. -/
def llcStatClear (h : HubId) (s : State) : State := updHub h (fun x => { x with hits := [], misses := [] }) s

/-! ## Registers that report what a hub counts -/

/-- HUB_LOAD_VALp of the selection in HUB_LOAD_SELp (R318). -/
def loadVal (s : State) (h : HubId) (p : Nat) : Nat :=
  Tab.get 0 (hubSt s h).load (fget s (pgHub h) (Fl.hubLoadSelServer p), fget s (pgHub h) (Fl.hubLoadSelClass p), p)

/-- HUB_LLC_HITS and HUB_LLC_MISSES of the partition in HUB_LLC_STAT_SEL (R321). -/
def llcHits (s : State) (h : HubId) : Nat := Tab.get 0 (hubSt s h).hits (fget s (pgLlc h) Fl.hubLlcStatSelPart)
def llcMisses (s : State) (h : HubId) : Nat := Tab.get 0 (hubSt s h).misses (fget s (pgLlc h) Fl.hubLlcStatSelPart)

/-- HUB_MEM_CAP: 0 until every populated subchannel of both hubs has first reached ON (R318). -/
def memCap (s : State) : Nat :=
  if (upTo 8).all (fun i => decide (subCount s ≤ i % 4) || (subSt s i).up) then ddrCapacity s / 2 ^ 30 else 0

/-! ## The meanings -/

def execHubRequest (h : HubId) (server : Fin 12) (cls : Fin 3) (ecc : LlcEcc) (s : State) : Host.Outcome State Fault Refusal :=
  ok (doHubRequest h server.val cls.val ecc s)
def execBwPeriodEnd (h : HubId) (server : Fin 12) (s : State) : Host.Outcome State Fault Refusal := ok (doPeriodEnd h server.val s)
def execDdrReadData (h : HubId) (sub : Sub) (ecc : DdrEcc) (s : State) : Host.Outcome State Fault Refusal := ok (doDdrReadData h sub ecc s)
def execEccWriteback (h : HubId) (sub : Sub) (s : State) : Host.Outcome State Fault Refusal := ok (doEccWriteback h sub s)
def execScrubRead (h : HubId) (sub : Sub) (ecc : DdrEcc) (s : State) : Host.Outcome State Fault Refusal := ok (doScrubRead h sub ecc s)
def execCeRateWindow (h : HubId) (sub : Sub) (s : State) : Host.Outcome State Fault Refusal := ok (doCeWindow h sub s)
def execRefresh (h : HubId) (sub : Sub) (rank : Fin 2) (mr4 : Fin 8) (s : State) : Host.Outcome State Fault Refusal :=
  ok (doRefresh h sub rank.val mr4.val s)
def execRfm (h : HubId) (sub : Sub) (rank : Fin 2) (bank : Fin 32) (s : State) : Host.Outcome State Fault Refusal :=
  ok (doRfm h sub rank.val bank.val s)
def execLiveCalibration (h : HubId) (sub : Sub) (drift centre : List Int) (osc : BitVec 16) (s : State) : Host.Outcome State Fault Refusal :=
  ok (doCalibration h sub drift centre osc.toNat s)
def execWayTransitionDone (h : HubId) (w : Fin 16) (s : State) : Host.Outcome State Fault Refusal := ok (doWayDone h w.val s)
def execLlcFlush (who : Requester) (h : HubId) (v : Word) (s : State) : Host.Outcome State Fault Refusal :=
  ok (guarded who (pgLlc h) 0x130 (llcFlush h v) s)
def execFlushDone (h : HubId) (s : State) : Host.Outcome State Fault Refusal := ok (doFlushDone h s)
def execHubLoadInterval (h : HubId) (s : State) : Host.Outcome State Fault Refusal := ok (doLoadInterval h s)
def execHubBwClr (who : Requester) (h : HubId) (s : State) : Host.Outcome State Fault Refusal :=
  ok (guarded who (pgHub h) 0x160 (hubBwClear h) s)
def execHubDdrClrEcc (who : Requester) (h : HubId) (sub : Sub) (s : State) : Host.Outcome State Fault Refusal :=
  ok (guarded who (pgDdr h sub) 0x150 (zeroRegs (pgDdr h sub) [0x140, 0x144]) s)
def execHubDdrClrCal (who : Requester) (h : HubId) (sub : Sub) (s : State) : Host.Outcome State Fault Refusal :=
  ok (guarded who (pgDdr h sub) 0x150 (zeroRegs (pgDdr h sub) [0x108]) s)
def execHubLlcClrStat (who : Requester) (h : HubId) (s : State) : Host.Outcome State Fault Refusal :=
  ok (guarded who (pgLlc h) 0x134 (llcStatClear h) s)
def execHubLlcClrEcc (who : Requester) (h : HubId) (s : State) : Host.Outcome State Fault Refusal :=
  ok (guarded who (pgLlc h) 0x134 (zeroRegs (pgLlc h) [0x120, 0x124]) s)

end Sys2Proof.Machine
end

