-- ==== Sys2Proof/Machine/LinkBase.lean ====
section
/-! DEFINITION. Links that leave service and return to it, and HUB_LINK_CTRL (01, R21 to R30; 13, R446, R512). -/

namespace Sys2Proof.Machine

def allLinks : List LinkId := (upTo 6).map (fun i => ⟨i % 6, Nat.mod_lt _ (by decide)⟩)

/-- The switched domains that hold a link's endpoints (R26, R446). -/
def linkDomains (k : LinkId) : List Nat := [(linkEnds k).1, (linkEnds k).2].filterMap linkDomain

/-- Both endpoints of a link are powered. -/
def linkPowered (s : State) (k : LinkId) : Bool := (linkDomains k).all (domainOn s)

/-- The link has an endpoint at the XD link ports, which stop when VAON fails (R512). -/
def linkAtXd (k : LinkId) : Bool := decide ((linkEnds k).1 = .xd ∨ (linkEnds k).2 = .xd)

/-- Set STATE of a link (R27). -/
def setLink (k : LinkId) (v : Nat) (s : State) : State := fset (pgHub 0) (Fl.hubLinkStatState k.val) v s

/-- Record a link fault: on both HUB pages, with one record whose SOURCE is HA's (R30). -/
def linkFault (det : Nat) (s : State) : State := recordFault (pgHub 0) 0x0F det (latchFault (pgHub 1) 0x0F det s)

/-! ## Requests that a link loses (R24) -/

/-- Change an outstanding request. -/
def updOut (id : Nat) (f : Outstanding → Outstanding) (s : State) : State :=
  { s with outstanding := s.outstanding.map (fun o => if o.id = id then f o else o) }

/-- What has reached a hub for a request is gone: it is issued again, or it has completed with an error. -/
def dropLines (id : Nat) (s : State) : State :=
  { s with hubs := s.hubs.map (fun e => (e.1, { e.2 with reqs := e.2.reqs.filter (fun r => decide (r.id ≠ some id)) })) }

/-- A request that crossed a link leaving UP (R24): a register write completes with an error response; every other
request waits to be issued once more. -/
def loseRequest (k : LinkId) (o : Outstanding) (s : State) : State :=
  if !o.path.contains k then s else
  let s := dropLines o.id s
  if o.req.write && decide (regionOf s o.who o.req.addr.toNat = .regs) then
    linkFault 4 (updOut o.id (fun o => { o with place := .answered, err := some (0x0F, 4), data := [], path := [], around := none }) s)
  else updOut o.id (fun o => { o with place := .held k, err := none, data := [], path := [], around := none }) s

/-- A link leaves UP for RETRAIN or DOWN (R21, R23, R24). -/
def leaveUp (k : LinkId) (v : Nat) (s : State) : State :=
  let s := setLinkSt k { linkSt s k with replays := 0, toReplay := 0, unacked := 0 } (setLink k v s)
  s.outstanding.foldl (fun s o => loseRequest k o s) s

/-- A retrain begins, and is counted (R22, R27). -/
def beginRetrain (k : LinkId) (s : State) : State := setLink k 3 (fbump (pgHub 0) (Fl.hubLinkStatRetrainCnt k.val) 1 s)

/-- A third failure puts the link in DOWN until the next package reset (R22, R26); `det` is the detail recorded. -/
def trainingFailed (k : LinkId) (det : Nat) (again : State → State) (s : State) : State :=
  let n := (linkSt s k).fails + 1
  let s := setLinkSt k { linkSt s k with fails := n } s
  if 3 ≤ n then linkFault det (setLink k 4 s) else again s

/-- A link enters UP: the grid of counting intervals starts (R21, R25). The traffic stays on a detour that still has a
request outstanding. -/
def enterUp (k : LinkId) (s : State) : State :=
  let s := setLink k 2 (setLinkSt k { fails := 0, gridAt := s.now, trainAt := (linkSt s k).trainAt, lastTag := (linkSt s k).lastTag } s)
  if s.outstanding.any (fun o => o.around = some k) then s else fset (pgHub 0) (Fl.hubLinkStatDetour k.val) 0 s

/-! ## HUB_LINK_CTRL (R28) -/

/-- FORCE_DOWN of a link becomes 1: it is out of service and STATE reads 4. -/
def forceLink (k : LinkId) (s : State) : State := if linkState s k = 2 then leaveUp k 4 s else setLink k 4 s

/-- FORCE_DOWN of a link becomes 0: a retrain starts, unless the link is DOWN until reset or an endpoint is not powered. -/
def freeLink (k : LinkId) (s : State) : State :=
  if 3 ≤ (linkSt s k).fails then s
  else if linkPowered s k then beginRetrain k s
  else setLink k 0 s

/-- FORCE_DOWN has changed from `old`. -/
def forceChanged (old : Nat) (s : State) : State :=
  let new := fget s (pgHub 0) Fl.hubLinkCtrlForceDown
  allLinks.foldl (fun s k =>
    if !old.testBit k.val && new.testBit k.val then forceLink k s
    else if old.testBit k.val && !new.testBit k.val then freeLink k s
    else s) s

/-- A reset of a HUB page: HUB_LINK_CTRL takes the value `v`, unless the page's lock holds it, and the counters return to
0; STATE, DETOUR and SPARED show what is (R51, R52, log 44). -/
def resetLinks (lock : Bool) (v : Word) (s : State) : State :=
  let s := (upTo 6).foldl (fun s k => wr (pgHub 0) (0x800 + 4 * k) (rd s (pgHub 0) (0x800 + 4 * k) &&& 0x1F) s) s
  if lock then s else forceChanged (fget s (pgHub 0) Fl.hubLinkCtrlForceDown) (wr (pgHub 0) 0x820 v s)

end Sys2Proof.Machine
end

