-- ==== Sys2Proof/Machine/Lines.lean ====
section
/-! DEFINITION. One line on its way from any requester to its target and back: decoded, routed, held for links that are not
UP, checked at the serving die, put at a hub, answered (01, R18 to R26, R31 to R33; 09, R290, R298, R315; 11, R374, R378,
R379). What a request for a register does is the caller's: `regs`. -/

namespace Sys2Proof.Machine

/-! ## At the serving die -/

/-- A request completes. -/
def finishReq (id : Nat) (err : Option (Nat × Nat)) (data : List Byte) (s : State) : State :=
  updOut id (fun o => { o with place := .answered, err := err, data := data }) s

/-- A request completes with an error that its requester's page records (R26, R33, R379). -/
def refuseOut (o : Outstanding) (cls det : Nat) (s : State) : State := finishReq o.id (some (cls, det)) [] (refuseReq o.who cls det s)

/-- What a request for a register does, where the serving die answers one. -/
abbrev RegServe := Outstanding → PageKey → Nat → State → State

/-- A request for a register that is no aligned 32-bit access: it writes nothing, reads 0 and is recorded on the page (R37). -/
def oddRegister (o : Outstanding) (pg : PageKey) (s : State) : State :=
  finishReq o.id none (if o.req.write then [] else List.replicate o.req.len 0) (recordFault pg 6 8 s)

/-- The line request that an outstanding request puts at a hub; `k` is the link it arrives on (R298). -/
def hubReqOf (s : State) (o : Outstanding) : HubReq :=
  let cls := match o.path.getLast? with
    | some k => hubClass k o.req.write
    | none => 2
  { id := some o.id
    who := o.who
    part := reqPart s o.who
    safe := reqSafe s o.who
    cls := cls
    write := o.req.write
    addr := o.req.addr.toNat
    len := o.req.len
    data := o.req.data
    atDdr := false
    reading := false
    counted := false
    late := decide (targetGrant s (regionOf s o.who o.req.addr.toNat) ≠ .served)
    burst := o.burst }

/-- A request reaches a bank of tile `u`'s scratchpad, after a redirect (R244 to R249, R430). -/
def atBank (u : TileId) (o : Outstanding) (s : State) : State :=
  let off := o.req.addr.toNat % 0x100000
  let port := spadPort o.who u
  match spadCheck s u port o.req.write o.slot (off / 64 * 64) with
  | some d => finishReq o.id (some (4, d)) [] (spadFault u port o.req.write off d s)
  | none =>
    let s := useBank (portRank port) u s (off / 0x10000)
    if o.req.write then finishReq o.id none [] (poke (spadBase u + off) (o.req.data.take o.req.len) s)
    else finishReq o.id none (peek s (spadBase u + off) o.req.len) s

/-! ## Requests that the model serves at once (log 84) -/

/-- The class a request of a die takes at a hub: that of the link it arrives on (R298). -/
def classOf (s : State) (who : Requester) (write : Bool) (a : Nat) (g : Region) : Nat :=
  match routeOf s (reqDie who) (regionDie a g) with
  | .path l => match l.getLast? with
    | some k => hubClass k write
    | none => 2
  | _ => 2

/-- A position of a server that a request served at once uses. -/
def usePos (h : HubId) (srv c : Nat) (p : PartId) (s : State) : State :=
  updHub h (fun x => { x with used := tabAdd x.used (srv, c, p.val) 1 }) s

/-- A line that a host, a firmware core or an engine reads or writes at once leaves what every request leaves at its server: the
position it used, the lookup's count and line, the row it opened, the bank's cycle (R245, R291, R294, R301, R321); a line of
register space is no aligned 32-bit access (R37; logs 70 and 84). -/
def noteLine (who : Requester) (write : Bool) (a : Nat) (s : State) : State :=
  let g := regionOf s who a
  let p := reqPart s who
  let c := classOf s who write a g
  match g with
  | .regs => match regTarget a with
    | some t => recordFault t.1 6 8 s
    | none => s
  | .spad t =>
    let u := redirTile s t
    useBank (portRank (spadPort who u)) u s (a % 0x100000 / 0x10000)
  | .window h _ => usePos h (bitsOf a 6 3) c p s
  | .ddr h k =>
    let ddr := fun (s : State) => touchRow (subNo h k) a (usePos h (8 + k.val) c p s)
    if !llcOn s h then ddr s else
    let s := usePos h (bitsOf a 6 3) c p s
    match llcFind s h a with
    | some l => countLookup h p true (if write then dirtyLine h l.line s else s)
    | none => allocLine h p a write (ddr (countLookup h p false s))
  | _ => s

/-- The lines of `[a, a+n)`. -/
def noteLines (who : Requester) (write : Bool) (a n : Nat) (s : State) : State :=
  (lineCuts a n).foldl (fun s c => noteLine who write c.1 s) s

/-! ## Delivery -/

/-- A request reaches the die that serves it (R31, R290, R298, R315, R378). -/
def deliver (regs : RegServe) (o : Outstanding) (s : State) : State :=
  let a := o.req.addr.toNat
  let g := regionOf s o.who a
  match g with
  | .regs => match regTarget a with
    | some t => regs o t.1 t.2 s
    | none => s
  | .ddr h _ | .window h _ =>
    match firewall s (reqPart s o.who) (reqSafe s o.who) o.req.write a g with
    | some d => refuseOut o 5 d s
    | none => updHub h (fun x => { x with reqs := x.reqs ++ [hubReqOf s o] }) (waitEffect o.who (targetGrant s g) s)
  | .spad t =>
    match firewall s (reqPart s o.who) (reqSafe s o.who) o.req.write a g with
    | some d => refuseOut o 5 d s
    | none => atBank (redirTile s t) o s
  | _ =>
    match grantOf s o.who o.req.write a with
    | .error c d => refuseOut o c d s
    | .errorOn pg c d x => finishReq o.id (some (c, d)) [] (recordOn pg c d x s)
    | _ =>
      if o.req.write then finishReq o.id none [] (poke a (o.req.data.take o.req.len) s) else finishReq o.id none (peek s a o.req.len) s

/-! ## On the way -/

/-- The die a request goes to. -/
def targetDie (s : State) (o : Outstanding) : Die := regionDie o.req.addr.toNat (regionOf s o.who o.req.addr.toNat)

/-- No die decodes the address (R33, R35). -/
def unmapped (s : State) (o : Outstanding) : Bool :=
  match regionOf s o.who o.req.addr.toNat with
  | .none => true
  | .regs => (regTarget o.req.addr.toNat).isNone
  | _ => false

/-- The dies a path passes through on its way. -/
def passedDies (a : Die) : List LinkId → List Die
  | [] => []
  | [_] => []
  | k :: r =>
    let b := if (linkEnds k).1 = a then (linkEnds k).2 else (linkEnds k).1
    b :: passedDies b r

/-- The firewall of a die that a request passes through checks it as the serving die's does: what the partitions hold is one
configuration, which every die's firewall applies (R19, R378). -/
def passedFirewall (s : State) (o : Outstanding) (l : List LinkId) : Option Nat :=
  let a := o.req.addr.toNat
  if (passedDies (reqDie o.who) l).isEmpty then none
  else firewall s (reqPart s o.who) (reqSafe s o.who) o.req.write a (regionOf s o.who a)

/-- Send a request, or hold it at the port of the link it waits for (R18, R23, R25, R26). -/
def sendReq (regs : RegServe) (o : Outstanding) (s : State) : State :=
  if unmapped s o then refuseOut o 0x0F 5 s else
  let src := reqDie o.who
  let dst := targetDie s o
  match routeOf s src dst with
  | .noRoute => refuseOut o 0x0F 3 s
  | .held k => wakeLink k (reqPart s o.who) (updOut o.id (fun x => { x with place := .held k }) s)
  | .path l =>
    let o := { o with path := l, around := if 2 ≤ l.length then directLink src dst else none, place := .sent, issues := o.issues + 1 }
    let tag := (reqPart s o.who).val
    let s := l.foldl (fun s k => setLinkSt k { linkSt s k with unacked := (linkSt s k).unacked + 1, lastTag := tag } s) (updOut o.id (fun _ => o) s)
    match passedFirewall s o l with
    | some d => refuseOut o 5 d s
    | none => deliver regs o s

/-- The epoch a tile engine's request carries (R184, R187). -/
def reqEpoch (s : State) : Requester → Nat
  | .tile t .s0 => (tile s t).epoch0
  | .tile t .s1 => (tile s t).epoch1
  | _ => 0

/-- A request for one line, or part of one, is issued; `slot` when it is for a buffer of a ring its command names (R247), and
`burst` is the first request of those that a stream engine issues to a hub as one (R260). -/
def issueLine (regs : RegServe) (who : Requester) (write : Bool) (a : Nat) (len : Nat) (d : List Byte) (s : State)
    (slot : Bool := false) (burst : Nat := 0) : State :=
  let o : Outstanding := {
    id := s.nextReq
    who := who
    req := ⟨write, BitVec.ofNat 40 a, len, d⟩
    path := []
    around := none
    place := .sent
    err := none
    data := if write then [] else List.replicate len 0
    epoch := reqEpoch s who
    issues := 0
    slot := slot
    burst := burst }
  sendReq regs o { s with outstanding := s.outstanding ++ [o], nextReq := s.nextReq + 1 }

end Sys2Proof.Machine
end

