-- ==== Sys2Proof/Machine/Lane.lean ====
section
/-! DEFINITION. The lane engine: LOADW, STREAM, its rows, the checksum lane (03, R70 to R94; 04, R114 to R121, R143). -/

namespace Sys2Proof.Machine

/-! ## LOADW (R75, R78, R114, R170) -/

/-- LANE_STATUS.FMT of a plane type: INT4 0, INT8 1, BF16 2; `none` for a type no plane has (R71, R111). -/
def planeFmt : Nat → Option Nat
  | 0 => some 0
  | 1 => some 1
  | 4 => some 2
  | _ => none

/-- Inner size of a plane (R71). -/
def planeInner (fmt : Nat) : Nat := if fmt = 0 then 64 else 32

/-- Bytes of a plane (R71). -/
def planeBytes (fmt : Nat) : Nat := if fmt = 2 then 2048 else 1024

/-- The columns of a plane read from memory: XPOSE = 0 takes line j as lane j's column, XPOSE = 1 takes line i as inner
index i (R78). The weight zero point is subtracted as it is written (R114); BF16 patterns stay. -/
def readPlane (m : List Host.Cell) (a ty fmt : Nat) (xpose : Bool) (zp : Int) : List (List Int) :=
  let inner := planeInner fmt
  (upTo 32).map (fun j => (upTo inner).map (fun i =>
    let ix := if xpose then i * 32 + j else j * inner + i
    let v := readElem m ty (2 * a + ix * etNib ty)
    if fmt = 2 then (v : Int) else elemInt ty v - zp))

/-- Checks 6 to 8 of R519 for a LOADW (R170, R241). -/
def loadwBad (s : State) (t : TileId) (ds : List (Option (List Word))) (d : List Word) (ofs : Nat) : Option (Nat × Nat) :=
  if ringInvalid s ds then some (2, 0x05)
  else match planeFmt (dType d) with
    | none => some (2, 0x13)
    | some fmt =>
      if spadAlloc ds then some (1, 0x01)
      else if dLoc d = 3 && decide (bufBytes s t (dRing d) < ofs + planeBytes fmt) then some (1, 0x02) else none

/-- A LOADW dispatches: the shadow plane starts to be written (R75, R76). -/
def doLoadw (t : TileId) (s : State) : State :=
  if 2 ≤ (tile s t).loads.length then s else
  withHead s t .lane 0x01 (fun e ds =>
    match ds with
    | [some d] =>
      let consume := cf e 0 15 1 = 1
      let ofs := cf e 3 0 16 * 16
      match unlessPassed e (loadwBad s t ds d ofs), planeFmt (dType d) with
      | some (c, det), _ => rejectCmd t .lane e c det s
      | none, none => rejectCmd t .lane e 2 0x13 s
      | none, some fmt =>
          match slotCheck s t [(d, consume)] [] with
            | some det => if ilActive s t then ilockWait t .lane e det 0 s else violation t .lane e det s
            | none =>
              let a := srcStart s d + ofs
              match spadGuard t .lane false (dLoc d = 3) a (planeBytes fmt) s with
              | some s' => s'
              | none =>
                let r := takeSteps t [(d, consume)] [] false (useBanks 2 t a (planeBytes fmt) s)
                let x := tile r.1 t
                let sh := 1 - x.active
                let cols := readPlane s.mem (spadBase t + a) (dType d) fmt (cf e 0 10 1 = 1) (dZp d)
                let x := setPlane sh { planeOf x sh with valid := false, fresh := true } { x with loads := x.loads ++ [⟨e.num, sh, fmt, cols⟩] }
                dispatched t .lane e.num (fun e => { e with steps := r.2 }) (setTile t x r.1)
    | _ => s)

/-- The last write of the oldest LOADW lands: its plane is valid, unless a later LOADW is overwriting it (R75 to R77). -/
def doPlaneValid (t : TileId) (s : State) : State :=
  let x := tile s t
  match x.loads with
  | [] => s
  | l :: r =>
    if beingKilled x .lane then s else
    setPhase t .lane l.num .complete (setTile t (setPlane l.plane ⟨!r.any (fun k => k.plane = l.plane), l.fmt, true, l.cols⟩ { x with loads := r }) s)

/-! ## STREAM: dispatch (R71 to R80, R91, R117, R171) -/

/-- The mode of a plane format and a streamed type (R71); per-lane INT4 runs as INT8 (R93). -/
def laneMode (fmt ty : Nat) (perlane : Bool) : Option Nat :=
  match fmt, ty with
  | 0, 0 => some (if perlane then 1 else 0)
  | 1, 1 => some 1
  | 1, 2 => some 2
  | 2, 4 => some 3
  | _, _ => none

/-- Cycles per row of a mode (R71). -/
def laneRc (mode : Nat) : Nat := if mode = 2 then 2 else if mode = 3 then 4 else 1

/-- The column that completes output row `k`: c(k) (R92), or `k` itself outside per-lane mode. -/
def laneCol (r : LaneRun) (k : Nat) : Nat := if r.perlane then k * r.sw + (r.kw - 1) * r.dw else k

/-- Read cycles of a run: N columns, or ROWS rows (R72, R92). -/
def laneCols (r : LaneRun) : Nat := laneCol r (r.rows - 1) + 1

/-- The cycle, from its dispatch, in which row `k` of a run enters P1, and the one in which it is readable (R72, R92). -/
def p1Cycle (r : LaneRun) (k : Nat) : Nat := 4 + laneCol r k * laneRc r.mode
def readCycle (r : LaneRun) (k : Nat) : Nat := 7 + (laneCol r k + 1) * laneRc r.mode

/-- Rows that have entered P1 before row `k` of the run is readable (R72). -/
def enteredBefore (r : LaneRun) (k : Nat) : Nat :=
  min r.rows (k + ((upTo 8).filter (fun i => decide (p1Cycle r (k + i) < readCycle r k))).length)

/-- The run has issued all its reads: the rows not yet readable are those still in the pipeline when the row path frees
(R73, R92). -/
def pathFree (r : LaneRun) : Bool :=
  decide (r.rows ≤ r.next) || decide (laneCols r * laneRc r.mode < 7 + (laneCol r r.next + 1) * laneRc r.mode)

/-- Bytes of one streamed row (R171). -/
def streamRowBytes (mode ty : Nat) : Nat := if mode = 0 then 32 else rowBytes ty

/-- The rows of the accumulator a run or a queued STREAM writes: bank, base, rows. -/
def streamWrites (e : QEntry) (bank row : Nat) : Bool :=
  let rows := cf e 2 0 20 + 1
  opcodeOf e = 0x02 && cf e 0 12 1 = bank && (decide (64 ≤ rows) || decide ((row + 64 - cf e 0 16 6) % 64 < rows))

/-- The accumulator rows a vector command still has to read: bank and row. -/
def vecRowsLeft (s : State) (t : TileId) (e : QEntry) : List (Nat × Nat) :=
  if opcodeOf e = 0x10 && cf e 0 12 1 = 1 then
    let done := match (tile s t).vecRun with
      | some r => if r.num = e.num then r.next else if e.phase = .queued then 0 else cf e 2 16 16 + 1
      | none => if e.phase = .queued then 0 else cf e 2 16 16 + 1
    ((upTo (cf e 2 16 16 + 1)).drop done).map (fun i => (cf e 0 13 1, (cf e 0 14 6 + i) % 64))
  else []

/-- A vector command numbered below `num` still has to read a row the STREAM writes (R212). -/
def vecReadsAhead (s : State) (t : TileId) (e : QEntry) : Bool :=
  let x := tile s t
  x.vec.any (fun v => numBelow x v.num e.num && (vecRowsLeft s t v).any (fun p => streamWrites e p.1 p.2))

/-- The wide form of a command's output type (R134). -/
def outTypeOf (e : QEntry) (d : List Word) : Nat := if e.wide && decide (dType d ≤ 1) then 2 else dType d

/-- The run of a STREAM that dispatches: everything its rows use, read now (R121). -/
def mkLaneRun (s : State) (t : TileId) (e : QEntry) (d : List Word) (o : Option (List Word)) (mode ty : Nat) (plane : Nat) : LaneRun :=
  let perlane := cf e 0 14 1 = 1
  let drain := cf e 0 11 1 = 1
  let inOfs := cf e 3 0 16 * 16
  let outOfs := cf e 3 16 16 * 16
  let oty := match o with
    | some d => outTypeOf e d
    | none => 1
  let inner := if mode = 0 then 64 else 32
  let ins := (upTo inner).map (fun i => chanCfg s t d (rowChan d ty (inOfs + i / 32 * rowBytes ty) (i % 32)))
  let narrow := match o with
    | some d => dType d
    | none => 1
  { num := e.num, mode := mode, perlane := perlane, kh := cf e 2 20 3 + 1, kw := cf e 2 23 5 + 1, sw := cf e 0 25 3 + 1,
    dw := cf e 0 22 3 + 1, rows := cf e 2 0 20 + 1, next := 0, entered := 0, bank := cf e 0 12 1, base := cf e 0 16 6,
    init := cf e 0 13 1 = 0, drain := drain, plane := plane,
    inAddr := srcStart s d + inOfs, inRow := streamRowBytes mode ty, inStride := dSH d, inType := ty, inSlot := slotUse s d false,
    outAddr := match o with
      | some d => dstStart s d + outOfs
      | none => 0
    outRow := rowBytes oty, outType := oty,
    outSlot := if drain then (match o with | some d => slotUse s d true | none => none) else none,
    outShift := match o with
      | some d => dOutShift d
      | none => 0
    zps := ins.map ChanCfg.zp, exps := ins.map ChanCfg.exp,
    outs := match o with
      | some d => (upTo 32).map (fun j => chanCfg s t d (rowChan d narrow outOfs j))
      | none => [] }

/-- Bring rows of a run into P1, up to the `upto`-th: V clears and the writer tag is theirs (R82, R209). -/
def enterP1 (r : LaneRun) (upto : Nat) (x : Tile) : Tile :=
  ((upTo upto).drop r.entered).foldl (fun x k =>
    let row := (r.base + k) % 64
    let a := accRow x r.bank row
    setAccRow r.bank row { a with v := false, tag := some r.num } x) x

/-- A row for accumulator row `row` of a bank is in flight: it has entered P1 and is not readable yet (R82). -/
def rowInFlight (x : Tile) (bank row : Nat) : Bool :=
  x.laneRuns.any (fun r => r.bank = bank && ((upTo (min r.rows r.entered)).drop r.next).any (fun k => (r.base + k) % 64 = row))

/-- One past the last byte of the input a STREAM reads, from its source start (R171). -/
def streamInEnd (r : LaneRun) (inOfs : Nat) : Nat :=
  inOfs + (if r.perlane then (laneCols r - 1) * r.inRow + (r.kh - 1) * r.inStride + rowBytes r.inType else r.rows * r.inRow)

/-- Checks 6 to 9 of R519 for a STREAM whose run would be `r`, with `mode` its mode; H_OUT is checked like any other handle
where no row drains, its buffer apart (R77, R80, R137, R149, R171, R241). -/
def streamBad (s : State) (t : TileId) (e : QEntry) (d : List Word) (o : Option (List Word)) (mode : Option Nat) (r : LaneRun) :
    Option (Nat × Nat) :=
  let x := tile s t
  let all := some d :: o.toList.map some
  let outs := if r.drain then o.toList else []
  let ofs := cf e 3 16 16 * 16
  let swap := cf e 0 10 1 = 1
  if ringInvalid s all then some (2, 0x05)
  else if mode.isNone || outs.any (fun d => if r.mode = 3 then dType d != 4 else decide (2 < dType d)) then some (2, 0x13)
  else if !r.drain && decide (64 < r.rows) then some (1, 0x05)
  else if spadAlloc all then some (1, 0x01)
  else if (dLoc d = 3 && decide (bufBytes s t (dRing d) < streamInEnd r (cf e 3 0 16 * 16)))
      || outs.any (fun d => dLoc d = 3 && (decide (bufBytes s t (dRing d) < ofs + r.rows * r.outRow)
        || (wideEligible d && !slotWideRoom s t d (ofs + r.rows * rowBytes (dType d))))) then some (1, 0x02)
  else if outs.any (fun d => dLoc d = 2 && wideEligible d) then some (1, 0x07)
  else if !(planeOf x r.plane).valid && !(swap && x.loads.any (fun l => l.plane = r.plane)) then some (2, 0x14)
  else none

/-- A STREAM dispatches (R72, R74, R76, R80, R171): a swap waits for the plane to be valid, and no dispatch comes before the
slots are ready and, under interlock, the vector commands ahead have read the rows it writes (R167, R212). Its first rows
enter P1 (R82, R209; log 96). -/
def doStream (t : TileId) (s : State) : State :=
  let x := tile s t
  if !x.laneRuns.all pathFree then s else
  withHead s t .lane 0x02 (fun e ds =>
    match ds with
    | [some d, o] =>
      let drain := cf e 0 11 1 = 1
      let swap := cf e 0 10 1 = 1
      let bind := if swap then 1 - x.active else x.active
      let fmt := match x.loads.getLast? with
        | some l => if swap then l.fmt else (planeOf x bind).fmt
        | none => (planeOf x bind).fmt
      let ty := srcType s d
      let outs := if drain then o.toList else []
      let mode := laneMode fmt ty (cf e 0 14 1 = 1)
      let r := mkLaneRun s t e d o (mode.getD 1) ty bind
      match unlessPassed e (streamBad s t e d o mode r) with
      | some (c, det) => rejectCmd t .lane e c det s
      | none =>
        if swap && x.loads.any (fun l => l.plane = bind) then stall t 8 s else
        match slotCheck s t [(d, decide (cf e 0 15 1 = 1))] outs with
        | some det => if ilActive s t then ilockWait t .lane e det (det - 1) s else violation t .lane e det s
        | none =>
          if ilActive s t && vecReadsAhead s t e then ilockHold t .lane e 3 s
          else
            let k := takeSteps t [(d, cf e 0 15 1 = 1)] outs e.wide s
            let y := tile k.1 t
            let n := enteredBefore r 0
            let y := enterP1 r n { y with active := bind, laneRuns := y.laneRuns ++ [{ r with entered := n }] }
            let tested := outs.any wideEligible && !e.wide
            dispatched t .lane e.num (fun e => { e with
              steps := k.2, mode := r.mode, perlane := r.perlane,
              limit := if tested then (outs.head?.bind (fun d => satLimit (dSatLimit d) (jobSafe s t))) else none,
              outBase := outs.head?.bind (fun d => if dScaleCnt d = 0 then none else some (dScaleBase d)),
              outHandle := if drain then cf e 1 16 16 else 0xFFFF,
              outCrit := outs.any dCrit }) (setTile t y k.1)
    | _ => s)

/-! ## Rows (R72, R81, R86 to R89, R92 to R94, R114 to R120, R143) -/

/-- The product's shift by EXP before the tree (R143). -/
def expShift (e p : Int) : Int := if 0 ≤ e then p * (2 ^ e.toNat : Nat) else roundHalfAway p (-e).toNat

/-- One product of a difference and a weight: INT16 differences in two parts, each shifted (R115, R143). -/
def laneProd (mode : Nat) (dif w e : Int) : Int :=
  if mode = 2 then
    let hi := dif / 256
    let lo := dif % 256
    expShift e (hi * w * 256) + expShift e (lo * w)
  else expShift e (dif * w)

def sumI (l : List Int) : Int := l.foldl (· + ·) 0

/-- Zip three lists with a function. -/
def zip3 {α β γ δ : Type} (f : α → β → γ → δ) (a : List α) (b : List β) (c : List γ) : List δ :=
  ((a.zip b).zip c).map (fun p => f p.1.1 p.1.2 p.2)

/-- A lane's integer sum over the inner indices. -/
def laneSumInt (mode : Nat) (difs ws exps : List Int) : Int := sumI (zip3 (laneProd mode) difs ws exps)

/-- The exact pair of a finite value. -/
def fvPair : FV → Option (Int × Int)
  | .fin n m e => some (sgn n m, e)
  | _ => none

/-- An exact sum at scale 2^-400. -/
def exactSum (l : List (Int × Int)) : Int := sumI (l.map (fun p => p.1 * (2 ^ (p.2 + 400).toNat : Nat)))

/-- The lane tree's BF16 sum: the part's value is free within 5·2^-24·Σ|a·w| of the exact sum (R147), and otherwise the
tree in list order. -/
def laneSumFp (as' ws : List Nat) : Nat :=
  let ps := (as'.zip ws).map (fun p => (fv16 p.1).mul (fv16 p.2))
  let fall := f32sum (ps.map pack32)
  match ps.mapM fvPair with
  | none => fall
  | some l =>
    let c := (Config.laneSum l).toNat
    match fvPair (fv32 c) with
    | none => fall
    | some p =>
      let d := exactSum [p] - exactSum l
      let b := exactSum (l.map (fun p => ((p.1.natAbs : Int), p.2)))
      if d.natAbs * 2 ^ 24 ≤ 5 * b.natAbs then c else fall

/-- The checksum weights s(i): the lanes' sum at each inner index (R86, R87). -/
def planeChk (p : Plane) : List Int :=
  let inner := planeInner p.fmt
  (upTo inner).map (fun i =>
    let l := p.cols.map (fun c => c.getD i 0)
    if p.fmt = 2 then (f32sum (l.map (fun v => pack32 (fv16 v.toNat))) : Int) else sumI l)

/-- The streamed elements of row `k`: 32, or 64 in INT4 mode (R71, R171). -/
def rowElems (m : List Host.Cell) (t : TileId) (r : LaneRun) (k : Nat) : List Nat :=
  let a := spadBase t + r.inAddr + k * r.inRow
  if r.mode = 0 then (upTo 64).map (fun i => readElem m 0 (2 * a + i)) else readRow m r.inType a

/-- Lane `j`'s taps of output row `k` in per-lane mode, by inner index ky·KW + kx (R91, R92). -/
def tapElems (m : List Host.Cell) (t : TileId) (r : LaneRun) (k j : Nat) : List Nat :=
  (upTo (r.kh * r.kw)).map (fun i =>
    let a := spadBase t + r.inAddr + (k * r.sw + i % r.kw * r.dw) * r.inRow + i / r.kw * r.inStride
    readElem m r.inType (2 * a + j * etNib r.inType))

/-- The 32 lane sums and the checksum sum of row `k`; integers, or FP32 patterns in BF16 mode. -/
def rowSums (m : List Host.Cell) (t : TileId) (r : LaneRun) (p : Plane) (k : Nat) : List Int × Int :=
  if r.perlane then
    let lane := fun j =>
      let els := tapElems m t r k j
      let ws := p.cols.getD j []
      if r.mode = 3 then (laneSumFp els (ws.map Int.toNat) : Int)
      else
        let z := r.zps.getD j 0
        laneSumInt r.mode (els.map (fun v => elemInt r.inType v - z)) ws (List.replicate els.length (r.exps.getD j 0))
    ((upTo 32).map lane, 0)
  else
    let els := rowElems m t r k
    if r.mode = 3 then
      let chk := (planeChk p).map Int.toNat
      (p.cols.map (fun c => (laneSumFp els (c.map Int.toNat) : Int)),
        (f32sum ((els.zip chk).map (fun q => pack32 ((fv16 q.1).mul (fv32 q.2)))) : Int))
    else
      let difs := (els.zip r.zps).map (fun q => elemInt r.inType q.1 - q.2)
      (p.cols.map (fun c => laneSumInt r.mode difs c r.exps), laneSumInt r.mode difs (planeChk p) r.exps)

/-- What lane `j` starts from with INIT: BIAS, as a 40-bit count or the upper bits of an FP32 (R117). -/
def biasStart (mode : Nat) (c : ChanCfg) : Int :=
  match c.entry with
  | none => 0
  | some _ => if mode = 3 then (c.bias * 256 : Nat) else signed 24 c.bias

/-- The rounding tolerance one row adds (R143). -/
def tolStep (r : LaneRun) : Nat := (r.exps.filter (fun e => decide (e < 0))).length * (if r.mode = 2 then 33 else 16)

/-- The accumulator row after row `k` (R79, R81, R94, R117, R143). `err` is a hardware error in lane `j`'s value: 0 on a
healthy part. In per-lane mode the checksum repeats lane k mod 32, from its own earlier value where it has repeated that
lane in this row before, and otherwise from the lane's; a row that was last written the other way starts the checksum
from the lanes (log 99). -/
def accStep (r : LaneRun) (old : AccRow) (sums : List Int × Int) (k j : Nat) (err : BitVec 40) : AccRow :=
  let fp := r.mode = 3
  let rep := k % 32
  let val := fun (v : BitVec 40) => if fp then ((v.toNat % 2 ^ 32 : Nat) : Int) else v.toInt
  let total := fun (l : List Int) => if fp then (f32sum (l.map Int.toNat) : Int) else sumI l
  let add := fun (a b : Int) => if fp then ((f32add a.toNat b.toNat : Int), false) else accAdd a b
  let start := if r.init then (upTo 32).map (fun i => biasStart r.mode (r.outs.getD i ⟨none, 0, 0, false, 0, 0⟩))
    else old.vals.map val
  let chk0 : Int :=
    if r.perlane then (if !r.init && old.chkLane = some rep then val old.chk else nth 0 start rep)
    else if !r.init && old.chkLane.isNone then val old.chk else total start
  let lanes := (start.zip sums.1).map (fun p => add p.1 p.2)
  let vals := (lanes.map (fun p => BitVec.ofInt 40 p.1)).mapIdx (fun i v => if i = j then v + err else v)
  let chk : BitVec 40 :=
    if r.perlane then BitVec.ofInt 40 (add chk0 (nth 0 sums.1 rep)).1
    else if fp then BitVec.ofNat 40 (f32add chk0.toNat sums.2.toNat) else BitVec.ofInt 40 (chk0 + sums.2)
  let sats := lanes.mapIdx (fun i p => p.2 || (!r.init && nth false old.sat i))
  { vals := vals, chk := chk, v := true, ovf := if fp then fpOvf vals || (!r.init && old.ovf) else sats.any id || (!r.init && old.ovf),
    tol := if fp || r.perlane then (if r.init then 0 else old.tol)
      else min ((if r.init then 0 else old.tol) + tolStep r) (2 ^ 20 - 1)
    tag := old.tag, fp := fp, sat := if fp then [] else sats, chkLane := if r.perlane then some rep else none }

/-- Output conversion of a row that drains (R73, R118, R120). -/
def drainConvs (r : LaneRun) (a : AccRow) : List Conv :=
  (a.vals.zip r.outs).mapIdx (fun i p => convDrain r.outType r.outShift p.2 a.ovf (nth false a.sat i) p.1)

/-- The scratchpad ranges that the row path reads for row `k`, in order: in per-lane mode the KH rows of every column from
the one after the row before (R72, R92). -/
def laneReads (r : LaneRun) (k : Nat) : List (Nat × Nat) :=
  if r.perlane then
    ((upTo (laneCol r k + 1)).drop (if k = 0 then 0 else laneCol r (k - 1) + 1)).flatMap (fun c =>
      (upTo r.kh).map (fun ky => (r.inAddr + c * r.inRow + ky * r.inStride, rowBytes r.inType)))
  else [(r.inAddr + k * r.inRow, r.inRow)]

/-- The input of a row lies where the command may not read: what becomes of it. -/
def laneRowGuard (s : State) (t : TileId) (r : LaneRun) (k : Nat) : Option State :=
  (laneReads r k).findSome? (fun a => spadGuard t .lane false r.inSlot.isSome a.1 a.2 s)

/-- Rows of one column beyond the first in each bank: each delays the column by one cycle (R93). -/
def columnDelay (r : LaneRun) : List (Nat × Nat) → Nat
  | [] => 0
  | a :: l =>
    let banks := ((a :: l).take r.kh).map (fun p => p.1 / 0x10000)
    banks.length - banks.eraseDups.length

/-- Cycles by which a row's columns are delayed. -/
def rowDelay (r : LaneRun) (k : Nat) : Nat :=
  if r.perlane then sumN ((upTo (ceilDiv (laneReads r k).length r.kh)).map (fun i => columnDelay r ((laneReads r k).drop (r.kh * i)))) else 0

/-- The row path's accesses for row `k` (R85, R93). -/
def laneReadUse (t : TileId) (r : LaneRun) (k : Nat) (s : State) : State :=
  (laneReads r k).foldl (fun s a => useBanks 0 t a.1 a.2 s) (fbump (pgLane t) Fl.laneConflictCycles (rowDelay r k) s)

/-- What the residue test of a row `k`, which lies at `row` of its bank, leaves (R87, R90, R94). -/
def laneRowTest (t : TileId) (r : LaneRun) (k row : Nat) (ovf bad : Bool) (s : State) : State :=
  if ovf then
    setIrq (pgLane t) 10 (fbump (pgLane t) Fl.laneResCntSkipped 1
      (updEntry t .lane r.num (fun e => { e with skipped := e.skipped + 1 }) s))
  else if bad then
    let s := updEntry t .lane r.num (fun e => { e with compared := e.compared + 1, mismatch := e.mismatch + 1 }) s
    let s := fbump (pgLane t) Fl.laneResCntMismatch 1 s
    let s := fsets (pgLane t) [(Fl.laneResLastRow, row), (Fl.laneResLastBank, r.bank), (Fl.laneResLastMode, r.mode),
      (Fl.laneResLastPerlane, b2n r.perlane), (Fl.laneResLastLane, if r.perlane then k % 32 else 0)] s
    recordFault (pgLane t) 3 1 (setIrq (pgLane t) 8 s)
  else updEntry t .lane r.num (fun e => { e with compared := e.compared + 1 }) s

/-- The next row of the oldest unfinished STREAM becomes readable, is compared, and drains (R72, R73, R82, R86 to R89); a
row that cannot be read or written is refused. V is set unless a later row for the accumulator row is in flight.
DESIGN CHOICE (log 100): LANE_ROWS counts each output row as it becomes readable, in per-lane mode too. -/
def doRowReadable (t : TileId) (j : Fin 32) (err : BitVec 40) (s : State) : State :=
  let x := tile s t
  if beingKilled x .lane then s else
  match x.laneRuns.find? (fun r => decide (r.next < r.rows)) with
  | none => s
  | some r =>
    let k := r.next
    match laneRowGuard s t r k with
    | some s' => s'
    | none =>
      let s := laneReadUse t r k s
      let x := tile s t
      let entered := if k + 1 < r.rows then enteredBefore r (k + 1) else r.rows
      let row := (r.base + k) % 64
      let a := accStep r (accRow x r.bank row) (rowSums s.mem t r (planeOf x r.plane) k) k j.val err
      let x := { x with laneRuns := x.laneRuns.map (fun q => if q.num = r.num then { q with next := k + 1, entered := max r.entered entered } else q) }
      let x := enterP1 r entered (setAccRow r.bank row { a with v := !rowInFlight x r.bank row } x)
      let s := setTile t x s
      let s := fset64 (pgLane t) Fl.laneRowsLoRows Fl.laneRowsHiRows (fget64 s (pgLane t) Fl.laneRowsLoRows Fl.laneRowsHiRows + 1) s
      let bad := if r.perlane then nth 0 a.vals (k % 32) != a.chk
        else if r.mode = 3 then chkMismatchFp a.vals a.chk else chkMismatchInt a.vals a.chk a.tol
      let s := laneRowTest t r k row a.ovf bad s
      if r.drain then
        match spadGuard t .lane true r.outSlot.isSome (r.outAddr + k * r.outRow) r.outRow s with
        | some s' => s'
        | none =>
          let cs := drainConvs r a
          let s := useBank 8 t (useBanks 1 t (r.outAddr + k * r.outRow) r.outRow s) (16 + r.bank)
          let s := pokeRow r.outType (spadBase t + r.outAddr + k * r.outRow) (cs.map Conv.q) s
          updEntry t .lane r.num (stageRow r.outs cs (r.outType = 4)) s
      else s

/-- The oldest STREAM with no row left completes (R73). -/
def doStreamComplete (t : TileId) (s : State) : State :=
  let x := tile s t
  match x.laneRuns with
  | [] => s
  | r :: rest =>
    if decide (r.next < r.rows) || beingKilled x .lane then s
    else setPhase t .lane r.num .complete (setTile t { x with laneRuns := rest } s)

/-! ## The meanings -/

def execLoadw (t : TileId) (s : State) : Host.Outcome State Fault Refusal := ok (doLoadw t s)
def execPlaneValid (t : TileId) (s : State) : Host.Outcome State Fault Refusal := ok (doPlaneValid t s)
def execStream (t : TileId) (s : State) : Host.Outcome State Fault Refusal := ok (doStream t s)
def execStreamRowReadable (t : TileId) (j : Fin 32) (err : BitVec 40) (s : State) : Host.Outcome State Fault Refusal :=
  ok (doRowReadable t j err s)
def execStreamComplete (t : TileId) (s : State) : Host.Outcome State Fault Refusal := ok (doStreamComplete t s)

end Sys2Proof.Machine
end

