-- ==== Sys2Proof/Machine/Vector.lean ====
section
/-! DEFINITION. The vector unit: VEC, POOL, SOFTMAX, NORM and STATS, its table functions, its residue code (03, R95 to
R103, R520; 05, R172 to R175; 06, R208, R209). -/

namespace Sys2Proof.Machine

/-! ## Elements -/

/-- A value inside the unit: an integer, or a floating value. -/
inductive VVal where
  | int (i : Int)
  | fp (f : FV)
  deriving DecidableEq, Repr

/-- Read an element pattern as a value of the unit. -/
def vval (ty v : Nat) : VVal := if etInt ty then .int (elemInt ty v) else .fp (elemFv ty v)

/-- As an integer: floating values round to nearest even. -/
def VVal.toI : VVal → Int
  | .int i => i
  | .fp f => f.toIntRne
/-- As a floating value. -/
def VVal.toF : VVal → FV
  | .int i => fvOf false i 0
  | .fp f => f

/-- A result, converted to the output type: integers saturate, each a saturation (R122); floating values round. -/
def vout (ty : Nat) (zp : Int) (v : VVal) : Conv :=
  match v with
  | .int i =>
    if etInt ty then
      let c := clampI (etMin ty) (etMax ty) i
      ⟨unsignedOf (etBits ty) c, c != i, (c - zp).natAbs⟩
    else
      let p := if ty = 4 then pack16 (fvOf false i 0) else pack32 (fvOf false i 0)
      ⟨p, false, if ty = 4 then p % 0x8000 else 0⟩
  | .fp f =>
    if etInt ty then
      let r := convElem 5 ty (pack32 f)
      ⟨r.1, r.2, (elemInt ty r.1 - zp).natAbs⟩
    else
      let p := if ty = 4 then pack16 f else pack32 f
      ⟨p, false, if ty = 4 then p % 0x8000 else 0⟩

/-- An element of BF16 or FP32 that is a NaN (R99). -/
def isNanPat (ty v : Nat) : Bool := !etInt ty && (elemFv ty v).isNan

/-! ## Table functions (R101) -/

/-- Coefficient k of segment s of table `tbl`. -/
def lutCoef (s : State) (t : TileId) (tbl seg k : Nat) : Nat :=
  fget s (pgVec t) (if tbl = 0 then Fl.vecLutaCoef (4 * seg + k) else Fl.vecLutbCoef (4 * seg + k))

/-- The table function f(x) on an FP32 pattern (R101). -/
def tableFn (s : State) (t : TileId) (tbl x : Nat) : Nat :=
  if (fv32 x).isNan then pack32 .nan else
  let a := tbl = 0
  let xmin := fget s (pgVec t) (if a then Fl.vecLutaXminXmin else Fl.vecLutbXminXmin)
  let sc := fget s (pgVec t) (if a then Fl.vecLutaScaleScale else Fl.vecLutbScaleScale)
  let outside := fget s (pgVec t) (if a then Fl.vecLutaModeOutside else Fl.vecLutbModeOutside)
  let p := f32mul (f32sub x xmin) sc
  if (fv32 p).isNan then pack32 .nan else
  let seg : Int := match fv32 p with
    | .inf n => if n then 0 else 63
    | f => clampI 0 63 f.floor
  let u0 := f32sub p (f32ofInt seg)
  let u := if outside = 0 then f32max 0 (f32min u0 0x3F7FFFFF) else u0
  let c := fun k => lutCoef s t tbl seg.toNat k
  f32add (c 0) (f32mul u (f32add (c 1) (f32mul u (f32add (c 2) (f32mul u (c 3))))))

/-! ## Operations of VEC (R96, R173) -/

/-- A binary integer operation of group 0. -/
def intOp (f : Nat) (a b : Int) (imm : Nat) : Int :=
  match f with
  | 0x00 => a + b
  | 0x01 => a - b
  | 0x02 => a * b
  | 0x03 => min a b
  | 0x04 => max a b
  | 0x05 => a.natAbs
  | 0x06 => a * (2 ^ (imm % 32) : Nat)
  | 0x07 => a / (2 ^ (imm % 32) : Nat)
  | 0x08 => signed 32 (unsignedOf 32 a &&& unsignedOf 32 b)
  | 0x09 => signed 32 (unsignedOf 32 a ||| unsignedOf 32 b)
  | 0x0A => signed 32 (unsignedOf 32 a ^^^ unsignedOf 32 b)
  | _ => if signed 16 imm ≤ a then a else b

/-- A floating operation of group 1, exact; the output conversion rounds it. -/
def fpOp (f : Nat) (a b : FV) (imm : Nat) : FV :=
  match f with
  | 0x10 => a.add b
  | 0x11 => a.add b.neg
  | 0x12 => a.mul b
  | 0x13 => (a.mul b).add (fv16 imm)
  | 0x14 => if a.isNan || b.isNan then .nan else if a.le b then a else b
  | _ => if a.isNan || b.isNan then .nan else if a.le b then b else a

/-- The elements of one output row, and the held row after it; `cfgs` is what its channels take, `lsat` which elements of an
accumulator row lie in lanes that have saturated (R119, R122). `held` holds FP32 or INT32 patterns. DESIGN CHOICE (log 101):
a floating multiply-accumulate rounds once, and an INT32 one saturates. -/
def vecRow (s : State) (t : TileId) (r : VecRun) (cfgs : List ChanCfg) (lsat : List Bool) (as' bs : List VVal) (held : List Word) :
    List Conv × List Word :=
  let cfg := fun k => cfgs.getD k ⟨none, 0, 0, false, 0, 0⟩
  let put := fun (l : List VVal) => l.mapIdx (fun k v => vout r.oType (cfg k).zp v)
  let isF := match as'.head? with
    | some (.fp _) => true
    | _ => false
  let f := r.op
  if f ≤ 0x0B then
    let bs := if funcTakesB f then bs else as'
    (put ((as'.zip bs).map (fun p => .int (intOp f p.1.toI p.2.toI r.imm))), held)
  else if f ≤ 0x15 then (put ((as'.zip bs).map (fun p => .fp (fpOp f p.1.toF p.2.toF r.imm))), held)
  else if f = 0x20 then (put as', held)
  else if f = 0x21 then
    (as'.mapIdx (fun k v => match v with
      | .int i => if etInt r.oType && r.oType != 3 then convInt r.oType r.outShift (cfg k) i (nth false lsat k) else vout r.oType (cfg k).zp v
      | .fp _ => vout r.oType (cfg k).zp v), held)
  else if f ≤ 0x32 then
    (put (as'.map (fun v =>
      let x := pack32 v.toF
      .fp (fv32 (if f = 0x30 then f32exp x else if f = 0x31 then f32recip x else f32rsqrt x)))), held)
  else if f = 0x40 then (put (as'.map (fun v => .fp (fv32 (tableFn s t r.tbl (pack32 v.toF))))), held)
  else if f = 0x50 then
    let h := if held.length = 32 then held else List.replicate 32 0
    let n := (h.zip (as'.zip bs)).map (fun p =>
      if isF then BitVec.ofNat 32 (pack32 ((fv32 p.1.toNat).add (p.2.1.toF.mul p.2.2.toF)))
      else BitVec.ofInt 32 (clampI (etMin 3) (etMax 3) (p.1.toInt + p.2.1.toI * p.2.2.toI)))
    (put (n.map (fun w => if isF then .fp (fv32 w.toNat) else .int w.toInt)), n)
  else
    let v : VVal :=
      if f = 0x60 then
        (if isF then .fp (fv32 (f32sum (as'.map (fun v => pack32 v.toF)))) else .int (sumI (as'.map VVal.toI)))
      else
        (if isF then .fp (fv32 ((as'.map (fun v => pack32 v.toF)).foldl f32max 0xFF800000))
         else .int ((as'.map VVal.toI).foldl max (as'.headD (.int 0)).toI))
    (put (v :: List.replicate 31 (if isF then .fp (.fin false 0 0) else .int 0)), held)

/-- Count NaN results (R99). -/
def countNans (t : TileId) (n : Nat) (s : State) : State :=
  if n = 0 then s else setIrq (pgVec t) 10 (fbump (pgVec t) Fl.vecNanCntCount n s)

/-- The NaN elements among converted elements of a type. -/
def nansOf (ty : Nat) (cs : List Conv) : Nat := (cs.filter (fun c => isNanPat ty c.q)).length

/-! ## Guards of accumulator reads (R82, R209) -/

/-- The row a queued or running STREAM brings to P1 for accumulator row `row` has not come yet. -/
def streamNotYet (x : Tile) (e : QEntry) (bank row : Nat) : Bool :=
  streamWrites e bank row &&
    (e.phase = .queued ||
      match x.laneRuns.find? (fun r => r.num = e.num) with
      | some r => !(upTo (min r.entered 64)).any (fun i => (r.base + (r.entered - 1 - i)) % 64 = row)
      | none => false)

/-- A read of accumulator row (bank, row) by command `num` is a guard hit. -/
def guardHit (x : Tile) (num bank row : Nat) : Bool :=
  let a := accRow x bank row
  !a.v || x.lane.any (fun e => numBelow x e.num num && streamNotYet x e bank row) || tagAbove x a.tag num

/-- The elements of an accumulator row as the unit reads them, and which of them it saturated: integers to INT32 (R100). -/
def accElems (a : AccRow) : List VVal × List Bool :=
  if a.fp then (a.vals.map (fun v => .fp (fv32 (v.toNat % 2 ^ 32))), [])
  else
    (a.vals.map (fun v => .int (clampI (etMin 3) (etMax 3) v.toInt)),
      a.vals.map (fun v => clampI (etMin 3) (etMax 3) v.toInt != v.toInt))

/-- Elements written where the reads of these elements saturated: each counts as one saturation (R100; log 107). -/
def withClips (clips : List Bool) (cs : List Conv) : List Conv :=
  cs.mapIdx (fun k c => { c with sat := c.sat || nth false clips k })

/-! ## Rows in the scratchpad (R95, R156, R246, R247) -/

/-- Lines that a vector command may not read or write: what becomes of it. -/
def linesGuard (t : TileId) (write slot : Bool) (lines : List Nat) (s : State) : Option State :=
  lines.findSome? (fun a => spadGuard t .vec write slot a 1 s)

/-- Port V accesses lines (R245). -/
def linesUse (t : TileId) (lines : List Nat) (s : State) : State := lines.foldl (fun s a => useBank 3 t s (a / 0x10000)) s

/-- Write a converted row, with its statistics, its count of NaN results and its use of port V; a row that may not be
written is refused (R95, R99, R128, R156). -/
def putRow (t : TileId) (num : Nat) (o : List Word) (oty oStart row : Nat) (cfgs : List ChanCfg) (cs : List Conv) (s : State) : State :=
  let lines := rowLines o oty oStart row
  match linesGuard t true (dLoc o = 3) lines s with
  | some s' => s'
  | none =>
    let s := linesUse t lines s
    let s := { s with mem := writeRowAt o oty (spadBase t + oStart) row (cs.map Conv.q) s.mem }
    countNans t (nansOf oty cs) (updEntry t .vec num (stageRow cfgs cs (oty = 4)) s)

/-! ## VEC (R172) -/

/-- The fields an entry keeps of its output for its commit tests and evidence. -/
def noteOutput (s : State) (t : TileId) (e0 : QEntry) (d : List Word) (h : Nat) (steps : List SlotStep) (group : Nat) (e : QEntry) : QEntry :=
  { e with steps := steps, mode := 16 + group,
           limit := if wideEligible d && !e0.wide then satLimit (dSatLimit d) (jobSafe s t) else none,
           outBase := if dScaleCnt d = 0 then none else some (dScaleBase d), outHandle := h, outCrit := dCrit d }

/-- Checks 6 and 8 of R519 for a vector command: rings, scratchpad and buffer ends, wide room; sources and the output
with one past the last byte each uses. -/
def vecRoom (s : State) (t : TileId) (srcs : List (List Word × Nat)) (o : List Word) (oEnd oEndNarrow : Nat) : Option (Nat × Nat) :=
  let all := srcs.map (fun p => some p.1) ++ [some o]
  if ringInvalid s all then some (2, 5)
  else if spadAlloc all then some (1, 1)
  else if srcs.any (fun p => dLoc p.1 = 3 && decide (bufBytes s t (dRing p.1) < p.2))
      || (dLoc o = 3 && (decide (bufBytes s t (dRing o) < oEnd) || (wideEligible o && !slotWideRoom s t o oEndNarrow))) then some (1, 2)
  else if dLoc o = 2 && wideEligible o then some (1, 7)
  else none

/-- The operands a VEC reads, with whether each is consumed. -/
def vecReads (e : QEntry) (a b : Option (List Word)) : List (List Word × Bool) :=
  a.toList.map (fun d => (d, decide (cf e 0 10 1 = 1))) ++ b.toList.map (fun d => (d, decide (cf e 0 11 1 = 1)))

/-- The run of a VEC that dispatches (R121, R172). -/
def mkVecRun (s : State) (t : TileId) (e : QEntry) (a b : Option (List Word)) (o : List Word) : VecRun :=
  let kb := match b with
    | some d => consumedBefore d (vecReads e a none)
    | none => 0
  { num := e.num, op := cf e 0 24 8, rows := cf e 2 16 16 + 1, next := 0, fromAcc := cf e 0 12 1 = 1, bank := cf e 0 13 1, base := cf e 0 14 6,
    aAddr := (a.map (srcStart s)).getD 0, aType := (a.map (srcType s)).getD 3, aSlot := a.bind (fun d => slotUse s d false),
    bAddr := (b.map (srcStartAt kb s)).getD 0, bType := (b.map (srcTypeAt kb s)).getD 3, bSlot := b.bind (fun d => slotUse s d false kb),
    oAddr := dstStart s o, oType := outTypeOf e o, oSlot := slotUse s o true, imm := cf e 3 16 16, tbl := cf e 0 20 1, row0 := cf e 3 0 16,
    outShift := dOutShift o, aDesc := a.getD [], bDesc := b.getD [], oDesc := o, outs := chanCfgs s t o }

/-- Checks 6 to 8 of R519 for a VEC whose run would be `r`. -/
def vecBad (s : State) (t : TileId) (a b : Option (List Word)) (o : List Word) (r : VecRun) : Option (Nat × Nat) :=
  let n := r.row0 + r.rows
  vecRoom s t (a.toList.map (fun d => (d, n * rowBytes r.aType)) ++ b.toList.map (fun d => (d, n * rowBytes r.bType))) o
    (n * rowBytes r.oType) (n * rowBytes (dType o))

/-- A VEC dispatches (R96, R172, R209, R212). -/
def doVec (t : TileId) (s : State) : State :=
  if (tile s t).vecRun.isSome then s else
  withHead s t .vec 0x10 (fun e ds =>
    match ds with
    | [a, b, some o] =>
      let r := mkVecRun s t e a b o
      match unlessPassed e (vecBad s t a b o r) with
      | some (c, det) => rejectCmd t .vec e c det s
      | none =>
        match slotCheck s t (vecReads e a b) [o] with
        | some det => if ilActive s t then ilockWait t .vec e det (det - 1) s else violation t .vec e det s
        | none =>
          let x := tile s t
          if ilActive s t && r.fromAcc && (vecRowsLeft s t e).any (fun p => guardHit x e.num p.1 p.2) then ilockWait t .vec e 3 0 s
          else
            let k := takeSteps t (vecReads e a b) [o] e.wide s
            let y := tile k.1 t
            let y := { y with vecRun := some r, held := if cf e 0 24 8 = 0x50 && cf e 0 21 1 = 1 then List.replicate 32 0 else y.held }
            dispatched t .vec e.num (fun e' => noteOutput s t e o (cf e 2 0 16) k.2 (cf e 0 28 4) e') (setTile t y k.1)
    | _ => s)

/-- A residue flag at element `lane` (R103): counted, recorded, and in the command's VEC_FLAGS. -/
def vecResidue (t : TileId) (num group lane : Nat) (parity : Bool) (s : State) : State :=
  let s := fbump (pgVec t) Fl.vecResCntFlags 1 s
  let s := fsets (pgVec t) [(Fl.vecResLastGroup, group), (Fl.vecResLastLane, lane), (Fl.vecResLastParity, b2n parity)] s
  let s := recordFault (pgVec t) 3 (if parity then 3 else 2) (setIrq (pgVec t) 8 s)
  updEntry t .vec num (fun e => { e with vecFlags := e.vecFlags + 1 }) s

/-- Residue flags in the order they are raised: the element of each, and whether it was a table parity error (R103). -/
def vecResidues (t : TileId) (num group : Nat) (flags : List (Fin 32 × Bool)) (s : State) : State :=
  flags.foldl (fun s f => vecResidue t num group f.1.val f.2 s) s

/-- The lines a vector command reads for a row of an operand. -/
def vecReadLines (r : VecRun) : List Nat × List Nat :=
  let row := r.row0 + r.next
  (if r.fromAcc then [] else rowLines r.aDesc r.aType r.aAddr row, if funcTakesB r.op then rowLines r.bDesc r.bType r.bAddr row else [])

/-- A row that a vector command reads or writes and may not: what becomes of it, reads before the write. -/
def vecRowGuard (s : State) (t : TileId) (r : VecRun) : Option State :=
  match linesGuard t false r.aSlot.isSome (vecReadLines r).1 s with
  | some u => some u
  | none => match linesGuard t false r.bSlot.isSome (vecReadLines r).2 s with
    | some u => some u
    | none => linesGuard t true r.oSlot.isSome (rowLines r.oDesc r.oType r.oAddr (r.row0 + r.next)) s

/-- The vector unit's reads for its next row, of the scratchpad and of the accumulator (R100, R245). -/
def vecReadUse (t : TileId) (r : VecRun) (s : State) : State :=
  let s := linesUse t ((vecReadLines r).1 ++ (vecReadLines r).2) s
  if r.fromAcc then useBank 9 t s (16 + r.bank) else s

/-- The elements of a row of an operand in the scratchpad. -/
def vecElemsAt (m : List Host.Cell) (t : TileId) (d : List Word) (ty a row : Nat) : List VVal :=
  (readRowAt m d ty (spadBase t + a) row).map (vval ty)

/-- The vector unit reads its next source row, forms its output row and writes it (R96, R100, R208, R209). `flags` are
hardware residue or parity errors, each at an element: none on a healthy part. -/
def doVecRowRead (t : TileId) (flags : List (Fin 32 × Bool)) (s : State) : State :=
  let x := tile s t
  match x.vecRun with
  | none => s
  | some r =>
    if beingKilled x .vec then s else
    let row := (r.base + r.next) % 64
    if r.fromAcc && guardHit x r.num r.bank row then
      match x.vec.find? (fun e => e.num = r.num) with
      | some e => violation t .vec e 3 s
      | none => s
    else
      match vecRowGuard s t r with
      | some s' => s'
      | none =>
        let acc := accRow x r.bank row
        let n := r.row0 + r.next
        let a := if r.fromAcc then accElems acc else (vecElemsAt s.mem t r.aDesc r.aType r.aAddr n, [])
        let bs := if funcTakesB r.op then vecElemsAt s.mem t r.bDesc r.bType r.bAddr n else []
        let cfgs := rowCfgs r.oDesc r.outs n
        let out := vecRow s t r cfgs (if r.fromAcc then acc.sat else []) a.1 bs x.held
        let s := updTile t (fun y => { y with held := out.2, vecRun := if r.next + 1 < r.rows then some { r with next := r.next + 1 } else none }) (vecReadUse t r s)
        let s := putRow t r.num r.oDesc r.oType r.oAddr n cfgs (withClips a.2 out.1) s
        let s := updEntry t .vec r.num (fun e => { e with accRead := if r.fromAcc then e.accRead ++ acc.tag.toList else e.accRead }) s
        vecResidues t r.num (r.op / 16) flags s

/-- The oldest vector command with no row left completes, with the residue flags raised since its dispatch that no row read
carried (R96, R103); table writes held for it are applied by LUT_WRITE_APPLY (R102). -/
def doVecComplete (t : TileId) (flags : List (Fin 32 × Bool)) (s : State) : State :=
  let x := tile s t
  if beingKilled x .vec then s else
  match x.vec.find? (fun e => e.phase = .running && opcodeOf e != 0x32) with
  | none => s
  | some e =>
    if x.vecRun.any (fun r => r.num = e.num) then s
    else setPhase t .vec e.num .complete (vecResidues t e.num (e.mode - 16) flags s)

/-! ## POOL, SOFTMAX, NORM, STATS (R97, R98, R174, R175) -/

/-- A tap of a pooling window: position n, g, c of the source, and its row and column, which may lie outside it. -/
structure Tap where
  n : Nat
  g : Nat
  c : Nat
  y : Int
  x : Int
  deriving DecidableEq, Repr

/-- The window that element `j` of output row ROW0_OUT + `i` of a POOL takes. DESIGN CHOICE (log 104): the window of the
command's first output element begins at the first element of row ROW0_IN, and the others lie from there as their output
positions lie from the first, times the strides. -/
def poolWin (a o : List Word) (e : QEntry) (i j : Nat) : List Tap :=
  let q := rowPos a (cf e 3 0 16) 0
  let z := rowPos o (cf e 3 16 16) 0
  let p := rowPos o (cf e 3 16 16 + i) j
  let kw := cf e 0 15 3 + 1
  let at' := fun (b : Nat) (u v : Nat) (stride k : Nat) => (b : Int) + ((u : Int) - v) * stride + k
  (upTo ((cf e 0 12 3 + 1) * kw)).map (fun k =>
    ⟨q.1 + p.1 - z.1, q.2.1 + p.2.1 - z.2.1, q.2.2.1 + p.2.2.1 - z.2.2.1,
      at' q.2.2.2.1 p.2.2.2.1 z.2.2.2.1 (cf e 0 18 3 + 1) (k / kw), at' q.2.2.2.2 p.2.2.2.2 z.2.2.2.2 (cf e 0 21 3 + 1) (k % kw)⟩)

/-- Where a tap takes its value from: a nibble offset from the source's start, or a padding mode (R98, R157). -/
def tapRef (d : List Word) (ty : Nat) (p : Tap) : Nat ⊕ Nat :=
  match padPos d (dH d) (dW d) p.y p.x with
  | .inl (h, w) => .inl (elemNib d ty p.n p.g p.c h w)
  | .inr m => .inr m

/-- The value of a tap (R98, R157). -/
def tapVal (s : State) (t : TileId) (d : List Word) (ty start : Nat) (p : Tap) : Nat :=
  match tapRef d ty p with
  | .inl nib => readElem s.mem ty (2 * (spadBase t + start) + nib)
  | .inr 1 => padIn d ty
  | .inr _ => unsignedOf (etBits ty) (chanCfg s t d p.c).zp

/-- The result of a pooling window (R98): the maximum, or the sum over the fixed divisor rounded half away from zero;
BF16 windows sum in FP32. DESIGN CHOICE (log 102): a BF16 sum is divided in one rounding. -/
def poolOf (ty : Nat) (avg : Bool) (l : List Nat) : VVal :=
  if etInt ty then
    let is := l.map (elemInt ty)
    if avg then
      let sm := sumI is
      let n := l.length
      let m := (2 * sm.natAbs + n) / (2 * n)
      .int (if sm < 0 then -(m : Int) else m)
    else .int (is.foldl max (is.headD 0))
  else
    let fs := l.map (fun v => pack32 (elemFv ty v))
    if avg then .fp ((fv32 (f32sum fs)).divNat l.length) else .fp (fv32 (fs.foldl f32max 0xFF800000))

/-- A command that computes all its rows at once reads its lines and writes its converted rows from row `row0`; a line that
may not be read or written ends it. -/
def writeRows (t : TileId) (num : Nat) (reads : List (Bool × List Nat)) (o : List Word) (oty oStart row0 : Nat)
    (rows : List (List ChanCfg × List Conv)) (s : State) : State :=
  match reads.findSome? (fun p => linesGuard t false p.1 p.2 s) with
  | some s' => s'
  | none =>
    (rows.mapIdx (fun i p => (row0 + i, p))).foldl (fun s p =>
      if beingKilled (tile s t) .vec then s else putRow t num o oty oStart p.1 p.2.1 p.2.2 s) (linesUse t (reads.flatMap Prod.snd) s)

/-- The slot waits and violations of a vector command, then its steps and its dispatch; `k` runs on the entry. -/
def vecStart (s : State) (t : TileId) (e : QEntry) (reads : List (List Word × Bool)) (o : List Word) (h group : Nat)
    (k : State → State) : State :=
  match slotCheck s t reads [o] with
  | some det => if ilActive s t then ilockWait t .vec e det (det - 1) s else violation t .vec e det s
  | none =>
    let r := takeSteps t reads [o] e.wide s
    k (dispatched t .vec e.num (fun e' => noteOutput s t e o h r.2 group e') r.1)

/-- The windows of a POOL, by output row. -/
def poolWins (a o : List Word) (e : QEntry) : List (List (List Tap)) :=
  (upTo (cf e 2 0 16 + 1)).map (fun i => (upTo 32).map (poolWin a o e i))

/-- Where a POOL reads its source, as nibble offsets from the source's start. -/
def poolNibs (s : State) (a o : List Word) (e : QEntry) : List Nat :=
  (poolWins a o e).flatMap (fun r => r.flatMap (fun w => w.filterMap (fun p => (tapRef a (srcType s a) p).getLeft?)))

/-- Checks 6 to 8 of R519 for a POOL (R241). -/
def poolBad (s : State) (t : TileId) (e : QEntry) (a o : List Word) : Option (Nat × Nat) :=
  let n := cf e 3 16 16 + (cf e 2 0 16 + 1)
  vecRoom s t [(a, (poolNibs s a o e).foldl (fun m n => Nat.max m (ceilDiv (n + etNib (srcType s a)) 2)) 0)] o
    (n * rowBytes (outTypeOf e o)) (n * rowBytes (dType o))

/-- The output rows of a POOL, with what their channels take (R98, R174). -/
def poolRows (s : State) (t : TileId) (e : QEntry) (a o : List Word) : List (List ChanCfg × List Conv) :=
  let ty := srcType s a
  (poolWins a o e).mapIdx (fun i r =>
    let cfgs := rowCfgs o (chanCfgs s t o) (cf e 3 16 16 + i)
    (cfgs, r.mapIdx (fun j w => vout (outTypeOf e o) (cfgs.getD j ⟨none, 0, 0, false, 0, 0⟩).zp
      (poolOf ty (cf e 0 24 1 = 1) (w.map (tapVal s t a ty (srcStart s a)))))))

/-- A POOL dispatches and computes its windows (R96, R98, R174, R241). -/
def doPool (t : TileId) (s : State) : State :=
  if (tile s t).vecRun.isSome then s else
  withHead s t .vec 0x11 (fun e ds =>
    match ds with
    | [some a, some o] =>
      match unlessPassed e (poolBad s t e a o) with
      | some (c, det) => rejectCmd t .vec e c det s
      | none =>
        vecStart s t e [(a, cf e 0 10 1 = 1)] o (cf e 1 16 16) 7 (writeRows t e.num
          [(dLoc a = 3, nibLines (srcStart s a) (poolNibs s a o e))] o (outTypeOf e o) (dstStart s o) (cf e 3 16 16) (poolRows s t e a o))
    | _ => s)

/-- The source elements of `n` from row `row0` of a tensor. -/
def vecElems (m : List Host.Cell) (t : TileId) (d : List Word) (ty start row0 n : Nat) : List Nat :=
  (upTo n).map (fun i => readElem m ty (2 * (spadBase t + start) + rowNib d ty (row0 + i / 32) (i % 32)))

/-- Split converted elements into rows of 32 from row `i`. DESIGN CHOICE (log 103): elements past the last of a vector hold
their channel's zero point. -/
def inRows (ty : Nat) (cfgs : Nat → List ChanCfg) : Nat → Nat → List Conv → List (List ChanCfg × List Conv)
  | 0, _, _ => []
  | k + 1, i, l =>
    if l.isEmpty then [] else
    (cfgs i, l.take 32 ++ ((cfgs i).drop l.length).map (fun c => ⟨zpPat ty c, false, 0⟩)) :: inRows ty cfgs k (i + 1) (l.drop 32)

/-- SOFTMAX of a vector in FP32 (R97): maximum; exponentials and their sum; scale. -/
def softmaxOf (xs : List Nat) : List Nat :=
  let m := xs.foldl f32max 0xFF800000
  let es := xs.map (fun x => f32exp (f32sub x m))
  let r := f32recip (f32sum es)
  es.map (fun v => f32mul v r)

/-- NORM of a vector in FP32 (R97, R174): mean and variance from the two sums; normalise; scale and offset per element.
DESIGN CHOICE (log 102): each sum is divided by n in one rounding, and the variance is the mean of the squares less the
square of the mean. -/
def normOf (xs : List Nat) (eps : Nat) (scale offset : List Nat) : List Nat :=
  let meanOf := fun (v : Nat) => pack32 ((fv32 v).divNat xs.length)
  let mean := meanOf (f32sum xs)
  let var := f32sub (meanOf (f32sum (xs.map (fun x => f32mul x x)))) (f32mul mean mean)
  let r := f32rsqrt (f32add var (f32ofInt 1 (-(eps : Int))))
  (zip3 (fun x g b => f32add (f32mul (f32mul (f32sub x mean) r) g) b) xs scale offset)

/-- Elements of the vector of a SOFTMAX or NORM, and the rows they fill. -/
def vectorLen (e : QEntry) : Nat := cf e 2 0 20 + 1
def vectorRowCount (e : QEntry) : Nat := ceilDiv (vectorLen e) 32

/-- Checks 6 to 8 of R519 for a SOFTMAX or NORM, whose H_GB is `gb`. -/
def vectorBad (s : State) (t : TileId) (e : QEntry) (a o : List Word) (gb : Option (List Word)) : Option (Nat × Nat) :=
  let n := cf e 3 0 16 + vectorRowCount e
  vecRoom s t ((a, n * rowBytes (srcType s a)) :: gb.toList.map (fun d => (d, 2 * vectorRowCount e * 128))) o
    (n * rowBytes (outTypeOf e o)) (n * rowBytes (dType o))

/-- The operands a SOFTMAX or NORM reads, with whether each is consumed. -/
def vectorReads (e : QEntry) (a : List Word) (gb : Option (List Word)) : List (List Word × Bool) :=
  (a, decide (cf e 0 10 1 = 1)) :: gb.toList.map (fun d => (d, false))

/-- The start of H_GB. -/
def gbStart (s : State) (e : QEntry) (a g : List Word) : Nat := srcStartAt (consumedBefore g [(a, decide (cf e 0 10 1 = 1))]) s g

/-- The vector in FP32. -/
def vectorIn (s : State) (t : TileId) (e : QEntry) (a : List Word) : List Nat :=
  (vecElems s.mem t a (srcType s a) (srcStart s a) (cf e 3 0 16) (vectorLen e)).map (fun v => pack32 (vval (srcType s a) v).toF)

/-- The lines a SOFTMAX or NORM reads, by operand. -/
def vectorLines (s : State) (e : QEntry) (a : List Word) (gb : Option (List Word)) : List (Bool × List Nat) :=
  (decide (dLoc a = 3), nibLines (srcStart s a) ((upTo (vectorLen e)).map (fun i => rowNib a (srcType s a) (cf e 3 0 16 + i / 32) (i % 32))))
    :: gb.toList.map (fun g => (decide (dLoc g = 3), (upTo (2 * vectorRowCount e)).flatMap (rowLines g 5 (gbStart s e a g))))

/-- The output rows that hold the FP32 results `ys`, with what their channels take. -/
def vectorRows (s : State) (t : TileId) (e : QEntry) (o : List Word) (ys : List Nat) : List (List ChanCfg × List Conv) :=
  let oty := outTypeOf e o
  let outs := chanCfgs s t o
  let row0 := cf e 3 0 16
  inRows oty (fun i => rowCfgs o outs (row0 + i)) (vectorRowCount e) 0
    (ys.mapIdx (fun i y => vout oty (cfgOf o outs (chanAtRow o (row0 + i / 32) (i % 32))).zp (.fp (fv32 y))))

/-- The shared part of SOFTMAX and NORM; `f` gives the results of the vector. -/
def doVector (t : TileId) (op group : Nat) (s : State) (f : QEntry → List Word → Option (List Word) → List Nat) : State :=
  if (tile s t).vecRun.isSome then s else
  withHead s t .vec op (fun e ds =>
    match ds with
    | [some a, some o, gb] =>
      match unlessPassed e (vectorBad s t e a o gb) with
      | some (c, det) => rejectCmd t .vec e c det s
      | none =>
        vecStart s t e (vectorReads e a gb) o (cf e 1 16 16) group (writeRows t e.num (vectorLines s e a gb) o (outTypeOf e o)
          (dstStart s o) (cf e 3 0 16) (vectorRows s t e o (f e a gb)))
    | _ => s)

def doSoftmax (t : TileId) (s : State) : State := doVector t 0x12 8 s (fun e a _ => softmaxOf (vectorIn s t e a))

/-- The scales (`which` 0) or offsets (1) of a NORM: two FP32 rows per 32 elements from H_GB (R174). -/
def normParams (s : State) (t : TileId) (e : QEntry) (a g : List Word) (which : Nat) : List Nat :=
  (upTo (vectorLen e)).map (fun i => readElem s.mem 5 (2 * (spadBase t + gbStart s e a g) + rowNib g 5 (2 * (i / 32) + which) (i % 32)))

def doNorm (t : TileId) (s : State) : State :=
  doVector t 0x13 9 s (fun e a gb =>
    match gb with
    | none => []
    | some g => normOf (vectorIn s t e a) (cf e 0 16 5) (normParams s t e a g 0) (normParams s t e a g 1))

/-- The two words of a statistics record as STATS_DATA0 and STATS_DATA1 lay them out (R130, R131). -/
def statWords (r : StatRec) : List Word :=
  [BitVec.ofNat 32 (r.amax + 0x10000 * r.satcnt), BitVec.ofNat 32 (r.fmax + 0x10000 * r.lowrun + 0x1000000 * b2n r.fsat)]

def statRec (x : Tile) (n : Nat) : StatRec := Tab.get {} x.stats n

/-- Checks 6 and 8 of R519 for a STATS. -/
def statsBad (s : State) (t : TileId) (e : QEntry) (o : List Word) : Option (Nat × Nat) :=
  if ringInvalid s [some o] then some (2, 5) else if spadAlloc [some o] then some (1, 1)
  else if dLoc o = 3 && decide (bufBytes s t (dRing o) < 8 * cf e 2 10 11) then some (1, 2) else none

/-- A STATS dispatches and copies its records (R130, R175); clearing waits for its commit. DESIGN CHOICE (log 105):
VEC_STATUS.GROUP shows 0 while it runs. -/
def doStats (t : TileId) (s : State) : State :=
  if (tile s t).vecRun.isSome then s else
  withHead s t .vec 0x33 (fun e ds =>
    match ds with
    | [some o] =>
      let first := cf e 2 0 10
      let cnt := cf e 2 10 11
      match unlessPassed e (statsBad s t e o) with
      | some (c, det) => rejectCmd t .vec e c det s
      | none =>
        match slotCheck s t [] [o] with
        | some det => if ilActive s t then ilockWait t .vec e det (det - 1) s else violation t .vec e det s
        | none =>
          let off := dstStart s o
          match spadGuard t .vec true (dLoc o = 3) off (8 * cnt) s with
          | some s' => s'
          | none =>
            let s := useBanks 3 t off (8 * cnt) s
            let ws := (upTo cnt).flatMap (fun i => statWords (statRec (tile s t) (first + i)))
            let r := takeSteps t [] [o] false s
            pokeWords (spadBase t + off) ws (dispatched t .vec e.num (fun e => { e with steps := r.2 }) r.1)
    | _ => s)

/-! ## Table writes (R102) -/

/-- A vector command that uses table `tbl` is executing. -/
def tableBusy (x : Tile) (tbl : Nat) : Bool :=
  x.vec.any (fun e => e.phase = .running && opcodeOf e = 0x10 && cf e 0 28 4 = 4 && cf e 0 20 1 = tbl)

/-- The table a VEC-page register belongs to: its coefficients and its configuration. -/
def tableOf (off : Nat) : Option Nat :=
  if within 0x110 0x118 off || within 0x400 0x7FF off then some 0
  else if within 0x120 0x128 off || within 0x800 0xBFF off then some 1 else none

/-- The request that made a held table write completes (R102). -/
def lutDone (req : Option Nat) (s : State) : State :=
  { s with outstanding := s.outstanding.map (fun o => if req = some o.id then { o with place := .answered } else o) }

/-- The oldest held table write whose table no command uses any more is applied, and the request that made it completes
(R102). -/
def doLutApply (t : TileId) (s : State) : State :=
  let x := tile s t
  match x.lutHeld with
  | [] => s
  | (off, w, req) :: r =>
    if tableBusy x ((tableOf off).getD 0) then s
    else
      let s := wr (pgVec t) off w (setTile t { x with lutHeld := r } s)
      lutDone req s

/-! ## The meanings -/

def execVec (t : TileId) (s : State) : Host.Outcome State Fault Refusal := ok (doVec t s)
def execPool (t : TileId) (s : State) : Host.Outcome State Fault Refusal := ok (doPool t s)
def execSoftmax (t : TileId) (s : State) : Host.Outcome State Fault Refusal := ok (doSoftmax t s)
def execNorm (t : TileId) (s : State) : Host.Outcome State Fault Refusal := ok (doNorm t s)
def execStats (t : TileId) (s : State) : Host.Outcome State Fault Refusal := ok (doStats t s)
def execVecRowRead (t : TileId) (flags : List (Fin 32 × Bool)) (s : State) : Host.Outcome State Fault Refusal :=
  ok (doVecRowRead t flags s)
def execVecCmdComplete (v : VecEnd) (s : State) : Host.Outcome State Fault Refusal := ok (doVecComplete v.tile v.flags s)
def execLutWriteApply (t : TileId) (s : State) : Host.Outcome State Fault Refusal := ok (doLutApply t s)

end Sys2Proof.Machine
end

