-- ==== Sys2Proof/Machine/Stream.lean ====
section
/-! DEFINITION. The stream engines: operands, which element goes where, the checks at dispatch, slot steps, and how a command
that has dispatched reads its lines and writes them; the vector unit's MOVE (05, R176, R177; 07, R221 to R224, R237; 08,
R251 to R272; 10, R345). -/

namespace Sys2Proof.Machine

/-! ## Operands -/

/-- An operand of a command on tile `t`; `buf` is the buffer a step has already taken, else the one at the index; `add`
is the byte offset from the start (R255, R256). -/
def opd (s : State) (t : TileId) (d : List Word) (write : Bool) (buf : Option Nat) (add : Int) : Opd :=
  let u := effTile s d
  let slot := decide (dLoc d = 3)
  let b := buf.getD (if write then wrIdx s u (dRing d) else rdIdx s u (dRing d))
  let base := if slot then spadBase u + bufOff s u (dRing d) b
    else if dLoc d = 2 then spadBase u + dBase d % 0x100000 else dBase d
  let wide := slot && !write && bufWide s u (dRing d) b
  { d := d, tile := u, own := decide (2 ≤ dLoc d) && decide (u = t), start := ((base : Int) + add).toNat,
    ty := if wide then 2 else dType d, ring := if slot then some (dRing d, b) else none, wide := wide,
    invalid := slot && !write && bufInvalid s u (dRing d) b }

/-- The output of a command that reads `src`: a slot takes on the INT16 form of a WIDE source (R136). -/
def outOpd (src dst : Opd) : Opd :=
  if dst.ring.isSome && src.wide && decide (dst.ty ≤ 2) then { dst with ty := 2, wide := true } else dst

/-! ## Which element goes where (R155, R221, R223, R224, R256) -/

/-- The region of a stream command: its dimensions and padding extents. -/
structure Reg where
  n : Nat
  g : Nat
  c : Nat
  h : Nat
  w : Nat
  pt : Nat
  pb : Nat
  pl : Nat
  pr : Nat
  phase : Nat
  deriving DecidableEq, Repr

/-- The region a stream descriptor names (R255), or the whole tensor (R176). -/
def regOf (d : List Word) (sd : Option (List Word)) : Reg :=
  match sd with
  | none => ⟨dN d, dG d, dC d, dH d, dW d, 0, 0, 0, 0, 1⟩
  | some w => ⟨sdExtN w, 1, sdExtC w, sdExtH w, sdExtW w, sdPad w 0, sdPad w 1, sdPad w 2, sdPad w 3, sdPhase w⟩

/-- How a command rearranges its region: MOVE, or REGROUP with its block edge and direction (R223). -/
inductive Turn where
  | move
  | toDepth (b : Nat)
  | toSpace (b : Nat)
  deriving DecidableEq, Repr

/-- Channels, height and width of the output. -/
def outDims (r : Reg) : Turn → Nat × Nat × Nat
  | .move => (r.c, r.h + r.pt + r.pb, r.w + r.pl + r.pr)
  | .toDepth b => (r.c * b * b, ceilDiv (r.h + r.pt + r.pb) b, ceilDiv (r.w + r.pl + r.pr) b)
  | .toSpace b => (r.c / (b * b), (r.h + r.pt + r.pb) * b, (r.w + r.pl + r.pr) * b)

/-- Source channel, row and column, the last two from the region's first element, of output element (c, h, w). -/
def srcCoord (r : Reg) (tn : Turn) (c h w : Nat) : Nat × Int × Int :=
  match tn with
  | .move => (c, (h : Int) - r.pt, (w : Int) - r.pl)
  | .toDepth b =>
    let q := c / r.c
    (c % r.c, ((h * b + q / b : Nat) : Int) - r.pt, ((w * b + q % b : Nat) : Int) - r.pl)
  | .toSpace b => ((h % b * b + w % b) * (r.c / (b * b)) + c, ((h / b : Nat) : Int) - r.pt, ((w / b : Nat) : Int) - r.pl)

/-- Column `w` in phase-split order for stride `p` over `wp` columns (R221). -/
def phaseCol (p wp w : Nat) : Nat := if p ≤ 1 then w else w % p * ceilDiv wp p + w / p

/-- The value of a source element: padding by the source descriptor's modes (R157, R224). `c0` is the channel of the
region's first element. -/
def padEl (s : State) (t : TileId) (o : Opd) (r : Reg) (c0 n g c : Nat) (y x : Int) : SrcEl :=
  match padPos o.d r.h r.w y x with
  | .inl (h, w) => .mem (2 * o.start + elemNib o.d o.ty n g c h w)
  | .inr 1 => .src (padIn o.d o.ty)
  | .inr _ => .src (zpPat o.ty (chanCfg s t o.d (c0 + c)))

/-- The channels beyond the `co` that a command writes whose places in a slot buffer's rows it fills with their zero point:
up to the next multiple of 32, and for a MOVE none that the tensor has (R155, R223, R226). -/
def fillChans (dst : Opd) (tn : Turn) (co : Nat) : List Nat :=
  if dst.ring.isNone then [] else
  ((upTo (ceilDiv co 32 * 32)).drop co).filter (fun c => decide (tn ≠ .move) || decide (dC dst.d ≤ c))

/-- The output channel and address of each element, with where its value comes from. -/
def moveMap (s : State) (t : TileId) (src dst : Opd) (r : Reg) (tn : Turn) (srcOfs : Nat) : List (Nat × Nat × SrcEl) :=
  let dims := outDims r tn
  let wo := dims.2.2
  let c0 := rowChan src.d src.ty srcOfs 0
  let each := fun (cs : List Nat) (f : Nat → Nat → Nat → Nat → Nat → SrcEl) =>
    (upTo r.n).flatMap (fun n => (upTo r.g).flatMap (fun g => cs.flatMap (fun c => (upTo dims.2.1).flatMap (fun h => (upTo wo).map (fun w =>
      (c, 2 * dst.start + elemNib dst.d dst.ty n g c h (phaseCol r.phase wo w), f n g c h w))))))
  each (upTo dims.1) (fun n g c h w =>
      let q := srcCoord r tn c h w
      padEl s t src r c0 n g q.1 q.2.1 q.2.2)
    ++ each (fillChans dst tn dims.1) (fun _ _ c _ _ => .dst (zpPat dst.ty (chanCfg s t dst.d c)))

/-- A destination that cannot hold the padded region, or a whole-tensor copy between unequal tensors (R176, R256). -/
def regionBad (src dst : List Word) (whole : Bool) (r : Reg) (tn : Turn) (dstOfs : Nat) : Bool :=
  let o := outDims r tn
  let wcols := if r.phase ≤ 1 then o.2.2 else r.phase * ceilDiv o.2.2 r.phase
  let held := decide (r.n ≤ dN dst ∧ r.g ≤ dG dst ∧ o.1 ≤ dC dst ∧ o.2.1 ≤ dH dst ∧ wcols ≤ dW dst)
    && (dLoc dst = 3 || decide (32 * dstOfs + elemNib dst (dType dst) (r.n - 1) (r.g - 1) (o.1 - 1) (o.2.1 - 1) (wcols - 1) + etNib (dType dst)
        ≤ elemNib dst (dType dst) (dN dst - 1) (dG dst - 1) (dC dst - 1) (dH dst - 1) (dW dst - 1) + etNib (dType dst)))
  let equal := decide (dN src = dN dst ∧ dG src = dG dst ∧ dC src = dC dst ∧ dH src = dH dst ∧ dW src = dW dst)
  let turnBad := match tn with
    | .toSpace b => r.c % (b * b) != 0
    | _ => false
  turnBad || o.1 = 0 || (if whole && decide (tn = .move) then !equal else !held)

/-- A MIRROR extent that is not less than the dimension it reflects (R224). -/
def mirrorBad (d : List Word) (r : Reg) : Bool :=
  (dPad d 0 = 2 && decide (r.h ≤ r.pt)) || (dPad d 1 = 2 && decide (r.h ≤ r.pb))
    || (dPad d 2 = 2 && decide (r.w ≤ r.pl)) || (dPad d 3 = 2 && decide (r.w ≤ r.pr))

/-! ## A command that has dispatched (R256 to R258) -/

/-- The lines an element lies in. -/
def elLines (ty nib : Nat) : List Nat := [nib / 128, (nib + etNib ty - 1) / 128].eraseDups

/-- The source lines an element waits for. -/
def SrcEl.lines (ty : Nat) : SrcEl → List Nat
  | .mem nib => elLines ty nib
  | _ => []

/-- An element joins the line of its address; the lines stand last first. -/
def putEl (l : Nat) (x : Nat × Nat × SrcEl) : List DstLine → List DstLine
  | [] => [⟨l, [x], []⟩]
  | d :: r => if d.line = l then { d with els := x :: d.els } :: r else if d.line < l then ⟨l, [x], []⟩ :: d :: r else d :: putEl l x r

/-- The lines of a map in the destination's order, each with the source lines it waits for (R258). -/
def destLines (sty : Nat) (m : List (Nat × Nat × SrcEl)) : List DstLine :=
  (m.foldl (fun l x => putEl (x.2.1 / 128) x l) []).reverse.map (fun d =>
    { d with els := d.els.reverse, needs := (d.els.reverse.flatMap (fun x => x.2.2.lines sty)).eraseDups })

/-- Drop a line equal to the one before it. -/
def lineRuns : List Nat → List Nat
  | a :: b :: r => if a = b then lineRuns (b :: r) else a :: lineRuns (b :: r)
  | l => l

/-- The source lines in the order in which the destination's lines wait for them. -/
def readsOf (l : List DstLine) : List Nat := (lineRuns (l.flatMap DstLine.needs)).eraseDups

/-- Lines in one request to a hub, by BURST (R255). -/
def burstLines (sd : Option (List Word)) : Nat := match sd with
  | some w => 2 ^ bitsOf (dw w 2) 20 2
  | none => 1

/-- What a command, or a channel's block, sets out to do: its map's lines, and the source lines they wait for. -/
def mkRun (s : State) (t : TileId) (num : Nat) (chan : Option Nat) (src dst : Opd) (m : List (Nat × Nat × SrcEl)) (burst : Nat) : StrmRun :=
  let l := destLines src.ty m
  { num := num, chan := chan, src := src, dst := dst, outs := chanCfgs s t dst.d, reads := readsOf l, lines := l, burst := burst,
    invalid := src.invalid }

/-- Nothing is left to read, to write or to be acknowledged (R258). -/
def StrmRun.done (r : StrmRun) : Bool :=
  r.idx.isNone && r.reads.isEmpty && r.asked.isEmpty && r.awaits.isEmpty && r.lines.isEmpty && r.acks.isEmpty

/-- The operand a run reads at present: a GATHER's indices come first (R177). -/
def StrmRun.from (r : StrmRun) : Opd := match r.idx with
  | some i => i.ids
  | none => r.src

/-- A line of the engine's own scratchpad (R244). -/
def ownLine (t : TileId) (o : Opd) (l : Nat) : Bool := o.own && within (spadBase t / 64) (spadBase t / 64 + 0x3FFF) l

/-- The line lies in the buffer the operand uses: a slot access (R247). -/
def slotLine (s : State) (o : Opd) (l : Nat) : Bool := match o.ring with
  | some (r, b) =>
    let first := (spadBase o.tile + bufOff s o.tile r b) / 64
    decide (first ≤ l ∧ l < first + ringLines s o.tile r)
  | none => false

/-- The device address of a byte of an operand: a scratchpad is asked for by the tile the descriptor names (R154, R430). -/
def netAddr (o : Opd) (a : Nat) : Nat :=
  if 2 ≤ dLoc o.d && within (spadBase o.tile) (spadBase o.tile + 0xFFFFF) a then spadBase (tileOf (dTile o.d)) + (a - spadBase o.tile) else a

/-- A local engine accesses a line of its scratchpad: whether it may, and what becomes of it (R245 to R249). -/
def ownAccess (t : TileId) (q : Engine) (o : Opd) (write : Bool) (l : Nat) (s : State) : State × Bool :=
  let off := 64 * l - spadBase t
  match spadCheck s t (portOfEng q) write (slotLine s o l) off with
  | some d => (spadSequel t q d (spadFault t (portOfEng q) write off d s), false)
  | none => (useBank (portRank (portOfEng q)) t s (off / 0x10000), true)

/-- The poison line (R343). -/
def poisonLine : List Byte := (List.replicate 16 (leBytes 4 0xA55AC33C)).flatten

/-- A source line has come (R345). -/
def StrmRun.take (r : StrmRun) (l : Nat) (d : List Byte) : StrmRun :=
  { r with
    got := r.got ++ [(l, d)]
    lines := r.lines.map (fun x => { x with needs := x.needs.erase l })
    invalid := r.invalid || decide (d = poisonLine) }

/-- A byte of a line that has come. -/
def StrmRun.byte (r : StrmRun) (a : Nat) : Byte := nth 0 (((r.got.find? (fun g => g.1 = a / 64)).map Prod.snd).getD []) (a % 64)

/-- An element of a line that has come. -/
def StrmRun.elem (r : StrmRun) (ty nib : Nat) : Nat :=
  if ty = 0 then bitsOf (r.byte (nib / 2)).toNat (4 * (nib % 2)) 4
  else leNat ((upTo (etBits ty / 8)).map (fun i => r.byte (nib / 2 + i)))

/-- The pattern an output element takes, and whether it was clipped (R136). -/
def StrmRun.value (r : StrmRun) : SrcEl → Nat × Bool
  | .mem nib => convElem r.src.ty r.dst.ty (r.elem r.src.ty nib)
  | .src v => convElem r.src.ty r.dst.ty v
  | .dst v => (v, false)

/-- The magnitude of an element for its channel's statistics (R128). -/
def outMag (ty : Nat) (zp : Int) (q : Nat) : Nat := if etInt ty then (elemInt ty q - zp).natAbs else if ty = 4 then q % 0x8000 else 0

/-- The elements of a line that a tensor's channels hold, converted, with what each channel takes. -/
def lineConvs (r : StrmRun) (d : DstLine) : List (ChanCfg × Conv) :=
  d.els.filterMap (fun x => match x.2.2 with
    | .dst _ => none
    | e =>
      let c := cfgOf r.dst.d r.outs x.1
      let v := r.value e
      some (c, ⟨v.1, v.2, outMag r.dst.ty c.zp v.1⟩))

/-- Stage a line's statistics on its command's entry, and count its NaN results on the vector unit (R99, R128). -/
def stageLine (t : TileId) (q : Engine) (r : StrmRun) (d : DstLine) (s : State) : State :=
  let l := lineConvs r d
  let s := if q = .vec then countNans t (nansOf r.dst.ty (l.map Prod.snd)) s else s
  if r.chan.isSome || (q != .vec && r.outs.isEmpty) then s
  else updEntry t q r.num (stageRow (l.map Prod.fst) (l.map Prod.snd) (r.dst.ty = 4)) s

/-- Memory with a line's elements in it. -/
def lineMem (r : StrmRun) (d : DstLine) (m : List Host.Cell) : List Host.Cell :=
  d.els.foldl (fun m x => writeElem r.dst.ty x.2.1 (r.value x.2.2).1 m) m

/-- The runs of bytes a line's elements fill: first address and length. -/
def lineParts (r : StrmRun) (d : DstLine) : List (Nat × Nat) :=
  let hit := fun (k : Nat) => d.els.any (fun x => within (x.2.1 / 2) ((x.2.1 + etNib r.dst.ty - 1) / 2) (64 * d.line + k))
  ((upTo 68).filter (fun k => hit k && !(decide (0 < k) && hit (k - 1)))).flatMap
    (fun k => lineCuts (64 * d.line + k) (((upTo 68).drop k).takeWhile hit).length)

/-- A line is written: through the engine's own port, or by requests whose acknowledgements the run waits for. A line of the
own scratchpad that may not be written ends the run (R136, R246, R249, R258, R282). -/
def writeLine (regs : RegServe) (t : TileId) (q : Engine) (d : DstLine) (s : State) (r : StrmRun) : State × StrmRun × Bool :=
  let ls := (d.els.flatMap (fun x => elLines r.dst.ty x.2.1)).eraseDups
  let m := lineMem r d s.mem
  let k : State × StrmRun × Bool :=
    if ls.all (ownLine t r.dst) then
      let g := ls.foldl (fun (a : State × Bool) l => if a.2 then ownAccess t q r.dst true l a.1 else a) (s, true)
      if g.2 then ({ g.1 with mem := m }, r, true) else (g.1, r, false)
    else
      let g := (lineParts r d).foldl (fun (a : State × List Nat) p =>
        (issueLine regs (.tile t q) true (netAddr r.dst p.1) p.2 (memRead m p.1 p.2) a.1 (slotLine a.1 r.dst (p.1 / 64)), a.2 ++ [a.1.nextReq])) (s, [])
      (g.1, { r with acks := r.acks ++ g.2 }, true)
  if !k.2.2 then k else
  let clip := if r.src.wide && decide (r.dst.ty ≤ 1) && decide (dLoc r.dst.d ≤ 1) then (d.els.filter (fun x => (r.value x.2.2).2)).length else 0
  let s := if clip = 0 then k.1 else fbump (pgStats t) Fl.statsClipCntElements clip k.1
  let e : StrmId := if q = .s1 then 1 else 0
  let s := if q = .vec then s else
    fset64 (pgStrm t e) Fl.strmLinesLoLines Fl.strmLinesHiLines (fget64 s (pgStrm t e) Fl.strmLinesLoLines Fl.strmLinesHiLines + 1) s
  (stageLine t q r d s, { k.2.1 with clipped := r.clipped + clip }, true)

/-- The lines of a run that may be written are, in order: a line whose source lines have all come, and one that no source
line contributes to after the line before it. `rev` are those passed over, `prev` whether the last was written (R258). -/
def writeReady (regs : RegServe) (t : TileId) (q : Engine) : List DstLine → Bool → List DstLine → State → StrmRun → State × StrmRun × Bool
  | [], _, rev, s, r => (s, { r with lines := rev.reverse }, true)
  | d :: ds, prev, rev, s, r =>
    if d.needs.isEmpty && (prev || d.els.any (fun x => !(x.2.2.lines r.src.ty).isEmpty)) then
      match writeLine regs t q d s r with
      | (s, r, true) => writeReady regs t q ds true rev s r
      | (s, r, false) => (s, { r with lines := rev.reverse ++ d :: ds }, false)
    else writeReady regs t q ds false (d :: rev) s r

/-! ## GATHER's rows (R177) -/

/-- The nibble address of position `p` of an index tensor (R156, R177). -/
def idNib (o : Opd) (p : Nat) : Nat := 2 * o.start + rowNib o.d o.ty (p / 32) (p % 32)

/-- Row `i` of the output takes table row `id`; PAD_VALUE when the id is out of range. In a slot buffer the places beyond the
table's channels, up to the next multiple of 32, hold the zero point (R155, R177, R226). -/
def gatherRow (outs : List ChanCfg) (tb o : Opd) (i : Nat) (id : Int) : List (Nat × Nat × SrcEl) :=
  let out := decide (id < 0) || decide ((dH tb.d : Int) ≤ id)
  let each := fun (cs : List Nat) (f : Nat → Nat → Nat → Nat → SrcEl) =>
    (upTo (dN tb.d)).flatMap (fun n => (upTo (dG tb.d)).flatMap (fun g => cs.flatMap (fun c => (upTo (dW tb.d)).map (fun w =>
      (c, 2 * o.start + elemNib o.d o.ty n g c i w, f n g c w)))))
  each (upTo (dC tb.d)) (fun n g c w => if out then .src (padIn tb.d tb.ty) else .mem (2 * tb.start + elemNib tb.d tb.ty n g c id.toNat w))
    ++ each (fillChans o (.toDepth 1) (dC tb.d)) (fun _ _ c _ => .dst (zpPat o.ty (cfgOf o.d outs c)))

/-- A GATHER whose indices have all come goes on to its table's rows; an index out of range counts (R177). -/
def gatherTable (t : TileId) (s : State) (r : StrmRun) : State × StrmRun :=
  match r.idx with
  | none => (s, r)
  | some i =>
    if !(r.reads.isEmpty && r.asked.isEmpty) then (s, r) else
    let ids := (upTo i.count).map (fun k => elemInt 3 (r.elem 3 (idNib i.ids (i.first + k))))
    let l := destLines r.src.ty ((ids.mapIdx (fun k id => gatherRow r.outs r.src r.dst k id)).flatten)
    let oor := (ids.filter (fun id => decide (id < 0) || decide ((dH r.src.d : Int) ≤ id))).length
    (if oor = 0 then s else setIrq (pgTile t) 10 (fbump (pgTile t) Fl.tileGatherOorCount oor s),
      { r with idx := none, got := [], lines := l, reads := readsOf l, oor := decide (oor ≠ 0) })

/-- What has come is put to use. -/
def useLines (regs : RegServe) (t : TileId) (q : Engine) (s : State) (r : StrmRun) : State × StrmRun × Bool :=
  let k := gatherTable t s r
  writeReady regs t q k.2.lines true [] k.1 k.2

/-- Lines that go into the same request to a hub: those that follow the first, within BURST lines aligned to their size
(R260, R292). -/
def burstOf (r : StrmRun) : List Nat := match r.reads with
  | [] => []
  | l :: _ =>
    let n := if dLoc r.from.d ≤ 1 then r.burst else 1
    (r.reads.zipIdx.takeWhile (fun p => decide (p.1 = l + p.2) && decide (p.1 / n = l / n))).map Prod.fst

/-- A run reads its next line: at once from the own scratchpad, or by a request. A line of the own scratchpad that may not be
read ends the run (R244 to R249, R258). -/
def readNext (regs : RegServe) (t : TileId) (q : Engine) (s : State) (r : StrmRun) : State × StrmRun × Bool :=
  match r.reads with
  | [] => (s, r, true)
  | l :: rest =>
    if ownLine t r.from l then
      match ownAccess t q r.from false l s with
      | (s, false) => (s, r, false)
      | (s, true) => useLines regs t q s ({ r with reads := rest }.take l (memRead s.mem (64 * l) 64))
    else
      let ls := burstOf r
      let first := s.nextReq
      let g := ls.foldl (fun (a : State × List (Nat × Nat)) l =>
        (issueLine regs (.tile t q) false (netAddr r.from (64 * l)) 64 [] a.1 (slotLine a.1 r.from l) first, a.2 ++ [(a.1.nextReq, l)])) (s, [])
      (g.1, { r with reads := r.reads.drop ls.length, asked := r.asked ++ g.2 }, true)

/-! ## Checks (R254 to R260, R270, R275, R519 check 5) -/

/-- Receivers of a SEND: tile numbers, 96 and above included (R275). -/
def mcReceivers (w : List Word) : List Nat := ((upTo 32).filter (fun i => (sdMask w).testBit i)).map (fun i => sdTile w + i)

/-- A channel of the engine is armed on descriptor `d`. -/
def armedOn (x : Tile) (e : StrmId) (d : Nat) : Option Nat :=
  (upTo 4).find? (fun k => match (chansOf x e)[k]? with
    | some c => c.armed && c.d = d
    | none => false)

/-- Check 5 of R519 for a MOVE or REGROUP. -/
def sdescCheck (s : State) (t : TileId) (e : StrmId) (c : QEntry) (src dst : List Word) (w : List Word) (tn : Turn) : Option (Nat × Nat) :=
  let d := cf c 2 0 8
  let r := regOf src (some w)
  let role := sdRole w
  let rearm := (armedOn (tile s t) e d).isSome
  if !sdValid w then some (2, 0x12)
  else if sdPart w != fget s (pgStrm t e) Fl.ownerPart then some (5, 6)
  else if sdReserved w || role = 3
      || (sdHalo w && !(dLoc src = 3 && decide (effTile s src ≠ t)))
      || mirrorBad src r || regionBad src dst false r tn (cf c 3 16 16)
      || (sdPersist w && (opcodeOf c = 0x22 || (!rearm && (chansOf (tile s t) e).all StrmChan.armed)))
      || (role = 1 && (dLoc src = 3 || (mcReceivers w).any (fun u => decide (96 ≤ u)))) then some (2, 0x18)
  else if role = 1 && (mcReceivers w).any (fun u => !inTileMask s (reqPart s (.tile t (strmEng e))) (tileOf u)) then some (5, 3)
  else none

/-- A rejection of any class at dispatch (R190, R519). -/
def rejectAny (t : TileId) (q : Engine) (e : QEntry) (cls det : Nat) (s : State) : State :=
  if cls ≤ 2 then rejectCmd t q e cls det s else faultJob t cls det (recordFault (pgEngine t q) cls det s)

/-- One past the last byte of a buffer a map reaches, from the buffer's start. -/
def slotEnd (s : State) (o : Opd) (m : List Nat) : Nat :=
  match o.ring with
  | some (r, b) => m.foldl (fun a nib => Nat.max a (nib / 2 + 1 - (spadBase o.tile + bufOff s o.tile r b))) 0
  | none => 0

/-- Checks 6 and 8 of R519: rings, scratchpad and buffer ends, for operands with one past the last nibble each element uses;
`wide` when the output's buffers do not hold the INT16 form (R137, R161, R241). -/
def roomOf (s : State) (l : List (Opd × List Nat)) (wide : Bool) : Option (Nat × Nat) :=
  let ds := l.map (fun p => some p.1.d)
  let small := fun (p : Opd × List Nat) => match p.1.ring with
    | some (r, _) => decide (bufBytes s p.1.tile r < slotEnd s p.1 p.2)
    | none => false
  if ringInvalid s ds then some (2, 5)
  else if spadAlloc ds then some (1, 1)
  else if l.any small || wide then some (1, 2)
  else none

/-- The last nibble of each element a map reads, and of each it writes. -/
def readEnds (ty : Nat) (m : List (Nat × Nat × SrcEl)) : List Nat := m.filterMap (fun e => match e.2.2 with
  | .mem nib => some (nib + etNib ty - 1)
  | _ => none)
def writeEnds (ty : Nat) (m : List (Nat × Nat × SrcEl)) : List Nat := m.map (fun e => e.2.1 + etNib ty - 1)

/-- Checks 6 and 8 of R519 for a command that carries out a map. A narrow output of the vector unit, and one that a narrow
slot buffer feeds and that takes on its INT16 form, needs room for that form (R136, R137). -/
def strmRoom (s : State) (vec : Bool) (src dst : Opd) (m : List (Nat × Nat × SrcEl)) : Option (Nat × Nat) :=
  let wide := (vec || (src.ring.isSome && decide (dType src.d ≤ 1))) && wideEligible dst.d && match dst.ring with
    | some (r, _) => decide (bufBytes s dst.tile r < slotEnd s dst (writeEnds dst.ty m) * (16 / etBits dst.ty))
    | none => false
  roomOf s [(src, readEnds src.ty m), (dst, writeEnds dst.ty m)] wide

/-! ## Slot steps, local and remote (R167, R259) -/

/-- The remote step a command holds or asks for. -/
def remoteStep (s : State) (t : TileId) (e : StrmId) (num : Nat) (write : Bool) : Option RemoteStep :=
  s.remoteSteps.find? (fun r => decide (r.tile = t) && decide (r.eng = e) && r.num = num && r.write = write)

/-- What a slot operand of a stream command meets. -/
inductive SlotWait where
  /-- Not a slot, or a local buffer in the right state. -/
  | ready
  /-- A step its remote ring has taken. -/
  | taken (p : SlotStep)
  /-- It waits; `ask` when the request to the ring tile is still to be sent. -/
  | waits (ask : Bool)
  deriving DecidableEq, Repr

def slotWait (s : State) (t : TileId) (e : StrmId) (num : Nat) (d : List Word) (write : Bool) : SlotWait :=
  if dLoc d != 3 then .ready
  else if effTile s d = t then
    (if (if write then slotWritable s t (dRing d) else slotReadable s t (dRing d)) then .ready else .waits false)
  else match remoteStep s t e num write with
    | none => .waits true
    | some r => match r.got with
      | some p => .taken p
      | none => .waits false

/-- Send a slot-step request to the ring's tile. -/
def askStep (s : State) (t : TileId) (e : StrmId) (num : Nat) (d : List Word) (write consume : Bool) : State :=
  { s with remoteSteps := s.remoteSteps ++ [⟨effTile s d, dRing d, t, e, num, write, consume, none⟩] }

/-- The requests of a command are over. -/
def dropSteps (t : TileId) (e : StrmId) (num : Nat) (s : State) : State :=
  { s with remoteSteps := s.remoteSteps.filter (fun r => !(decide (r.tile = t) && decide (r.eng = e) && r.num = num)) }

/-- Take an operand's step at dispatch: a local one now, a remote one as its ring tile took it. -/
def takeStrm (t : TileId) (d : List Word) (write consume : Bool) (w : SlotWait) (s : State) : State × List SlotStep :=
  if dLoc d != 3 then (s, []) else
  match w with
  | .taken p => (s, [p])
  | _ =>
    let r := if write then takeWrite t (dRing d) s else takeRead t (dRing d) consume s
    (r.1, [r.2])

/-- The ring tile takes a step for a request, if its buffer is in the state the step needs (R167, R259). -/
def ringStep (s : State) (r : RemoteStep) : Option (State × SlotStep) :=
  if r.write then
    (if slotWritable s r.ringTile r.ring then some (takeWrite r.ringTile r.ring s) else none)
  else if slotReadable s r.ringTile r.ring then some (takeRead r.ringTile r.ring r.consume s) else none

/-- Tile `t`, the ring tile, answers request `i` of those held for its ring `sl`. -/
def doRemoteStep (t : TileId) (sl : Fin 32) (i : Nat) (s : State) : State :=
  let mine := s.remoteSteps.filter (fun r => decide (r.ringTile = t) && r.ring = sl.val && r.got.isNone)
  match mine[i]? with
  | none => s
  | some r =>
    match ringStep s r with
    | none => s
    | some (s', p) => { s' with remoteSteps := s'.remoteSteps.map (fun q => if q = r then { q with got := some p } else q) }

/-! ## MOVE and REGROUP (R176, R223, R256) -/

/-- Signed byte offset of a 16 B field. -/
def ofsBytes (n : Nat) : Int := (16 * n : Nat)

/-- An earlier command of the engine has lines to read that it has not asked for: the next does not dispatch (R258). -/
def readsLeft (x : Tile) (e : StrmId) : Bool :=
  (strOf x e).runs.any (fun r => r.chan.isNone && (!r.reads.isEmpty || r.idx.isSome))

/-- A command that waits at check 10 has passed those before it (R519). -/
def waitsAt10 (t : TileId) (q : Engine) (e : QEntry) (cause : Nat) (s : State) : State :=
  stall t cause (updEntry t q e.num (fun x => { x with passed := true }) s)

/-- The parts of a stream command that its dispatch has settled. -/
structure Ready where
  e : QEntry
  src : List Word
  dst : List Word
  sd : Option (List Word)
  wr : SlotWait
  ww : SlotWait

/-- Check 5 of R519 for the region of a MOVE or REGROUP, with a stream descriptor or without (R176, R254 to R260). -/
def regionCheck (s : State) (t : TileId) (e : StrmId) (c : QEntry) (src dst : List Word) (sd : Option (List Word)) (tn : Turn) : Option (Nat × Nat) :=
  match sd with
  | some w => sdescCheck s t e c src dst w tn
  | none => if regionBad src dst true (regOf src none) tn (cf c 3 16 16) then some (2, 0x18) else none

/-- A flag of a stream descriptor; no for a whole-tensor copy. -/
def sdIs (sd : Option (List Word)) (f : List Word → Bool) : Bool := match sd with
  | some w => f w
  | none => false

/-- A MOVE that arms a channel, or a REARM: its descriptor has PERSIST = 1, or a channel is armed on it (R270, R273). -/
def persistent (s : State) (t : TileId) (e : StrmId) (op : Nat) (c : QEntry) (sd : Option (List Word)) : Bool :=
  decide (op = 0x21) && sdIs sd (fun w => sdPersist w || (armedOn (tile s t) e (cf c 2 0 8)).isSome)

/-- Check 10 of R519 for the buffers (R167, R237, R259). A RECV takes its source's lines from its SEND, and a SEND writes no
destination (R275, R276). -/
def moveWaits (t : TileId) (e : StrmId) (r : Ready) (k : Ready → State) (s : State) : State :=
  let q := strmEng e
  let c := r.e
  let recv := sdIs r.sd (fun w => sdRole w = 2)
  let wr := if recv then .ready else slotWait s t e c.num r.src false
  let ww := if sdIs r.sd (fun w => sdRole w = 1) then .ready else slotWait s t e c.num r.dst true
  match wr, ww with
  | .waits ask, _ =>
    waitsAt10 t q c (if sdIs r.sd sdHalo then 5 else 0) (if ask then askStep s t e c.num r.src false (cf c 0 10 1 = 1) else s)
  | _, .waits ask => waitsAt10 t q c 1 (if ask then askStep s t e c.num r.dst true false else s)
  | _, _ => k { r with wr := wr, ww := ww }

/-- The checks and waits of the head MOVE or REGROUP of a stream engine. `want` tells by its descriptor, and by whether it is
persistent, if the present command dispatches it; one of another kind is left to the command that does. -/
def withMove (s : State) (t : TileId) (e : StrmId) (op : Nat) (want : Option (List Word) → Bool → Bool) (tn : QEntry → Turn)
    (k : Ready → State) : State :=
  let q := strmEng e
  if readsLeft (tile s t) e then s else
  withHead s t q op (fun c ds =>
    match ds with
    | [some src, some dst] =>
      let sd := if cf c 2 0 8 = 0xFF then none else some (sdescWords s t e (cf c 2 0 8))
      match unlessPassed c (regionCheck s t e c src dst sd (tn c)) with
      | some (cls, det) => rejectAny t q c cls det s
      | none =>
        let persist := persistent s t e op c sd
        if !want sd persist then s else
        let a := opd s t src false none (ofsBytes (cf c 3 0 16))
        let b := outOpd a (opd s t dst true none (ofsBytes (cf c 3 16 16)))
        match unlessPassed c (strmRoom s false a b (moveMap s t a b (regOf src sd) (tn c) (16 * cf c 3 0 16))) with
        | some (cls, det) => rejectAny t q c cls det s
        | none =>
          let r : Ready := ⟨c, src, dst, sd, .ready, .ready⟩
          if !(sdIs sd (fun w => sdRole w = 2) && !persist) && dLoc src = 3 && decide (effTile s src ≠ t) && dAdpCnt src != 0 then
            rejectCmd t q c 2 0x04 s
          else if persist then k r else moveWaits t e r k s
    | _ => s)

/-- The buffer a wait's answer named. -/
def SlotWait.buf : SlotWait → Option Nat
  | .taken p => some p.buf
  | _ => none

/-- The output notice an entry keeps (R412), with its steps. -/
def noteMove (s : State) (t : TileId) (h : Nat) (dst : List Word) (steps : List SlotStep) (c : QEntry) : QEntry :=
  { c with steps := steps, outHandle := h, outCrit := jobSafe s t && dCrit dst }

/-- A step that writes takes the tags of what a run read and wrote (R136, R166). -/
def tagSteps (wide invalid : Bool) (l : List SlotStep) : List SlotStep :=
  l.map (fun p => if p.kind = 0 then { p with wide := wide, invalid := p.invalid || invalid } else p)

/-- What an entry holds of a run that has ended (R136, R166, R177, R345, R412). -/
def entryTakes (r : StrmRun) (c : QEntry) : QEntry :=
  { c with steps := tagSteps r.dst.wide (r.invalid || r.oor) c.steps, clipped := r.clipped, srcInvalid := r.invalid }

/-- Both queues of committed persistent MOVEs. -/
def armQ (x : Tile) (e : StrmId) : List ArmReq := if e.val = 0 then x.arm0 else x.arm1
def setArmQ (t : TileId) (e : StrmId) (l : List ArmReq) (s : State) : State :=
  updTile t (fun x => if e.val = 0 then { x with arm0 := l } else { x with arm1 := l }) s

/-- What a persistent MOVE carries to its commit (R270, R273). -/
def armReq (s : State) (t : TileId) (e : StrmId) (c : QEntry) (w : List Word) : ArmReq :=
  let d := cf c 2 0 8
  ⟨(armedOn (tile s t) e d).isSome, d,
    ⟨cf c 1 0 16, cf c 1 16 16, (entryWords c).getD 3 0, decide (cf c 0 10 1 = 1), w⟩⟩

/-- A vector MOVE's run reads its lines one after another, writing what it can (R95, R258). -/
def vecCopy (t : TileId) : Nat → State → StrmRun → State × StrmRun × Bool
  | 0, s, r => (s, r, true)
  | n + 1, s, r => match readNext (fun o pg _ s => oddRegister o pg s) t .vec s r with
    | (s, r, true) => vecCopy t n s r
    | k => k

/-- The output of a MOVE of the vector queue: its INT16 form in a wide re-run, or from a WIDE source (R134, R136). -/
def vecMoveOut (e : QEntry) (a b : Opd) : Opd := if e.wide && decide (b.ty ≤ 1) then { b with ty := 2, wide := true } else outOpd a b

/-- Checks 5 to 8 of R519 for a MOVE of the vector queue (R137, R176, R241). -/
def vecMoveBad (s : State) (e : QEntry) (src dst : List Word) (a b : Opd) (m : List (Nat × Nat × SrcEl)) : Option (Nat × Nat) :=
  if regionBad src dst true (regOf src none) .move (cf e 3 16 16) then some (2, 0x18)
  else (strmRoom s true a b m).orElse (fun _ => if dLoc dst = 2 && wideEligible dst then some (1, 7) else none)

/-- A MOVE of the vector queue: a whole-tensor copy inside the tile's scratchpad through port V (R95, R176). VEC_STATUS.GROUP
shows 2 while it runs. DESIGN CHOICE (log 105): R96 gives it no group; type conversion is group 2. -/
def doVecMove (t : TileId) (s : State) : State :=
  if (tile s t).vecRun.isSome then s else
  withHead s t .vec 0x21 (fun e ds =>
    match ds with
    | [some src, some dst] =>
      let a := opd s t src false none (ofsBytes (cf e 3 0 16))
      let b := vecMoveOut e a (opd s t dst true none (ofsBytes (cf e 3 16 16)))
      let m := moveMap s t a b (regOf src none) .move (16 * cf e 3 0 16)
      match unlessPassed e (vecMoveBad s e src dst a b m) with
      | some (c, det) => rejectCmd t .vec e c det s
      | none =>
        let run := mkRun s t e.num none a b m 1
        vecStart s t e [(src, cf e 0 10 1 = 1)] dst (cf e 1 16 16) 2 (fun s' =>
          let k := useLines (fun o pg _ s => oddRegister o pg s) t .vec s' run
          let k := if k.2.2 then vecCopy t run.reads.length k.1 k.2.1 else k
          updEntry t .vec e.num (fun x => { x with steps := tagSteps b.wide k.2.1.invalid x.steps }) k.1)
    | _ => s)

end Sys2Proof.Machine
end

