-- ==== Sys2Proof/Machine/Moves.lean ====
section
/-! DEFINITION. A stream engine at work: whose turn it is to read, lines that come and go, multicast between tiles, blocks of
persistent channels, completion and the counting of stalls (05, R177; 08, R252 to R279). What a request for a register does
is the caller's: `regs`. -/

namespace Sys2Proof.Machine

/-! ## Reading and writing (R253, R258, R272) -/

/-- The turn a run takes: 0 a command, k + 1 a block of channel k (R272). -/
def StrmRun.slot (r : StrmRun) : Nat := match r.chan with
  | none => 0
  | some k => k + 1

/-- The same run. -/
def StrmRun.same (a b : StrmRun) : Bool := decide (a.num = b.num ∧ a.chan = b.chan)

/-- Change the runs of a stream engine. -/
def updRuns (t : TileId) (e : StrmId) (f : List StrmRun → List StrmRun) (s : State) : State :=
  let x := strOf (tile s t) e
  setStr t e { x with runs := f x.runs } s

/-- A run has moved on. A run that has been dropped meanwhile stays so. -/
def putRun (t : TileId) (e : StrmId) (r : StrmRun) (s : State) : State := updRuns t e (fun l => l.map (fun x => if x.same r then r else x)) s

/-- Line reads that a stream engine has outstanding (R253, R282). -/
def readsOut (s : State) (t : TileId) (q : Engine) : Nat :=
  (s.outstanding.filter (fun o => decide (o.who = .tile t q) && !o.req.write)).foldl
    (fun a o => a + (lineCuts o.req.addr.toNat o.req.len).length) 0

/-- The run may read its next line: it lies in the own scratchpad, or the engine has room among its 256 (R253). -/
def mayRead (s : State) (t : TileId) (e : StrmId) (r : StrmRun) : Bool := match r.reads with
  | [] => false
  | l :: _ => ownLine t r.from l || decide (readsOut s t (strmEng e) + (burstOf r).length ≤ 256)

/-- The run whose turn it is to read: the command and each running channel take turns (R272). -/
def nextReader (s : State) (t : TileId) (e : StrmId) : Option StrmRun :=
  let x := strOf (tile s t) e
  (upTo 5).findSome? (fun i => x.runs.find? (fun r => decide (r.slot = (x.turn + 1 + i) % 5) && mayRead s t e r))

/-- The engine's runs read as long as they may, at most `n` times. -/
def readAll (regs : RegServe) (t : TileId) (e : StrmId) : Nat → State → State
  | 0, s => s
  | n + 1, s =>
    if beingKilled (tile s t) (strmEng e) then s else
    match nextReader s t e with
    | none => s
    | some r =>
      let k := readNext regs t (strmEng e) s r
      let s := putRun t e k.2.1 k.1
      let s := setStr t e { strOf (tile s t) e with turn := r.slot } s
      if k.2.2 then readAll regs t e n s else s

/-- Reads that the engine's runs have still to make. -/
def readsDue (x : StrmSt) : Nat := (x.runs.map (fun r => r.reads.length)).foldl (· + ·) 0

/-- The engine writes what has come and reads on: a GATHER's indices may have to come before its table is read. -/
def strmWork (regs : RegServe) (t : TileId) (e : StrmId) (s : State) : State :=
  let q := strmEng e
  if beingKilled (tile s t) q then s else
  let s := (strOf (tile s t) e).runs.foldl (fun s r =>
    if beingKilled (tile s t) q then s else
    let k := useLines regs t q s r
    putRun t e k.2.1 k.1) s
  let s := readAll regs t e (readsDue (strOf (tile s t) e)) s
  readAll regs t e (readsDue (strOf (tile s t) e)) s

/-- A run begins. -/
def startRun (regs : RegServe) (t : TileId) (e : StrmId) (r : StrmRun) (s : State) : State :=
  strmWork regs t e (updRuns t e (fun l => l ++ [r]) s)

/-! ## Multicast (R275 to R279) -/

/-- Change the multicast runs of a stream engine. -/
def updMc (t : TileId) (e : StrmId) (f : McRun → McRun) (s : State) : State := setMc t e ((mcOf (tile s t) e).map f) s

/-- Both stream engines. -/
def bothStrm : List StrmId := [0, 1]

/-- The RECV of tile `u` that has paired with SEND `num` of engine `e` of tile `t`. -/
def recvOf (s : State) (t : TileId) (e : StrmId) (num : Nat) (u : TileId) : Option (StrmId × McRun) :=
  bothStrm.findSome? (fun k => ((mcOf (tile s u) k).find? (fun m => !m.send && m.tiles.contains t && decide (m.pair = some (e, num)))).map (fun m => (k, m)))

/-- A receiver holds a credit: 32 less the lines delivered to it that it has not written (R277). -/
def holdsCredit (s : State) (t : TileId) (e : StrmId) (num : Nat) (u : TileId) : Bool :=
  match recvOf s t e num u with
  | some m => decide (m.2.unread < 32)
  | none => false

/-- The line a SEND has ready to send. -/
def readyLine (s : State) (t : TileId) (e : StrmId) (m : McRun) : Option (Nat × List Byte) :=
  match m.todo, (strOf (tile s t) e).runs.find? (fun r => decide (r.num = m.num) && r.chan.isNone) with
  | l :: _, some r => (r.got.find? (fun g => g.1 = l)).map (fun g => (l, g.2))
  | _, _ => none

/-- A line reaches a receiver. -/
def deliverTo (t : TileId) (e : StrmId) (num l : Nat) (d : List Byte) (s : State) (u : TileId) : State :=
  match recvOf s t e num u with
  | none => s
  | some m =>
    let s := updMc u m.1 (fun x => if !x.send && x.num = m.2.num then { x with unread := x.unread + 1 } else x) s
    updRuns u m.1 (fun rs => rs.map (fun r =>
      if r.num = m.2.num && r.chan.isNone && r.awaits.contains l then { r.take l d with awaits := r.awaits.erase l } else r)) s

/-- A SEND sends lines as long as one is ready and every receiver in its group holds a credit, at most `n` (R275, R277). -/
def sendLines (t : TileId) (e : StrmId) (num : Nat) : Nat → State → State
  | 0, s => s
  | n + 1, s =>
    if beingKilled (tile s t) (strmEng e) then s else
    match (mcOf (tile s t) e).find? (fun m => m.send && m.num = num) with
    | none => s
    | some m =>
      if m.tiles.isEmpty || !m.tiles.all (holdsCredit s t e num) then s else
      match readyLine s t e m with
      | none => s
      | some (l, d) =>
        let s := updMc t e (fun x => if x.send && x.num = num then { x with todo := x.todo.drop 1, sent := x.sent + 1 } else x) s
        let s := fset64 (pgStrm t e) Fl.strmLinesLoLines Fl.strmLinesHiLines
          (fget64 s (pgStrm t e) Fl.strmLinesLoLines Fl.strmLinesHiLines + 1) s
        sendLines t e num n (m.tiles.foldl (deliverTo t e num l d) s)

/-- A receiver writes what it has been sent, and returns its credits (R277). -/
def recvWrites (regs : RegServe) (s : State) (u : TileId) : State :=
  bothStrm.foldl (fun s k =>
    if beingKilled (tile s u) (strmEng k) || (mcOf (tile s u) k).all (fun m => m.send || m.unread = 0) then s
    else updMc u k (fun m => if m.send then m else { m with unread := 0 }) (strmWork regs u k s)) s

/-- A SEND sends what it can, its receivers writing in between. -/
def pumpSend (regs : RegServe) (t : TileId) (e : StrmId) (s : State) (m : McRun) : State :=
  (upTo (m.todo.length / 32 + 1)).foldl (fun s _ => m.tiles.foldl (recvWrites regs) (sendLines t e m.num 32 s)) s

/-- Every SEND of an engine that has lines to send. -/
def pump (regs : RegServe) (t : TileId) (e : StrmId) (s : State) : State :=
  ((mcOf (tile s t) e).filter (fun m => m.send && !m.todo.isEmpty)).foldl (pumpSend regs t e) s

/-- The oldest SEND of tile `u` that tile `t`'s RECV with a tag pairs with (R276). -/
def findSend (s : State) (u t : TileId) (tag : Nat) : Option (StrmId × McRun) :=
  let x := tile s u
  let fits := fun (m : McRun) => m.send && m.tag = tag && (m.tiles ++ m.dropped).contains t && !m.paired.contains t
  (bothStrm.flatMap (fun k => ((mcOf x k).filter fits).map (fun m => (k, m)))).foldl (fun best p => match best with
    | none => some p
    | some b => if numDist x.nextNum b.2.num < numDist x.nextNum p.2.num then some p else best) none

/-- The lines a RECV still awaits are read by unicast, in order (R277, R279). -/
def goUnicast (u : TileId) (k : StrmId) (num : Nat) (s : State) : State :=
  updRuns u k (fun rs => rs.map (fun r => if r.num = num && r.chan.isNone then { r with reads := r.reads ++ r.awaits, awaits := [] } else r)) s

/-- A RECV that has not paired pairs with its SEND if that is there. Where the SEND has dropped the receiver, or has sent its
first line, the RECV reads every line by unicast, and its tile is in the group no more (R276, R277, R279). -/
def pairRecv (regs : RegServe) (t : TileId) (e : StrmId) (s : State) (r : McRun) : State :=
  if r.send || r.pair.isSome then s else
  match r.tiles.head? with
  | none => s
  | some u =>
    match findSend s u t r.tag with
    | none => s
    | some (k, m) =>
      let uni := m.dropped.contains t || decide (0 < m.sent)
      let s := updMc t e (fun x => if !x.send && x.num = r.num then { x with pair := some (k, m.num) } else x) s
      let s := updMc u k (fun x => if x.send && x.num = m.num then
          { x with
            paired := x.paired ++ [t]
            tiles := if uni then x.tiles.filter (fun v => v != t) else x.tiles
            dropped := if uni && !x.dropped.contains t then x.dropped ++ [t] else x.dropped } else x) s
      if uni then strmWork regs t e (goUnicast t e r.num s) else pump regs u k s

/-- Every RECV of a tile that has not paired tries to. -/
def pairAll (regs : RegServe) (s : State) (t : TileId) : State :=
  bothStrm.foldl (fun s e => (mcOf (tile s t) e).foldl (pairRecv regs t e) s) s

/-- What a SEND or RECV lets complete: a SEND once every receiver left in its group has acknowledged every line, a RECV once
it has paired (R278). -/
def mcDone (s : State) (t : TileId) (e : StrmId) (num : Nat) : Bool :=
  match (mcOf (tile s t) e).find? (fun m => m.num = num && !m.ended) with
  | none => true
  | some m =>
    if m.send then m.tiles.isEmpty || (m.todo.isEmpty && m.tiles.all (fun u => (recvOf s t e num u).all (fun r => r.2.unread = 0)))
    else m.pair.isSome

/-- The SEND of a tag drops a receiver whose lag exceeds STRM_MC_LAG_LIMIT: a line is ready, every other receiver in the group holds a
credit and this one holds none. `lag` is the number of cycles for which that has held (R277; log 38). -/
def doMcDrop (regs : RegServe) (t : TileId) (e : StrmId) (u : TileId) (tag lag : Nat) (s : State) : State :=
  match (mcOf (tile s t) e).find? (fun m => m.send && decide (m.tag = tag) && m.tiles.contains u && !m.todo.isEmpty) with
  | none => s
  | some m =>
    let others := m.tiles.filter (fun v => v != u)
    if decide (lag ≤ fget s (pgStrm t e) Fl.strmMcLagLimitCycles) || (readyLine s t e m).isNone
        || !others.all (holdsCredit s t e m.num) || holdsCredit s t e m.num u then s else
    let s := updMc t e (fun x => if x.send && x.num = m.num then { x with tiles := others, dropped := x.dropped ++ [u] } else x) s
    let s := fbump (pgStrm t e) Fl.strmMcDropCntCount 1 s
    let s := fsets (pgStrm t e) [(Fl.strmMcDropLastTile, u.val), (Fl.strmMcDropLastTag, m.tag), (Fl.strmMcDropLastLine, min m.sent 0xFFFF)] s
    let s := recordEvent 0x1007 (pgStrm t e) 0 0 0 (setIrq (pgStrm t e) 8 s)
    let s := match recvOf s t e m.num u with
      | some r => strmWork regs u r.1 (goUnicast u r.1 r.2.num s)
      | none => s
    pump regs t e s

/-! ## Dispatch (R176, R177, R223, R258, R270, R275, R276) -/

/-- A MOVE or REGROUP that is ready takes its steps, dispatches and begins (R256, R258). -/
def runMove (regs : RegServe) (t : TileId) (e : StrmId) (tn : Turn) (s : State) (r : Ready) : State :=
  let q := strmEng e
  let a := opd s t r.src false r.wr.buf (ofsBytes (cf r.e 3 0 16))
  let b := outOpd a (opd s t r.dst true r.ww.buf (ofsBytes (cf r.e 3 16 16)))
  let run := mkRun s t r.e.num none a b (moveMap s t a b (regOf r.src r.sd) tn (16 * cf r.e 3 0 16)) (burstLines r.sd)
  let k1 := takeStrm t r.src false (cf r.e 0 10 1 = 1) r.wr s
  let k2 := takeStrm t r.dst true false r.ww k1.1
  startRun regs t e run (dispatched t q r.e.num (noteMove s t (cf r.e 1 16 16) r.dst (k1.2 ++ k2.2)) (dropSteps t e r.e.num k2.1))

/-- A MOVE dispatches: a plain one begins to copy, a persistent one keeps its operands for its commit (R176, R270, R273). -/
def doMove (regs : RegServe) (t : TileId) (q : Engine) (s : State) : State :=
  match q with
  | .lane => withHead s t .lane 0x21 (fun _ _ => s)
  | .vec => doVecMove t s
  | .s0 | .s1 =>
    let e : StrmId := if q = .s1 then 1 else 0
    withMove s t e 0x21 (fun sd persist => persist || !sdIs sd (fun w => sdRole w != 0)) (fun _ => .move)
      (fun r =>
        if persistent s t e 0x21 r.e r.sd then
          setPhase t q r.e.num .complete (updEntry t q r.e.num (fun c => { c with arm := some (armReq s t e r.e (r.sd.getD [])) }) s)
        else runMove regs t e .move s r)

/-- A REGROUP dispatches (R223). -/
def doRegroup (regs : RegServe) (t : TileId) (e : StrmId) (s : State) : State :=
  let tn := fun (c : QEntry) => if cf c 0 11 1 = 1 then Turn.toSpace (cf c 0 12 3 + 1) else Turn.toDepth (cf c 0 12 3 + 1)
  withMove s t e 0x22 (fun _ _ => true) tn (fun r => runMove regs t e (tn r.e) s r)

/-- Checks 6 and 8 of R519 for a GATHER: every operand's ring, then every operand's ends (R241). -/
def gatherRoom (s : State) (c : QEntry) (ids tb o : Opd) : Option (Nat × Nat) :=
  let n := cf c 2 16 16 + 1
  let idEnds := (upTo n).map (fun i => idNib ids (cf c 3 0 16 + i) + 7)
  let rows := fun (i : Nat) => gatherRow [] tb o i 0
  let far := (upTo (dN tb.d)).flatMap (fun n => (upTo (dG tb.d)).flatMap (fun g => (upTo (dC tb.d)).map (fun c =>
    2 * tb.start + elemNib tb.d tb.ty n g c (dH tb.d - 1) (dW tb.d - 1) + etNib tb.ty - 1)))
  roomOf s [(ids, idEnds), (tb, if tb.ring.isSome then far else []), (o, writeEnds o.ty ((upTo n).flatMap rows))] false

/-- A GATHER dispatches: it reads its indices, then its table's rows (R177). -/
def doGather (regs : RegServe) (t : TileId) (e : StrmId) (s : State) : State :=
  let q := strmEng e
  if readsLeft (tile s t) e then s else
  withHead s t q 0x20 (fun c ds =>
    match ds with
    | [some ids, some tbl, some out] =>
      let tb := opd s t tbl false none 0
      match unlessPassed c (gatherRoom s c (opd s t ids false none 0) tb (outOpd tb (opd s t out true none 0))) with
      | some (cls, det) => rejectAny t q c cls det s
      | none =>
        if [ids, tbl].any (fun d => dLoc d = 3 && decide (effTile s d ≠ t) && dAdpCnt d != 0) then rejectCmd t q c 2 0x04 s else
        let wi := slotWait s t e c.num ids false
        let wt := slotWait s t e c.num tbl false
        let wo := slotWait s t e c.num out true
        match wi, wt, wo with
        | .waits ask, _, _ => waitsAt10 t q c 0 (if ask then askStep s t e c.num ids false (cf c 0 10 1 = 1) else s)
        | _, .waits ask, _ => waitsAt10 t q c 0 (if ask then askStep s t e c.num tbl false false else s)
        | _, _, .waits ask => waitsAt10 t q c 1 (if ask then askStep s t e c.num out true false else s)
        | _, _, _ =>
          let a := opd s t ids false wi.buf 0
          let tb := opd s t tbl false wt.buf 0
          let o := outOpd tb (opd s t out true wo.buf 0)
          let n := cf c 2 16 16 + 1
          let first := (lineRuns ((upTo n).flatMap (fun i => elLines 3 (idNib a (cf c 3 0 16 + i))))).eraseDups
          let run : StrmRun := {
            num := c.num
            chan := none
            src := tb
            dst := o
            outs := chanCfgs s t out
            idx := some ⟨a, cf c 3 0 16, n⟩
            reads := first
            invalid := a.invalid || tb.invalid }
          let k1 := takeStrm t ids false (cf c 0 10 1 = 1) wi s
          let k2 := takeStrm t tbl false false wt k1.1
          let k3 := takeStrm t out true false wo k2.1
          startRun regs t e run
            (dispatched t q c.num (noteMove s t (cf c 2 0 16) out (k1.2 ++ k2.2 ++ k3.2)) (dropSteps t e c.num k3.1))
    | _ => s)

/-- A SEND dispatches: it reads its source and sends its lines to its receivers as they take them (R275). -/
def doSend (regs : RegServe) (t : TileId) (e : StrmId) (s : State) : State :=
  withMove s t e 0x21 (fun sd persist => !persist && sdIs sd (fun w => sdRole w = 1)) (fun _ => .move)
    (fun r =>
      let w := r.sd.getD []
      let a := opd s t r.src false none (ofsBytes (cf r.e 3 0 16))
      let run0 := mkRun s t r.e.num none a a (moveMap s t a a (regOf r.src r.sd) .move (16 * cf r.e 3 0 16)) (burstLines r.sd)
      let tiles := (((mcReceivers w).map tileOf).map (redirTile s)).eraseDups
      let run : StrmRun := { run0 with lines := [], outs := [] }
      let mc : McRun := { num := r.e.num, send := true, tag := sdTag w, tiles := tiles, todo := run.reads }
      let s := startRun regs t e run (dispatched t (strmEng e) r.e.num id (setMc t e (mcOf (tile s t) e ++ [mc]) s))
      pump regs t e (tiles.foldl (pairAll regs) s))

/-- A RECV dispatches, takes its buffer and grants its credits; it pairs at once if its SEND is there (R276, R277). -/
def doRecv (regs : RegServe) (t : TileId) (e : StrmId) (s : State) : State :=
  withMove s t e 0x21 (fun sd persist => !persist && sdIs sd (fun w => sdRole w = 2)) (fun _ => .move)
    (fun r =>
      let w := r.sd.getD []
      let a := opd s t r.src false none (ofsBytes (cf r.e 3 0 16))
      let b := outOpd a (opd s t r.dst true r.ww.buf (ofsBytes (cf r.e 3 16 16)))
      let run0 := mkRun s t r.e.num none a b (moveMap s t a b (regOf r.src r.sd) .move (16 * cf r.e 3 0 16)) (burstLines r.sd)
      let run : StrmRun := { run0 with awaits := run0.reads, reads := [] }
      let mc : McRun := { num := r.e.num, send := false, tag := sdTag w, tiles := [redirTile s (tileOf (sdTile w))] }
      let k := takeStrm t r.dst true false r.ww s
      let s := dispatched t (strmEng e) r.e.num (noteMove s t (cf r.e 1 16 16) r.dst k.2) (dropSteps t e r.e.num k.1)
      pairAll regs (startRun regs t e run (setMc t e (mcOf (tile s t) e ++ [mc]) s)) t)

/-! ## Completion (R258, R278) -/

/-- Drop a run. -/
def dropRun (t : TileId) (e : StrmId) (num : Nat) (chan : Option Nat) (s : State) : State :=
  updRuns t e (fun l => l.filter (fun r => !(decide (r.num = num) && decide (r.chan = chan)))) s

/-- The engine's own multicast and waiting work goes on. -/
def strmGoOn (regs : RegServe) (t : TileId) (e : StrmId) (s : State) : State :=
  pump regs t e (strmWork regs t e (pairAll regs s t))

/-- The oldest running command of a stream engine completes once its last write is acknowledged (R258, R278). -/
def doStrmComplete (regs : RegServe) (t : TileId) (e : StrmId) (s : State) : State :=
  let q := strmEng e
  if beingKilled (tile s t) q then s else
  let s := strmGoOn regs t e s
  let x := tile s t
  if beingKilled x q then s else
  match (queueOf x q).find? (fun c => c.phase = .running && opcodeOf c != 0x32) with
  | none => s
  | some c =>
    if !mcDone s t e c.num then s else
    let ended := fun (s : State) => setPhase t q c.num .complete
      (updMc t e (fun m => if m.num = c.num then { m with ended := true } else m) (dropRun t e c.num none s))
    match (strOf x e).runs.find? (fun r => decide (r.num = c.num) && r.chan.isNone) with
    | none => ended s
    | some r => if r.done then ended (updEntry t q c.num (entryTakes r) s) else s

/-! ## Persistent channels (R269 to R274) -/

/-- What a channel that is armed and has a block due waits for: 5 an export buffer, 0 a source buffer, 1 a destination buffer
(R262, R271). -/
def chanWait (s : State) (src dst sdesc : List Word) : Option Nat :=
  if dLoc src = 3 && !slotReadable s (effTile s src) (dRing src) then some (if sdHalo sdesc then 5 else 0)
  else if dLoc dst = 3 && !slotWritable s (effTile s dst) (dRing dst) then some 1 else none

/-- The operands of the next block of a channel that is armed, has none in progress and is not idle. -/
def blockDue (s : State) (t : TileId) (e : StrmId) (k : Nat) : Option (StrmChan × ChanOps × List Word × List Word) :=
  let x := tile s t
  match (chansOf x e)[k]? with
  | none => none
  | some c =>
    if !c.armed || c.idle || c.busy || beingKilled x (strmEng e) || !pageOn s (pgStrm t e) then none else
    match c.ops with
    | none => none
    | some o => match descOf x o.src, descOf x o.dst with
      | some src, some dst => some (c, o, src, dst)
      | _, _ => none

/-- The next block of a channel starts if its buffers allow: it takes its steps and begins to move its region (R271). -/
def startBlock (regs : RegServe) (t : TileId) (e : StrmId) (s : State) (k : Nat) : State :=
  match blockDue s t e k with
  | none => s
  | some (c, o, src, dst) =>
    if (chanWait s src dst o.sdesc).isSome then s else
    let a := opd s t src false none (ofsBytes (o.ofs.toNat % 0x10000) + (c.block : Int) * sdSrcStep o.sdesc * 16)
    let b := outOpd a (opd s t dst true none (ofsBytes (o.ofs.toNat / 0x10000) + (c.block : Int) * sdDstStep o.sdesc * 16))
    let run := mkRun s t c.d (some k) a b (moveMap s t a b (regOf src (some o.sdesc)) .move (16 * (o.ofs.toNat % 0x10000)))
      (burstLines (some o.sdesc))
    let k1 := if dLoc src = 3 then let r := takeRead (effTile s src) (dRing src) o.consume s; (r.1, [r.2]) else (s, [])
    let k2 := if dLoc dst = 3 then let r := takeWrite (effTile s dst) (dRing dst) k1.1; (r.1, [r.2]) else (k1.1, [])
    startRun regs t e run (setChan t e k { c with busy := true, steps := k1.2 ++ k2.2 } k2.1)

/-- A committed arming MOVE arms a channel slot (R270). -/
def doChannelArm (regs : RegServe) (t : TileId) (e : StrmId) (s : State) : State :=
  match armQ (tile s t) e with
  | r :: rest =>
    if r.rearm then s else
    let s := setArmQ t e rest s
    match (upTo 4).find? (fun k => match (chansOf (tile s t) e)[k]? with
      | some c => !c.armed
      | none => false) with
    | none => s
    | some k => startBlock regs t e (setChan t e k { armed := true, d := r.d, ops := some r.ops } s) k
  | [] => s

/-- A committed REARM writes the channel's shadow, applied at once while the channel is idle (R273). -/
def doRearm (regs : RegServe) (t : TileId) (e : StrmId) (s : State) : State :=
  match armQ (tile s t) e with
  | r :: rest =>
    if !r.rearm then s else
    let s := setArmQ t e rest s
    match armedOn (tile s t) e r.d with
    | none => s
    | some k =>
      match (chansOf (tile s t) e)[k]? with
      | none => s
      | some c =>
        let ops := { r.ops with sdesc := (c.ops.map ChanOps.sdesc).getD r.ops.sdesc }
        if c.idle then startBlock regs t e (setChan t e k { c with idle := false, block := 0, ops := some ops } s) k
        else
          let s := if c.shadow.isSome then setIrq (pgStrm t e) 9 (fset (pgStrm t e) (Fl.strmChStatRearmOverrun k) 1 s) else s
          setChan t e k { c with shadow := some ops } s
  | [] => s

/-- A channel's block commits: its steps take effect; after the last block the shadow applies or the channel is idle (R271,
R273, R274). -/
def blockCommits (t : TileId) (e : StrmId) (k : Nat) (c : StrmChan) (s : State) : State :=
  let last := match c.ops with
    | some o => decide (sdBlocks o.sdesc ≤ c.block + 1)
    | none => true
  let c' : StrmChan := { c with busy := false, steps := [] }
  let c'' : StrmChan := if last then
      (match c.shadow with
        | some o => { c' with ops := some o, shadow := none, block := 0 }
        | none => { c' with idle := true, block := c.block + 1 })
    else { c' with block := c.block + 1 }
  let s := setChan t e k c'' s
  let s := releaseHeld (c.steps.foldl (fun s p => commitStep p s) s)
  let s := c.steps.foldl (fun s p => if p.wide && p.kind = 0 && decide (p.tile ≠ t) then fset (pgSeq p.tile) Fl.seqStatusWideIl 1 s else s) s
  if last && c.shadow.isNone then setIrq (pgStrm t e) 10 s else s

/-- A channel's block completes and commits once its last write is acknowledged; the next block starts when it can (R271,
R274). -/
def doBlockDone (regs : RegServe) (t : TileId) (e : StrmId) (k : Fin 4) (s : State) : State :=
  if beingKilled (tile s t) (strmEng e) then s else
  let s := strmWork regs t e s
  if beingKilled (tile s t) (strmEng e) then s else
  match (chansOf (tile s t) e)[k.val]? with
  | none => s
  | some c =>
    if !c.busy then startBlock regs t e s k.val else
    match (strOf (tile s t) e).runs.find? (fun r => decide (r.chan = some k.val)) with
    | none => startBlock regs t e (blockCommits t e k.val c s) k.val
    | some r =>
      if !r.done then s else
      startBlock regs t e
        (blockCommits t e k.val { c with steps := tagSteps r.dst.wide r.invalid c.steps } (dropRun t e r.num r.chan s)) k.val

/-! ## Responses (R185, R263) -/

/-- A response without an error reaches a stream engine: its wait is charged, and the run it belongs to goes on (R258,
R263). -/
def strmResponse (regs : RegServe) (t : TileId) (e : StrmId) (o : Outstanding) (s : State) : State :=
  let s := if o.waited = 0 then s else fbump (pgSpad t) (Fl.spadStallCycles o.cause) o.waited s
  let f := fun (r : StrmRun) =>
    if o.req.write then { r with acks := r.acks.erase o.id }
    else match r.asked.find? (fun a => a.1 = o.id) with
      | some a => { r.take a.2 o.data with asked := r.asked.erase a }
      | none => r
  strmGoOn regs t e (updRuns t e (fun l => l.map f) s)

/-! ## What goes on by itself (R261 to R263, R271) -/

/-- A SEND waits for credits, or a RECV for multicast data (R262). -/
def mcWaits (s : State) (t : TileId) (e : StrmId) : Bool :=
  (mcOf (tile s t) e).any (fun m => m.send && (readyLine s t e m).isSome && !m.tiles.isEmpty)
    || (strOf (tile s t) e).runs.any (fun r => !r.awaits.isEmpty)

/-- The oldest outstanding request of a stream engine takes a cycle of waiting on it (R263). -/
def waitOldest (t : TileId) (q : Engine) (s : State) : State :=
  match s.outstanding.find? (fun o => decide (o.who = .tile t q)) with
  | some o => { s with outstanding := s.outstanding.map (fun x => if x.id = o.id then { x with waited := x.waited + 1 } else x) }
  | none => s

/-- A stream engine that holds work and does none of it stalls for a cycle, charged to the first cause that holds (R261 to
R263). -/
def chargeWait (t : TileId) (e : StrmId) (s : State) : State :=
  let waits := (upTo 4).filterMap (fun k => (blockDue s t e k).bind (fun b => chanWait s b.2.2.1 b.2.2.2 b.2.1.sdesc))
  if waits.contains 5 then stall t 5 s
  else if mcWaits s t e then stall t 6 s
  else if waits.contains 0 then stall t 0 s
  else if waits.contains 1 then stall t 1 s
  else if (strOf (tile s t) e).runs.isEmpty then s else waitOldest t (strmEng e) s

/-- One stream engine goes on for a cycle; `tick` when an ARITH cycle begins in it. -/
def strmCycle (regs : RegServe) (tick : Bool) (s : State) (p : TileId × StrmId) : State :=
  let was := tile s p.1
  if (strOf was p.2).runs.isEmpty && (mcOf was p.2).isEmpty && (chansOf was p.2).all (fun c => !c.armed) then s else
  let s := strmGoOn regs p.1 p.2 ((upTo 4).foldl (startBlock regs p.1 p.2) s)
  if tick && decide (strOf (tile s p.1) p.2 = strOf was p.2) then chargeWait p.1 p.2 s else s

/-- Every stream engine goes on. -/
def strmCycles (regs : RegServe) (tick : Bool) (s : State) : State :=
  (s.tiles.flatMap (fun p => bothStrm.map (fun e => (p.1, e)))).foldl (strmCycle regs tick) s

end Sys2Proof.Machine
end

