-- ==== Sys2Proof/Machine/Txn.lean ====
section
/-! DEFINITION. Commit groups: opening, staging, committing and aborting, and what a commit does beyond storing the
values (02, R53 to R66; 05, R161, R162; 09, R296; 11, R376). -/

namespace Sys2Proof.Machine

/-! ## Access masks -/

/-- The TX bits of a register or window word (R55, R124). -/
def txMask (pg : PageKey) (off : Nat) : Word :=
  if isWindow off then
    (if pg.kind = .scale ∧ off % 8 = 4 then 0xFFFFFF3F else 0xFFFFFFFF)
  else match regSpec pg.kind off with
    | some (r, _) => BitVec.ofNat 32 r.tx
    | none => 0

/-- The SH bits of a register (R65). -/
def shMask (pg : PageKey) (off : Nat) : Word := match regSpec pg.kind off with
  | some (r, _) => BitVec.ofNat 32 r.sh
  | none => 0

/-- The RW bits of a register (R9). -/
def rwMask (pg : PageKey) (off : Nat) : Word := match regSpec pg.kind off with
  | some (r, _) => BitVec.ofNat 32 r.rw
  | none => 0

/-- Store the bits of `mask` of a register. -/
def wrMasked (pg : PageKey) (off : Nat) (v mask : Word) (s : State) : State :=
  wr pg off ((rd s pg off &&& ~~~ mask) ||| (v &&& mask)) s

/-! ## Groups (R54) -/

/-- The open group a page belongs to. -/
def groupOf (s : State) (pg : PageKey) : Option Group := s.groups.find? (fun g => g.members.contains pg)

/-- The open group of a partition with a GID. -/
def groupAt (s : State) (p : PartId) (gid : Fin 16) : Option Group := s.groups.find? (fun g => decide (g.part = p ∧ g.gid = gid))

/-- The staged registers of a page. -/
def stagedOf (s : State) (pg : PageKey) : List Staged := s.staged.filter (fun x => decide (x.pg = pg))

def showStaged (pg : PageKey) (s : State) : State := fset pg Fl.txnStaged (stagedOf s pg).length s

/-- A member page after an abort (R63). `rec` records MEMBER_LOST. -/
def abortPage (lost : Bool) (s : State) (pg : PageKey) : State :=
  let s := setIrq pg 3 (fsets pg [(Fl.txnGstate, 3), (Fl.txnStaged, 0)] s)
  if lost then recordFault pg 6 6 s else s

/-- Abort a group: every member discards its staged values (R63). -/
def abortGroup (g : Group) (lost : Bool) (s : State) : State :=
  let s := { s with
    groups := s.groups.filter (fun h => !(decide (h.part = g.part) && decide (h.gid = g.gid)))
    staged := s.staged.filter (fun x => !g.members.contains x.pg) }
  g.members.foldl (abortPage lost) s

/-- Abort the group of a page because the page is lost to it (R47, R51, R63). -/
def abortOf (pg : PageKey) (s : State) : State :=
  match groupOf s pg with
  | some g => abortGroup g true s
  | none => s

/-- The camera port of a camera page. -/
def portOfPage (pg : PageKey) : Option Port := if isCamPage pg.kind then some (portOf pg.inst) else none

/-- The shadow group of a camera page aborts: what its port has staged is discarded, and its member pages, which are the
port's three at all times, show the abort (R63, R65). -/
def abortShadow (pg : PageKey) (det : Nat) (s : State) : State :=
  match portOfPage pg with
  | none => s
  | some n => (camPages n).foldl (fun s p => recordFault p 6 det (setIrq p 3 s))
      { s with shadow := s.shadow.filter (fun x => !(camPages n).contains x.pg) }

/-! ## OWNER (R47, R376) -/

/-- OWNER.PART of a page becomes `p`; a change aborts the page's commit group and its shadow group (R47, R63, R65). -/
def setOwnerPart (p : Nat) (s : State) (pg : PageKey) : State :=
  if fget s pg Fl.ownerPart = p % 4 then s
  else abortShadow pg 6 (abortOf pg (fset pg Fl.ownerPart p s))

/-- OWNER.PART of several pages of one tile or camera port becomes `p` in the cycle of a commit: a shadow group aborts once
(R63, R376). DESIGN CHOICE (log 94): LOCK.OWN, which keeps OWNER against writes, does not hold it against this. -/
def setOwners (p : Nat) (pages : List PageKey) (s : State) : State :=
  let changed := pages.filter (fun pg => fget s pg Fl.ownerPart != p % 4)
  let s := changed.foldl (fun s pg => abortOf pg (fset pg Fl.ownerPart p s)) s
  match changed with
  | [] => s
  | pg :: _ => abortShadow pg 6 s

/-! ## What a commit does on PART pages (R376) -/

/-- The partition is valid. -/
def partValid (s : State) (p : PartId) : Bool := fon s (pgPart p) Fl.partCfgValid
def hasTile (s : State) (p : PartId) (t : TileId) : Bool := fbit s (pgPart p) (Fl.partTilesMask (t.val / 32)) (t.val % 32)
def hasCam (s : State) (p : PartId) (n : Port) : Bool := fbit s (pgPart p) Fl.partCamsMask n.val

/-- An enabled DDR range as its first and last 64 KiB block, with RO. -/
def ddrRanges (s : State) (p : PartId) : List (Nat × Nat × Bool) :=
  ((upTo 4).filter (fun k => fon s (pgPart p) (Fl.partDdrLimitEn k))).map
    (fun k => (fget s (pgPart p) (Fl.partDdrBaseBase k), fget s (pgPart p) (Fl.partDdrLimitLimit k), fon s (pgPart p) (Fl.partDdrLimitRo k)))

/-- Two block ranges overlap. -/
def rangesMeet (a b : Nat × Nat × Bool) : Bool := decide (a.1 ≤ b.2.1 ∧ b.1 ≤ a.2.1 ∧ a.1 ≤ a.2.1 ∧ b.1 ≤ b.2.1)

/-- The candidate values of partition `p` overlap another valid partition (R376, R402). -/
def cfgOverlap (c : State) (p : PartId) : Bool :=
  (allParts.filter (fun q => q != p && partValid c q)).any (fun q =>
    allTiles.any (fun t => hasTile c p t && hasTile c q t)
    || allPorts.any (fun n => hasCam c p n && hasCam c q n)
    || (ddrRanges c p).any (fun a => (ddrRanges c q).any (fun b => rangesMeet a b && !a.2.2 && !b.2.2))
    || (fon c (pgPart p) Fl.partCfgSafety && fon c (pgPart q) Fl.partCfgSafety))

/-- The jobs of a partition that hold tiles. -/
def placedJobs (s : State) (p : PartId) : List JobRun :=
  s.jobs.filter (fun j => decide (j.part = p) && j.stage != .queued && j.stage != .released)

/-- The camera port of a job's source ring (R382). -/
def jobPort (j : JobRun) : Option Nat :=
  let w := (j.words.getD 0 0).toNat
  let a := bitsOf (j.words.getD 1 0).toNat 0 8
  if bitsOf w 19 2 != 1 then none
  else if a < 12 then some a
  else if within 0x10 0x3F a then some ((a - 0x10) / 4) else none

/-- Every block of range `a` lies in some range of the list (ranges as first and last block). -/
def rangeKept (a : Nat × Nat × Bool) (l : List (Nat × Nat × Bool)) : Bool :=
  let cuts := l.map (fun b => b.2.1 + 1)
  (a.1 :: cuts).all (fun x => decide (x < a.1) || decide (a.2.1 < x) || l.any (fun b => within b.1 b.2.1 x))

/-- The candidate values would remove what a job of the partition holds (R376; log 30). -/
def cfgBusy (s c : State) (p : PartId) : Bool :=
  let js := placedJobs s p
  let keeps := partValid c p
  js.any (fun j => j.tiles.any (fun t => !keeps || !hasTile c p t)
    || (match jobPort j with
      | some n => !keeps || !hasCam c p (portOf n)
      | none => false))
  || (!js.isEmpty && (ddrRanges s p).any (fun a => !keeps || !rangeKept a (ddrRanges c p)))

/-- PART page `p` applies its staged values, or they are discarded with CFG_OVERLAP or CFG_BUSY (R376). -/
def applyPart (p : PartId) (l : List Staged) (s : State) : State :=
  let c := l.foldl (fun s x => wrMasked x.pg x.off x.val x.mask s) s
  if cfgOverlap c p then recordFault (pgPart p) 5 8 s
  else if cfgBusy s c p then recordFault (pgPart p) 5 9 s
  else
    let had := fun t => partValid s p && hasTile s p t
    let has := fun t => partValid c p && hasTile c p t
    let hadC := fun n => partValid s p && hasCam s p n
    let hasC := fun n => partValid c p && hasCam c p n
    let r := allTiles.foldl (fun s t =>
      if has t && !had t then setOwners p.val (tilePages t) s
      else if had t && !has t then setOwners 0 (tilePages t) s else s) c
    let r := allPorts.foldl (fun s n =>
      if hasC n && !hadC n then setOwners p.val (camPages n) s
      else if hadC n && !hasC n then setOwners 0 (camPages n) s else s) r
    let r := if partValid c p && (Tab.get none r.partCnt p).isNone then { r with partCnt := Tab.put r.partCnt p (some 0) } else r
    setIrq (pgPart p) 12 r

/-! ## What a commit does on TILE pages: slot configuration (R161, R162) -/

/-- The ring whose configuration a TILE-page offset belongs to. -/
def ringAt (off : Nat) : Option Nat := if within 0x200 0x3FF off && decide (off % 16 < 8) then some ((off - 0x200) / 16) else none

/-- A ring's staged configuration applies (R161, R162). -/
def applyRing (t : TileId) (r : Nat) (l : List Staged) (s : State) : State :=
  let busy := (upTo 16).any (fun b => bufState s t r b = 1 || bufState s t r b = 3)
  if fon s (pgTile t) (Fl.tileSlotCfgValid r) && busy then commandFault t (pgTile t) 0 2 6 [] s
  else
    let s := l.foldl (fun s x => wrMasked x.pg x.off x.val x.mask s) s
    let s := fsets (pgTile t) [(Fl.tileSlotStateBufs r, 0), (Fl.tileSlotSizeWrIdx r, 0), (Fl.tileSlotSizeRdIdx r, 0)] s
    let s := (upTo 16).foldl (fun s b => setTags t r b false false s) s
    if !fon s (pgTile t) (Fl.tileSlotCfgValid r) then s
    else if ringLines s t r = 0 then fset (pgTile t) (Fl.tileSlotCfgValid r) 0 s
    else if 0x100000 < bufOff s t r (ringBufs s t r) then
      commandFault t (pgTile t) 0 1 1 [] (fset (pgTile t) (Fl.tileSlotCfgValid r) 0 s)
    else s

/-- A TILE page applies its staged values: bank owners as they are, rings by R162. -/
def applyTile (t : TileId) (l : List Staged) (s : State) : State :=
  let s := (l.filter (fun x => (ringAt x.off).isNone)).foldl (fun s x => wrMasked x.pg x.off x.val x.mask s) s
  (upTo 32).foldl (fun s r =>
    let m := l.filter (fun x => decide (ringAt x.off = some r))
    if m.isEmpty then s else applyRing t r m s) s

/-! ## What a commit does on HUB_LLC pages (R296) -/

/-- Ways whose mode or owner a commit changes enter transition; a CACHE way's write-backs are of the owner it leaves (R296). -/
def applyLlc (h : HubId) (l : List Staged) (s : State) : State :=
  let c := l.foldl (fun s x => wrMasked x.pg x.off x.val x.mask s) s
  let moved := (upTo 16).filter (fun w => wayMode c h w != wayMode s h w || wayOwner c h w != wayOwner s h w)
  let wbs := (hubSt s h).lines.filter (fun l => moved.contains l.way && l.dirty)
  moved.foldl (fun a w => leaveWay h w (fsetBit (pgLlc h) Fl.hubLlcWaystatBusy w true a))
    (wbs.foldl (fun a l => queueWb h (writeBack s h l (some l.way)) a) c)

/-! ## What a commit does on SCALE pages (R61, R141) -/

/-- Replaced adaptations are logged OVERRIDDEN (R141, R144). -/
def applyScale (t : TileId) (jobEnd : Bool) (l : List Staged) (s : State) : State :=
  let x := tile s t
  let s := l.foldl (fun s y => wrMasked y.pg y.off y.val y.mask s) s
  if !jobEnd then s else
  let overridden := x.adapted.filter (fun a => l.any (fun y => decide (y.off = 0x10000 + 8 * a.1 + 4) && signed 4 y.val.toNat != a.2))
  let cnt := (x.frameOf.map Prod.snd).getD 0
  let recs := overridden.map (fun a =>
    let new := (l.find? (fun y => decide (y.off = 0x10000 + 8 * a.1 + 4))).map (fun y => y.val.toNat % 16)
    (⟨.adapt, t, (match x.job with | some j => j.part | none => tilePart s t), (match x.job with | some j => j.jobId | none => 0),
      x.job.bind TileJob.jid, jobSafe s t, [a.1, unsignedOf 4 a.2, new.getD 0, 3, 0, cnt]⟩ : Evidence))
  let s := { updTile t (fun x => { x with adapted := [] }) s with evidenceIn := s.evidenceIn ++ recs }
  if overridden.isEmpty then s else setIrq (pgScale t) 10 s

/-- A page applies staged values, all in one cycle (R59); a lock set meanwhile keeps the TX fields, and never the SH fields of
a shadow group (R46, R65; log 31). -/
def applyPage (pg : PageKey) (jobEnd shadow : Bool) (l : List Staged) (s : State) : State :=
  if l.isEmpty then s
  else if fon s pg Fl.lockCfg && !shadow then recordFault pg 6 9 s
  else match pg.kind with
    | .part => applyPart (partOf pg.inst) l s
    | .tile => applyTile (tileOf pg.inst) l s
    | .hubLlc => applyLlc (if pg.inst = 0 then 0 else 1) l s
    | .scale => applyScale (tileOf pg.inst) jobEnd l s
    | _ => l.foldl (fun s x => wrMasked x.pg x.off x.val x.mask s) s

/-- Pages in the order a commit takes them: PART pages in partition order first (R376). -/
def inOrder (l : List PageKey) : List PageKey :=
  (upTo 4).flatMap (fun p => l.filter (fun pg => decide (pg = ⟨.part, p⟩))) ++ l.filter (fun pg => pg.kind != .part)

/-! ## Commit (R58 to R62) -/

/-- Member pages show that they have applied (R59, R60). -/
def showApplied (reopen isPartial applied : Bool) (s : State) (pg : PageKey) : State :=
  let s := if applied then fwrap pg Fl.txnRound 1 s else s
  let s := fset pg Fl.txnGstate (if isPartial then 4 else if reopen then 1 else 2) s
  showStaged pg s

/-- Some pages of a commit apply their values. -/
def applyPages (r : CommitRun) (pages : List PageKey) (vals : List Staged) (s : State) : State :=
  let s := if r.shadow then s else pages.foldl (showApplied r.reopen r.isPartial true) s
  (inOrder pages).foldl (fun s pg => applyPage pg r.jobEnd r.shadow (vals.filter (fun x => decide (x.pg = pg))) s) s

/-- A commit all of whose pages have applied sets TXN_DONE on each (R59). -/
def finishCommit (r : CommitRun) (s : State) : State :=
  if !r.waiting.isEmpty then { s with commits := s.commits ++ [r] }
  else if r.shadow || r.isPartial then s
  else r.members.foldl (fun s pg => setIrq pg 2 s) s

/-- Dies a commit's message goes to. -/
def allDies : List Die := [.cd, .ha, .hb, .xd]

/-- The die can be reached from another (R26). -/
def reachable (s : State) (a b : Die) : Bool := match routeOf s a b with
  | .noRoute => false
  | _ => true

/-- A group commits: its event was recognised on die `d` (R58 to R60). -/
def commitGroup (g : Group) (d : Die) (s : State) : State :=
  let mine := s.staged.filter (fun x => g.members.contains x.pg)
  let far := g.members.filter (fun pg => !reachable s d (dieOfPage pg))
  let near := g.members.filter (fun pg => reachable s d (dieOfPage pg))
  let part := !far.isEmpty
  let s := { s with
    staged := s.staged.filter (fun x => !g.members.contains x.pg)
    groups := if g.reopen && !part then s.groups else s.groups.filter (fun h => !(decide (h.part = g.part) && decide (h.gid = g.gid))) }
  let waiting := (allDies.filter (fun e => e != d && near.any (fun pg => decide (dieOfPage pg = e)))).map
    (fun e => (e, near.filter (fun pg => decide (dieOfPage pg = e)), mine.filter (fun x => near.contains x.pg && decide (dieOfPage x.pg = e))))
  let r : CommitRun := ⟨g.members, waiting, g.reopen, part, decide (g.event = 2), false⟩
  let here := near.filter (fun pg => decide (dieOfPage pg = d))
  let s := applyPages r here (mine.filter (fun x => here.contains x.pg)) s
  let s := if part then
      let s := far.foldl (showApplied false true false) s
      near.foldl (fun s pg => recordFault pg 6 7 s) s
    else s
  finishCommit r s

/-- Commit every open group of a partition bound to an event (R58). -/
def commitEvent (p : PartId) (event arg : Nat) (d : Die) (s : State) : State :=
  (s.groups.filter (fun g => decide (g.part = p ∧ g.event = event ∧ g.arg = arg))).foldl (fun s g => commitGroup g d s) s

/-- FRAME_END of a camera port: the groups of any partition bound to it, and the port's shadow group, whose pages all
lie on XD (R58, R65). DESIGN CHOICE (log 95): the commit of the shadow group, which TXN_STAT does not show, sets no TXN_DONE. -/
def commitFrameEnd (n : Port) (s : State) : State :=
  let s := (s.groups.filter (fun g => decide (g.event = 1 ∧ g.arg = n.val))).foldl (fun s g => commitGroup g .xd s) s
  let vals := s.shadow.filter (fun x => (camPages n).contains x.pg)
  let s := { s with shadow := s.shadow.filter (fun x => !(camPages n).contains x.pg) }
  applyPages ⟨camPages n, [], true, false, false, true⟩ (camPages n) vals s

/-- The commit message of the oldest commit that waits for die `d` arrives: its pages there apply together; a SCALE page
whose tile runs its frame step waits for it (R59, R141). -/
def doApplyRemote (d : Die) (s : State) : State :=
  let holds := fun (r : CommitRun) (pg : PageKey) => r.jobEnd && pg.kind = .scale && (tile s (tileOf pg.inst)).frameStep
  let ripe := fun (r : CommitRun) => r.waiting.any (fun w => decide (w.1 = d) && w.2.1.any (fun pg => !holds r pg))
  match s.commits.find? ripe with
  | none => s
  | some r =>
    let now := r.waiting.filter (fun w => decide (w.1 = d))
    let pages := (now.flatMap (fun w => w.2.1)).filter (fun pg => !holds r pg)
    let vals := (now.flatMap (fun w => w.2.2)).filter (fun x => pages.contains x.pg)
    let left := (r.waiting.map (fun w => if w.1 = d
      then (w.1, w.2.1.filter (fun pg => !pages.contains pg), w.2.2.filter (fun x => !pages.contains x.pg)) else w)).filter
        (fun w => !w.2.1.isEmpty)
    let r' := { r with waiting := left }
    let s := { s with commits := s.commits.erase r }
    finishCommit r' (applyPages r' pages vals s)

/-! ## Staging (R55, R56, R65) -/

/-- Stage a value; a register already staged takes the new one (R55). -/
def stageIn (l : List Staged) (x : Staged) : List Staged :=
  if l.any (fun y => decide (y.pg = x.pg ∧ y.off = x.off)) then
    l.map (fun y => if y.pg = x.pg ∧ y.off = x.off then x else y)
  else l ++ [x]

/-- A write to the TX bits of a register or window word: staged in the page's open group, or committed at once (R9,
R55, R56). -/
def stageTx (pg : PageKey) (off : Nat) (v : Word) (s : State) : State :=
  let m := txMask pg off
  match groupOf s pg with
  | none => applyPage pg false false [⟨pg, off, v, m⟩] s
  | some g =>
    let new := !(s.staged.any (fun y => decide (y.pg = pg ∧ y.off = off)))
    let limit := fun det => g.members.foldl (fun s p => recordFault p 6 det s) (abortGroup g false s)
    if new && decide (64 ≤ (stagedOf s pg).length) then limit 1
    else if new && decide (256 ≤ (s.staged.filter (fun x => g.members.contains x.pg)).length) then limit 2
    else showStaged pg { s with staged := stageIn s.staged ⟨pg, off, v, m⟩ }

/-- A write to the SH bits of a camera page's register is staged in its port's shadow group; one past the limits of R56
discards what is staged for the frame (R65). -/
def stageSh (pg : PageKey) (off : Nat) (v : Word) (s : State) : State :=
  match portOfPage pg with
  | none => s
  | some n =>
    let mine := s.shadow.filter (fun x => (camPages n).contains x.pg)
    let new := !(mine.any (fun y => decide (y.pg = pg ∧ y.off = off)))
    let page := (mine.filter (fun x => decide (x.pg = pg))).length
    if new && decide (64 ≤ page) then abortShadow pg 1 s
    else if new && decide (256 ≤ mine.length) then abortShadow pg 2 s
    else { s with shadow := stageIn s.shadow ⟨pg, off, v, shMask pg off⟩ }

/-! ## TXN_CTRL (R54, R58, R63) -/

/-- EVENT and ARG of an OPEN are in range for a partition (R54). -/
def eventOk (s : State) (p : PartId) (event arg : Nat) : Bool :=
  match event with
  | 0 | 2 => arg = 0
  | 1 => decide (arg < 12) && partValid s p && hasCam s p (portOf arg)
  | 3 => true
  | _ => false

/-- OP = OPEN by partition `p` (R54). -/
def txnOpenBy (p : PartId) (pg : PageKey) (v : Word) (s : State) : State :=
  let gid : Fin 16 := ⟨bitsOf v.toNat 4 4, Nat.mod_lt _ (by decide)⟩
  let event := bitsOf v.toNat 8 3
  let arg := bitsOf v.toNat 12 4
  let reopen := v.toNat.testBit 16
  let same := fun (g : Group) => decide (g.event = event ∧ g.arg = arg ∧ g.reopen = reopen)
  let enter := fun (s : State) => fsets pg [(Fl.txnGstate, 1), (Fl.txnGid, gid.val), (Fl.txnEvent, event), (Fl.txnArg, arg),
    (Fl.txnReopen, b2n reopen), (Fl.txnStaged, 0), (Fl.txnRound, 0)] s
  match groupOf s pg with
  | some g =>
    if g.part = p ∧ g.gid = gid then (if same g then s else recordFault pg 6 4 s) else recordFault pg 6 3 s
  | none =>
    match groupAt s p gid with
    | some g =>
      if !same g then recordFault pg 6 4 s
      else if !eventOk s p event arg then recordFault pg 6 5 s
      else enter { s with groups := s.groups.map (fun h => if h.part = p ∧ h.gid = gid then { h with members := h.members ++ [pg] } else h) }
    | none =>
      if !eventOk s p event arg then recordFault pg 6 5 s
      else enter { s with groups := s.groups ++ [⟨p, gid, event, arg, reopen, [pg]⟩] }

/-- OP = COMMIT (R58). -/
def txnCommitCore (pg : PageKey) (s : State) : State :=
  match groupOf s pg with
  | some g => if g.event = 0 then commitGroup g (dieOfPage pg) s else recordFault pg 6 0x0C s
  | none => recordFault pg 6 0x0C s

/-- OP = ABORT (R63). -/
def txnAbortCore (pg : PageKey) (s : State) : State :=
  match groupOf s pg with
  | some g => abortGroup g false s
  | none => recordFault pg 6 0x0C s

/-! ## The meanings -/

/-- SH_WRITE (R65). -/
def execShWrite (who : Requester) (pg : PageKey) (off : Nat) (v : Word) (s : State) : Host.Outcome State Fault Refusal :=
  ok (guarded who pg off (stageSh pg off v) s)
/-- COMMIT_APPLY_REMOTE (R59). -/
def execCommitApplyRemote (d : Die) (s : State) : Host.Outcome State Fault Refusal := ok (doApplyRemote d s)

end Sys2Proof.Machine
end

