-- ==== Sys2Proof/Machine/Commit.lean ====
section
/-! DEFINITION. Ordering commands, commit points and kills (05, R178 to R188; 03, R83, R89; 04, R128, R133 to R139; 08,
R264 to R268, R274, R279; 12, R409 to R413). -/

namespace Sys2Proof.Machine

/-! ## Barriers (R264 to R267) -/

/-- The count of a barrier that the partition's tiles see (R266). -/
def barSeen (s : State) (p : PartId) (b : Nat) : Nat :=
  match s.barrierSeen.find? (fun e => decide (e.1 = (p, b))) with
  | some e => e.2
  | none => Tab.get 0 s.barriers (p, b)

/-- A threshold is met (R265). -/
def barMet (s : State) (p : PartId) (b thresh : Nat) : Bool := decide ((barSeen s p b + 2 ^ 16 - thresh % 2 ^ 16) % 2 ^ 16 < 2 ^ 15)

/-- A SIGNAL commits: its count is added modulo 2^16, and the change is on its way to the tiles (R264, R266). -/
def addBarrier (p : PartId) (b n : Nat) (s : State) : State :=
  let old := Tab.get 0 s.barriers (p, b)
  { s with
    barrierSeen := if s.barrierSeen.any (fun e => decide (e.1 = (p, b))) then s.barrierSeen else ((p, b), old) :: s.barrierSeen
    barriers := Tab.put s.barriers (p, b) ((old + n) % 2 ^ 16) }

/-- Set a barrier's count for every tile at once: a job start, a save or a restore (R267). -/
def setBarrier (p : PartId) (b n : Nat) (s : State) : State :=
  { s with barrierSeen := s.barrierSeen.filter (fun e => !decide (e.1 = (p, b))), barriers := Tab.put s.barriers (p, b) (n % 2 ^ 16) }

/-- The change of a barrier's count has reached every tile of its partition (R266). -/
def doBarrierUpdate (p : PartId) (b : Fin 64) (s : State) : State :=
  { s with barrierSeen := s.barrierSeen.filter (fun e => !decide (e.1 = (p, b.val))) }

/-! ## SIGNAL, WAIT, COMMIT, MARK at their queue's head (R178, R179) -/

/-- A SIGNAL or MARK dispatches and is complete; its effect waits for its commit. -/
def doNote (op : Nat) (t : TileId) (q : Engine) (s : State) : State :=
  withHead s t q op (fun e _ => setPhase t q e.num .complete s)

/-- A WAIT is complete once its barrier has reached its threshold; until then it blocks its queue (R178, R265). -/
def doWait (t : TileId) (q : Engine) (s : State) : State :=
  withHead s t q 0x31 (fun e _ =>
    if barMet s (tilePart s t) (cf e 0 16 6) (cf e 1 0 16) then setPhase t q e.num .complete s else stall t 7 s)

/-- A COMMIT reaches the head of its queue (R179). -/
def doCommit (t : TileId) (q : Engine) (s : State) : State := withHead s t q 0x32 (fun e _ => setPhase t q e.num .running s)

/-! ## Evidence (R90, R409 to R413) -/

/-- Add evidence of a tile; a residue record counts in the job (R410). -/
def sendEvidence (t : TileId) (kind : EvKind) (data : List Nat) (s : State) : State :=
  let x := tile s t
  let e : Evidence := match x.job with
    | some j => ⟨kind, t, j.part, j.jobId, j.jid, j.safe, data⟩
    | none => ⟨kind, t, tilePart s t, 0, none, false, data⟩
  let s := { s with evidenceIn := s.evidenceIn ++ [e] }
  if kind = .residue then updTile t (fun x => { x with resSent := (x.resSent + 1) % 2 ^ 16 }) s else s

/-- Commands that form a residue record: those of the lane engine and the vector unit that compute or copy (R89). -/
def formsResidue (q : Engine) (e : QEntry) : Bool := (q = .lane || q = .vec) && decide (opcodeOf e < 0x30 ∨ opcodeOf e = 0x33)

/-- The first count of a range summary: channels whose staged maximum exceeds RANGE · 2^K (R411). -/
def overRange (k : Nat) (l : List StagedStat) : Nat :=
  (l.filter (fun x => x.range != 0 && (if x.bf then decide (f32exact (x.range * 0x10000) * (2 ^ k : Nat) < f32exact (x.max * 0x10000))
    else decide (x.range * 2 ^ k < x.max)))).length

/-- A command's residue record, with its range summary where R409 asks for one. -/
def residueData (s : State) (t : TileId) (e : QEntry) (killed : Bool) : List Nat :=
  let c := fun n => min n 0xFFFF
  let summary := !killed && jobSafe s t && e.outBase.isSome
  [c e.compared, c e.mismatch, c e.skipped, c e.vecFlags, e.mode, b2n e.perlane, b2n killed,
    if summary then overRange (fget s pgCal Fl.calCtrlRangeK) e.stats else 0,
    if summary then e.sats + e.skipped else 0, b2n (killed && fon s (pgTile t) Fl.tileRunHalted)]

/-! ## The commit of a command (R181) -/

/-- Publish the staged statistics of a command (R128). -/
def publish (l : List StagedStat) (x : Tile) : Tile :=
  l.foldl (fun x p =>
    let r := statRec x p.entry
    let r := { r with amax := Nat.max r.amax p.max, fmax := Nat.max r.fmax p.max }
    { x with stats := Tab.put x.stats p.entry { r with satcnt := satAdd 16 r.satcnt p.sats, fsat := r.fsat || decide (p.sats ≠ 0) } }) x

/-- Clear AMAX and SATCNT of a run of records (R131, R175). -/
def clearStats (first n : Nat) (x : Tile) : Tile :=
  (upTo n).foldl (fun x i =>
    let r := statRec x (first + i)
    { x with stats := Tab.put x.stats (first + i) { r with amax := 0, satcnt := 0 } }) x

/-- The history slot of a tensor: the valid one with its base, else the lowest free one (R139). -/
def historySlot (s : State) (t : TileId) (base : Nat) : Option Nat :=
  ((upTo 16).find? (fun k => fon s (pgStats t) (Fl.statsWhCfgValid k) && fget s (pgStats t) (Fl.statsWhCfgBase k) = base)).orElse
    (fun _ => (upTo 16).find? (fun k => !fon s (pgStats t) (Fl.statsWhCfgValid k)))

/-- Take the history slot of a tensor that was re-run wide (R139). -/
def trackWide (t : TileId) (base : Nat) (s : State) : State :=
  match historySlot s t base with
  | none => setIrq (pgStats t) 10 (fbump (pgStats t) Fl.statsWideCntUntracked 1 s)
  | some k =>
    let s := if fon s (pgStats t) (Fl.statsWhCfgValid k) then s else
      fsets (pgStats t) [(Fl.statsWhCfgBase k, base), (Fl.statsWhCfgValid k, 1), (Fl.statsWhLoHist k, 0), (Fl.statsWhHiHist k, 0),
        (Fl.statsWhCntOnes k, 0)] s
    updTile t (fun x => { x with wideFrame := if x.wideFrame.contains base then x.wideFrame else x.wideFrame ++ [base] }) s

/-- A job of the table, changed. -/
def updJob (n : Nat) (f : JobRun → JobRun) (s : State) : State :=
  { s with jobs := s.jobs.map (fun r => if r.jid = n then f r else r) }

/-- The job of a tile in the table, changed. -/
def updTileJob (t : TileId) (f : JobRun → JobRun) (s : State) : State :=
  match (tile s t).job.bind TileJob.jid with
  | some n => updJob n f s
  | none => s

/-- A wide re-run commits (R134, R139, R144, R390); a tensor with an empty range takes no history slot (log 34). -/
def commitWide (t : TileId) (e : QEntry) (s : State) : State :=
  let s := setIrq (pgStats t) 9 (fbump (pgStats t) Fl.statsWideCntReruns 1 s)
  let s := e.seen.foldl (fun s n => fset (pgScale t) ⟨scaleOff n + 4, 5, 1⟩ 1 s) s
  let s := match e.outBase with
    | some b => trackWide t b s
    | none => s
  let s := updTileJob t (fun r => { r with wide := true }) s
  sendEvidence t .adapt [e.outBase.getD 0, 0, 0, 4, b2n e.outBase.isNone, fget s (pgScale t) Fl.scaleJobCntJobs] s

/-- Everything a command held until its commit (R181). -/
def commitEntry (t : TileId) (q : Engine) (s : State) (e : QEntry) : State :=
  let s := e.steps.foldl (fun s p => commitStep p s) s
  let s := e.steps.foldl (fun s p => if p.wide && p.kind = 0 && decide (p.tile ≠ t) then fset (pgSeq p.tile) Fl.seqStatusWideIl 1 s else s) s
  let s := updTile t (publish e.stats) s
  let s := if opcodeOf e = 0x33 && cf e 0 10 1 = 1 then updTile t (clearStats (cf e 2 0 10) (cf e 2 10 11)) s else s
  let s := if formsResidue q e then sendEvidence t .residue (residueData s t e false) s else s
  let s := if e.wide && formsResidue q e then commitWide t e s else s
  let s := if opcodeOf e = 0x30 then addBarrier (tilePart s t) (cf e 0 16 6) (cf e 1 0 16) s else s
  let s := if opcodeOf e = 0x34 then updTileJob t (fun r => { r with reached := (cf e 0 16 8, t) :: r.reached }) s else s
  match e.arm with
  | some a => let k : StrmId := if q = .s1 then 1 else 0; setArmQ t k (armQ (tile s t) k ++ [a]) s
  | none => s

/-- Handles of descriptors with CRIT = 1 in DDR or LLC that a stream span of a SAFE job wrote, in order (R412). -/
def noticeHandles (s : State) (t : TileId) (span : List QEntry) : List Nat :=
  if !jobSafe s t then [] else
  (span.filter (fun e => e.outCrit && (match descOf (tile s t) e.outHandle with
    | some d => decide (dLoc d ≤ 1)
    | none => false))).foldl (fun l e => if l.contains e.outHandle then l else l ++ [e.outHandle]) []

/-- One output notice: handle, BASE, commands with an INVALID source, elements clipped (R412). -/
def noticeData (s : State) (t : TileId) (span : List QEntry) (h : Nat) : List Nat :=
  let es := span.filter (fun e => e.outHandle = h)
  [h, ((descOf (tile s t) h).map dBase).getD 0, (es.filter QEntry.srcInvalid).length, (es.map QEntry.clipped).foldl (· + ·) 0]

/-! ## Commit points (R179, R180) -/

/-- The entries up to a COMMIT that has reached the head, that COMMIT included. -/
def uptoCommit : List QEntry → Option (List QEntry)
  | [] => none
  | e :: r => if e.phase = .running && opcodeOf e = 0x32 then some [e] else (uptoCommit r).map (fun l => e :: l)

/-- The open span at a commit point: up to the COMMIT at the head, or the whole queue after a HALT. -/
def spanOf (x : Tile) (q : Engine) : Option (List QEntry) :=
  match uptoCommit (queueOf x q) with
  | some l => some l
  | none => if x.haltFlush && !(queueOf x q).isEmpty then some (queueOf x q) else none

/-- Every command of the span has completed. -/
def spanDone (l : List QEntry) : Bool := l.all (fun e => e.phase = .complete || (e.phase = .running && opcodeOf e = 0x32))

/-- The command fails its saturation test; with WIDE_EN = 0 a QM command is not tested (R134). -/
def failsSat (s : State) (t : TileId) (e : QEntry) : Bool :=
  (jobSafe s t || fon s (pgStats t) Fl.statsCfgWideEn) && satTestFails e.limit e.sats e.elems

/-- Records a tile has in its queue for Caldera (R413). -/
def evidenceQueued (s : State) (t : TileId) : Nat := (s.evidenceIn.filter (fun e => decide (e.tile = t))).length

/-- The records a span would add. -/
def spanRecords (s : State) (t : TileId) (q : Engine) (l : List QEntry) : Nat :=
  (l.filter (formsResidue q)).length + (l.filter (fun e => e.wide && formsResidue q e)).length + (noticeHandles s t l).length

/-- Multicast at a commit: a RECV has settled with its SEND, whose record goes once it has completed and every receiver has
settled (R278, R279). -/
def mcCommit (t : TileId) (e : StrmId) (nums : List Nat) (s : State) : State :=
  let mine := (mcOf (tile s t) e).filter (fun m => !m.send && nums.contains m.num)
  let s := setMc t e ((mcOf (tile s t) e).filter (fun m => m.send || !nums.contains m.num)) s
  let s := mine.foldl (fun s r => match r.pair, r.tiles.head? with
    | some (k, n), some u => updMc u k (fun m => if m.send && m.num = n then { m with settled := m.settled ++ [t] } else m) s
    | _, _ => s) s
  let finished := fun (m : McRun) => m.send && m.ended && (m.tiles ++ m.dropped).all m.settled.contains
  s.tiles.foldl (fun s p => bothStrm.foldl (fun s k =>
    if (mcOf (tile s p.1) k).any finished then setMc p.1 k ((mcOf (tile s p.1) k).filter (fun m => !finished m)) s else s) s) s

/-- The span commits: every effect of its commands, and the engine's own committed state (R83, R181). -/
def commitSpan (t : TileId) (q : Engine) (span : List QEntry) (s : State) : State :=
  let notes := noticeHandles s t span
  let s := span.foldl (commitEntry t q) s
  let s := notes.foldl (fun s h => sendEvidence t .notice (noticeData s t span h) s) s
  let nums := span.map QEntry.num
  let s := updTile t (fun x =>
    let x := entriesLeave (fun x => setQueueOf x q ((queueOf x q).filter (fun e => !nums.contains e.num))) x
    let x := { x with fenceWait := x.fenceWait.filter (fun n => !nums.contains n) }
    match q with
    | .lane => { x with undo := [], committedActive := x.active, planes0 := { x.planes0 with fresh := false }, planes1 := { x.planes1 with fresh := false } }
    | .vec => { x with heldCommitted := x.held }
    | _ => x) s
  let s := match q with
    | .s0 => mcCommit t 0 nums s
    | .s1 => mcCommit t 1 nums s
    | _ => s
  releaseHeld (fwrap (pgTile t) (Fl.tileSpanCommits (engNo q)) 1 s)

/-- The engine's commit point: residue test, saturation test, dependencies, room for evidence; then the span commits
(R179 to R181, R413). -/
def doCommitPoint (t : TileId) (q : Engine) (s : State) : State :=
  let x := tile s t
  if beingKilled x q then s else
  match spanOf x q with
  | none => s
  | some span =>
    if !spanDone span then s
    else if span.any (fun e => e.mismatch != 0 || e.vecFlags != 0) then startKill t allEngines true s
    else if span.any (failsSat s t) then
      let mark := fun (e : QEntry) => if span.any (fun f => f.num = e.num) && failsSat s t e then
          { e with wide := true, seen := (e.stats.filter (fun p => p.sats != 0)).map StagedStat.entry } else e
      let s := setQueue t q ((queue s t q).map mark) s
      startKill t [q] false (fset (pgSeq t) Fl.seqStatusWideIl 1 s)
    else if span.any (fun e => e.accRead.any (fun n => x.lane.any (fun l => l.num = n))) then s
    else if 64 < evidenceQueued s t + spanRecords s t q span then s
    else commitSpan t q span s

/-! ## Kills (R184 to R188) -/

/-- The entry as it was pushed, to be dispatched again (R184, R188). -/
def requeued (e : QEntry) : QEntry :=
  { w0 := e.w0, w1 := e.w1, w2 := e.w2, w3 := e.w3, num := e.num, wide := e.wide, seen := e.seen }

/-- Slot steps that ring tiles have taken for a stream engine's undispatched commands, and its waiting requests, are
undone (R184, R259). -/
def dropRemote (t : TileId) (e : StrmId) (s : State) : State :=
  let mine := s.remoteSteps.filter (fun r => decide (r.tile = t ∧ r.eng = e))
  let s := reverseSteps (mine.filterMap RemoteStep.got) s
  { s with remoteSteps := s.remoteSteps.filter (fun r => !decide (r.tile = t ∧ r.eng = e)) }

/-- A kill's effect on multicast: the SENDs and RECVs of the span are over. A RECV that has paired with a SEND of the span and is
not complete goes on by unicast, and a RECV of the span pairs again (R279). -/
def killMulticast (t : TileId) (e : StrmId) (s : State) : State :=
  let live := (queue s t (strmEng e)).map QEntry.num
  let mine := (mcOf (tile s t) e).filter (fun m => live.contains m.num)
  let s := setMc t e ((mcOf (tile s t) e).filter (fun m => !live.contains m.num)) s
  mine.foldl (fun s m =>
    if m.send then
      m.paired.foldl (fun s u => match recvOf s t e m.num u with
        | some r => goUnicast u r.1 r.2.num s
        | none => s) s
    else match m.pair, m.tiles.head? with
      | some (k, n), some u => updMc u k (fun x => if x.send && x.num = n then { x with paired := x.paired.filter (fun v => v != t) } else x) s
      | _, _ => s) s

/-- A kill's effect on a stream engine: what it was carrying out is over, its slot steps on other tiles and its channels' blocks
are reversed (R184, R259, R274, R279). -/
def killStrm (t : TileId) (e : StrmId) (s : State) : State :=
  reverseBlocks t e (updRuns t e (fun _ => []) (killMulticast t e (dropRemote t e s)))

/-- What the kill of one engine restores and discards (R83, R96, R184). -/
def killEngine (t : TileId) (s : State) (q : Engine) : State :=
  let live := (queue s t q).filter (fun e => e.phase != .queued)
  let s := (live.filter (fun e => formsResidue q e && (e.mismatch != 0 || e.vecFlags != 0))).foldl
    (fun s e => sendEvidence t .residue (residueData s t e true) s) s
  let s := reverseSteps (live.flatMap QEntry.steps) s
  let s := match q with
    | .s0 => killStrm t 0 s
    | .s1 => killStrm t 1 s
    | _ => s
  updTile t (fun x =>
    let x := setQueueOf x q ((queueOf x q).map requeued)
    match q with
    | .lane =>
      let stale := fun (p : Plane) => if p.fresh then { p with valid := false, fresh := false } else p
      { x with
        acc := x.undo.foldl (fun a e => Tab.put a e.1 e.2) x.acc
        undo := []
        active := x.committedActive
        planes0 := stale x.planes0
        planes1 := stale x.planes1
        loads := []
        laneRuns := [] }
    | .vec => { x with vecRun := none, held := x.heldCommitted }
    | _ => x) s

/-- What a tile without a job holds of the commands that faulted goes when a job takes the tile, or the sequencer is
started again or reset (log 92). -/
def dropStopped (t : TileId) (s : State) : State :=
  if !(tile s t).stopped then s else
  let s := if fget s (pgSeq t) Fl.seqStatusState = 1 then fsets (pgSeq t) [(Fl.seqStatusState, 0), (Fl.seqStatusStall, 0)] s else s
  updTile t (entriesLeave (fun x => { x with
    stopped := false
    lane := []
    vec := []
    s0 := []
    s1 := []
    haltFlush := false
    haltPc := none
    fenceWait := [] })) s

/-- The kill in progress completes; `d` is the D of R186. -/
def doKillDone (t : TileId) (d : Nat) (s : State) : State :=
  match (tile s t).kill with
  | none => s
  | some k =>
    let s := k.engines.foldl (killEngine t) s
    let s := updTile t (fun x => { x with kill := none, hold := x.hold || fon s (pgTile t) Fl.tileCtxCtlFreeze }) s
    let s := fbump (pgTile t) Fl.tileKillStatCount 1 (fsets (pgTile t) [(Fl.tileKillStatBusy, 0), (Fl.tileKillStatCycles, min 255 (k.cycles + d))] s)
    releaseHeld (setIrq (pgTile t) 8 s)

/-! ## The meanings -/

def execSignal (t : TileId) (q : Engine) (s : State) : Host.Outcome State Fault Refusal := ok (doNote 0x30 t q s)
def execMark (t : TileId) (q : Engine) (s : State) : Host.Outcome State Fault Refusal := ok (doNote 0x34 t q s)
def execWait (t : TileId) (q : Engine) (s : State) : Host.Outcome State Fault Refusal := ok (doWait t q s)
def execCommit (t : TileId) (q : Engine) (s : State) : Host.Outcome State Fault Refusal := ok (doCommit t q s)
def execCommitPoint (t : TileId) (q : Engine) (s : State) : Host.Outcome State Fault Refusal := ok (doCommitPoint t q s)
def execKillDone (t : TileId) (d : Fin 148) (s : State) : Host.Outcome State Fault Refusal := ok (doKillDone t d.val s)
def execBarrierUpdate (p : PartId) (b : Fin 64) (s : State) : Host.Outcome State Fault Refusal := ok (doBarrierUpdate p b s)

end Sys2Proof.Machine
end

