-- ==== Sys2Proof/Machine/TileCmd.lean ====
section
/-! DEFINITION. The TILE page's own commands, and what happens on a tile when a job leaves it (05, R151, R152, R163, R186,
R189, R190; 04, R129, R139 to R144; 11, R389; 12, R410). -/

namespace Sys2Proof.Machine

/-! ## TILE_KILL, TILE_RUN, TILE_FINFO (R186, R189, R190) -/

/-- The engines TILE_KILL.ENG names. -/
def killSet (v : Word) : List Engine := allEngines.filter (fun q => v.toNat.testBit (engNo q))

/-- Clear HALTED and let dispatch resume (R189). -/
def resumeTile (t : TileId) (s : State) : State := fset (pgTile t) Fl.tileRunHalted 0 s

/-- Release the fault capture (R190). -/
def clearFinfo (t : TileId) (s : State) : State := fset (pgTile t) Fl.tileFinfoValid 0 s

/-! ## Descriptor copies (R151, R152) -/

/-- A write of a handle to TILE_DESC_LOAD; a handle that breaks R149 or R150 is recorded on the TILE page and copies
nothing (R151; log 35). -/
def descLoad (t : TileId) (h : Nat) (s : State) : State :=
  if handleBad s t ⟨h, 2, false⟩ then commandFault t (pgTile t) 0 2 0x11 [] s else requestDesc t 0 [] h s

/-- Record an access error on a page other than the requester's own; a firewall's refusal counts at its partition
(R152, R379). -/
def errorAt (pg : PageKey) (p : PartId) (cls det : Nat) (s : State) : State :=
  let s := recordFault pg cls det s
  if cls = 5 then setIrq (pgPart p) 11 (fbump (pgPart p) Fl.partFwCntCount 1 s) else s

/-- Address of a partition's descriptor (R150). -/
def descAddr (s : State) (p : PartId) (h : Nat) : Nat := fgetAddr s (pgPart p) Fl.partDescBaseLoBase Fl.partDescBaseHiBase + 64 * h

/-- The read of descriptor `h` returns; `bad` says that memory answered it with an uncorrectable error (R152, R288). -/
def doDescResponse (t : TileId) (h : Nat) (bad : Bool) (s : State) : State :=
  let x := tile s t
  if !x.descPend.contains h then s else
  let p := tilePart s t
  let a := descAddr s p h
  let drop := fun (s : State) => updTile t (fun x => { x with descPend := x.descPend.erase h }) s
  match grantRange s (.seq t) false a 64 with
  | .served =>
    if bad then faultJob t 0x0E 1 (errorAt (pgTile t) p 0x0E 1 (drop s))
    else updTile t (fun x => { x with descs := x.descs ++ [(h, wordsOf (peekReq s a 64))] }) (noteLines (.seq t) false a 64 (drop s))
  | .error c d => faultJob t c d (errorAt (pgTile t) p c d (drop s))
  | .errorOn pg c d x => faultJob t c d (recordOn pg c d x (drop s))
  | g => waitEffect (.seq t) g s

/-! ## TILE_SLOT_FILL (R163) -/

/-- The first buffers of a ring become FULL without their bytes changing (R163). -/
def slotFill (t : TileId) (v : Word) (s : State) : State :=
  let r := Fl.tileSlotFillRing.get v
  let n := Fl.tileSlotFillCountM1.get v + 1
  if Fl.tileSlotFillGo.get v = 0 then s
  else if ringValid s t r && decide (fget s (pgTile t) (Fl.tileSlotStateBufs r) = 0) && decide (n ≤ ringBufs s t r)
      && decide (fget s (pgSeq t) Fl.seqStatusState ≠ 1) then
    let s := (upTo n).foldl (fun s b => setTags t r b false false (setBufState t r b 2 s)) s
    setRdIdx t r 0 (setWrIdx t r (n % ringBufs s t r) s)
  else commandFault t (pgTile t) 0 2 6 [] s

/-! ## The frame step (R140, R141) -/

/-- The frame step's outcome for one adaptive entry: EXP, LOWRUN, and 0 UP, 1 DOWN, 2 AT_LIMIT or 3 for none (R140). -/
def frameEntry (fsat : Bool) (fmax range lowrun : Nat) (exp : Int) : Int × Nat × Nat :=
  if fsat then (if exp < 7 then (exp + 1, 0, 0) else (exp, 0, 2))
  else if 4 * fmax < range then
    (if lowrun = 255 then (if -4 < exp then (exp - 1, 0, 1) else (exp, 0, 3)) else (exp, lowrun + 1, 3))
  else (exp, 0, 3)

/-- The outcomes of a tile's frame step, in entry order; none with ADAPT_EN = 0 (R140). -/
def frameOutcomes (s : State) (t : TileId) : List (Nat × Int × Nat × Nat) :=
  if !fon s (pgScale t) Fl.scaleCtrlAdaptEn then [] else
  ((upTo 1024).filter (seAdaptive s t)).map (fun n =>
    let r := statRec (tile s t) n
    let f := frameEntry r.fsat r.fmax (seRange s t n) r.lowrun (seExp s t n)
    (n, f.1, f.2.1, f.2.2))

/-- The adaptation records of a frame step (R144). -/
def sendAdapts (t : TileId) (l : List (Nat × Int × Nat × Nat)) (s : State) : State :=
  l.foldl (fun s o =>
    if o.2.2.2 = 3 then s
    else sendEvidence t .adapt [o.1, unsignedOf 4 (seExp s t o.1), unsignedOf 4 o.2.1, o.2.2.2, 0, fget s (pgScale t) Fl.scaleJobCntJobs] s) s

/-- Number of set bits. -/
def popcount (n width : Nat) : Nat := ((upTo width).filter (fun i => n.testBit i)).length

/-- Each valid history shifts; passing WIDE_ALERT asks for recalibration (R139). -/
def shiftHistories (t : TileId) (s : State) : State :=
  let pg := pgStats t
  let frame := (tile s t).wideFrame
  let s := (upTo 16).foldl (fun s k =>
    if !fon s pg (Fl.statsWhCfgValid k) then s else
    let h := (fget s pg (Fl.statsWhLoHist k) + 2 ^ 32 * fget s pg (Fl.statsWhHiHist k)) * 2 % 2 ^ 64
      + b2n (frame.contains (fget s pg (Fl.statsWhCfgBase k)))
    let old := fget s pg (Fl.statsWhCntOnes k)
    let new := popcount h 64
    let s := fsets pg [(Fl.statsWhLoHist k, h), (Fl.statsWhHiHist k, h / 2 ^ 32), (Fl.statsWhCntOnes k, new)] s
    let a := fget s pg Fl.statsCfgWideAlert
    if old ≤ a ∧ a < new then recordEvent 0x1008 pg 0 0 0 (setIrq pg 8 s) else s) s
  updTile t (fun x => { x with wideFrame := [] }) s

/-- FMAX and FSAT of every record clear (R129). -/
def clearFrameStats (x : Tile) : Tile := { x with stats := x.stats.map (fun e => (e.1, { e.2 with fmax := 0, fsat := false })) }

/-- What the last frame step adapted is kept while its job has not ended, or a JOB_END group has still to apply on the tile's
SCALE page (R141). -/
def settleAdapted (t : TileId) (s : State) : State :=
  let open' := match (tile s t).frameOf with
    | some f => s.jobs.any (fun j => j.jid = f.1)
    | none => false
  let due := s.commits.any (fun r => r.jobEnd && r.waiting.any (fun w => w.2.1.contains (pgScale t)))
  if open' || due then s else updTile t (fun x => { x with adapted := [] }) s

/-- The frame step's last cycle: EXP and LOWRUN change (R140, R141). -/
def doFrameStepDone (t : TileId) (s : State) : State :=
  let x := tile s t
  if !x.frameStep then s else
  let s := x.frameOut.foldl (fun s o =>
    let s := updTile t (fun x => { x with stats := Tab.put x.stats o.1 { statRec x o.1 with lowrun := o.2.2.1 } }) s
    match o.2.2.2 with
    | 0 => setIrq (pgScale t) 8 (fbump (pgScale t) Fl.scaleAdaptCntUp 1 (fset (pgScale t) ⟨scaleOff o.1 + 4, 0, 4⟩ (unsignedOf 4 o.2.1) s))
    | 1 => setIrq (pgScale t) 8 (fbump (pgScale t) Fl.scaleAdaptCntDown 1 (fset (pgScale t) ⟨scaleOff o.1 + 4, 0, 4⟩ (unsignedOf 4 o.2.1) s))
    | 2 => setIrq (pgScale t) 9 s
    | _ => s) s
  settleAdapted t (updTile t (fun x => { x with
    frameStep := false
    frameOut := []
    adapted := (x.frameOut.filter (fun o => decide (o.2.2.2 ≤ 1))).map (fun o => (o.1, o.2.1)) }) s)

/-! ## A job leaves a tile (R389) -/

/-- The heartbeat of a tile: residue records sent, and what the sequencer stalls on (R410). -/
def heartbeat (t : TileId) (final : Bool) (s : State) : State :=
  let s := sendEvidence t .heartbeat [(tile s t).resSent, fget s (pgSeq t) Fl.seqStatusStall, b2n final] s
  updTile t (fun x => { x with hbAt := s.us }) s

/-- Every tile of the job has its sequencer in DONE: the job ends normally (R389). -/
def jobDone (s : State) (t : TileId) (j : TileJob) : Bool :=
  (jobMates s t j).all (fun u => fget s (pgSeq u) Fl.seqStatusState = 2)

/-- A save or restore is in progress on the tile (R404). -/
def ctxBusy (s : State) (t : TileId) : Bool := fon s (pgTile t) Fl.tileCtxStatBusy

/-- The job leaves the tile: after a normal end, or once the kill of an ended job has finished. A tile that is halted and
whose job has not ended keeps it (R389). A Geyser patch is not a job: there is no JOB_END when it leaves (R422), so no frame
step, and neither the histories nor the frame's statistics change (R126, R129, R139, R140). -/
def doTileJobEnd (t : TileId) (s : State) : State :=
  let x := tile s t
  match x.job with
  | none => s
  | some j =>
    let normal := !j.faulted && jobDone s t j && x.kill.isNone && !fon s (pgTile t) Fl.tileCtxCtlFreeze
    if !(normal || (j.faulted && x.kill.isNone && !ctxBusy s t)) then s else
    let step := normal && j.jid.isSome
    let outs := if step then frameOutcomes s t else []
    let frame := fget s (pgScale t) Fl.scaleJobCntJobs
    let s := if step then sendAdapts t outs s else s
    let s := if j.safe && j.jid.isSome then heartbeat t true s else s
    let s := if j.jid.isSome then fwrap (pgScale t) Fl.scaleJobCntJobs 1 (shiftHistories t s) else s
    let s := disarmChans t 1 (disarmChans t 0 (discardImem t s))
    let s := fsets (pgSeq t) [(Fl.seqStatusAutoIl, 0), (Fl.seqStatusWideIl, 0)] s
    let s := if normal then s else
      let s := if fget s (pgSeq t) Fl.seqStatusState = 1 then fsets (pgSeq t) [(Fl.seqStatusState, 0), (Fl.seqStatusStall, 0)] s else s
      fset (pgTile t) Fl.tileRunHalted 0 s
    let s := updTile t (entriesLeave fun x =>
      let x := if j.jid.isSome then { clearFrameStats x with adapted := [], frameOf := j.jid.map (fun n => (n, frame)) } else x
      { x with
        job := none
        descs := []
        descPend := []
        frameStep := step
        frameOut := outs
        lane := if normal then x.lane else []
        vec := if normal then x.vec else []
        s0 := if normal then x.s0 else []
        s1 := if normal then x.s1 else []
        str0 := {}
        str1 := {}
        mc0 := []
        mc1 := []
        haltFlush := false
        haltPc := none
        fenceWait := []
        resSent := 0 }) s
    match j.jid with
    | none => s
    | some n => updJob n (fun r => { r with left := r.left ++ [t] }) s

/-! ## The meanings -/

def execTileKill (who : Requester) (t : TileId) (v : Word) (s : State) : Host.Outcome State Fault Refusal :=
  ok (guarded who (pgTile t) 0x410 (startKill t (killSet v) false) s)
def execTileResume (who : Requester) (t : TileId) (s : State) : Host.Outcome State Fault Refusal :=
  ok (guarded who (pgTile t) 0x418 (resumeTile t) s)
def execFinfoClr (who : Requester) (t : TileId) (s : State) : Host.Outcome State Fault Refusal :=
  ok (guarded who (pgTile t) 0x450 (clearFinfo t) s)
def execDescLoad (who : Requester) (t : TileId) (v : Word) (s : State) : Host.Outcome State Fault Refusal :=
  ok (guarded who (pgTile t) 0x400 (descLoad t (v.toNat % 2 ^ 16)) s)
def execDescCopyResponse (t : TileId) (h : Nat) (bad : Bool) (s : State) : Host.Outcome State Fault Refusal :=
  ok (doDescResponse t h bad s)
def execSlotFill (who : Requester) (t : TileId) (v : Word) (s : State) : Host.Outcome State Fault Refusal :=
  ok (guarded who (pgTile t) 0x458 (slotFill t v) s)
def execTileJobEnd (t : TileId) (s : State) : Host.Outcome State Fault Refusal := ok (doTileJobEnd t s)
def execFrameStepDone (t : TileId) (s : State) : Host.Outcome State Fault Refusal := ok (doFrameStepDone t s)

end Sys2Proof.Machine
end

