-- ==== Sys2Proof/Machine/Sequencer.lean ====
section
/-! DEFINITION. The tile sequencer: its instructions, the commands it pushes, its instruction memory (06, R193 to R217;
05, R183). -/

namespace Sys2Proof.Machine

/-! ## State of the sequencer -/

/-- The word of SEQ_IMEM at an address, committed (R57, R213). -/
def imemWord (s : State) (t : TileId) (i : Nat) : Word := rd s (pgSeq t) (0x20000 + 4 * i)
def tplWord (s : State) (t : TileId) (n i : Nat) : Word := rd s (pgSeq t) (0x10000 + 16 * n + 4 * i)
def cntOf (s : State) (t : TileId) (c : Nat) : Nat := fget s (pgSeq t) (Fl.seqCntValue c)
def setCnt (t : TileId) (c v : Nat) (s : State) : State := fset (pgSeq t) (Fl.seqCntValue c) (v % 2 ^ 24) s

/-- Replace the loop stack, its innermost level first. -/
def setLoops (t : TileId) (l : List LoopEnt) (s : State) : State :=
  fset (pgSeq t) Fl.seqStatusLoopDepth l.length (updTile t (fun x => { x with loops := l }) s)

/-- The sequencer is running and nothing but a stall keeps it from issuing (R194, R195, R207, R404). -/
def seqRuns (s : State) (t : TileId) : Bool :=
  pageOn s (pgSeq t) && fget s (pgSeq t) Fl.seqStatusState = 1 && (tile s t).haltPc.isNone
    && !fon s (pgTile t) Fl.tileCtxCtlFreeze && !tileFaulted (tile s t)

/-- A stalled cycle: STALL shows its cause (R217). -/
def seqStall (t : TileId) (code : Nat) (s : State) : State :=
  fbump (pgSeq t) Fl.seqStallCycCycles 1 (fset (pgSeq t) Fl.seqStatusStall code s)

/-! ## Address generation (R200, R201, R203) -/

/-- Word, lowest bit and width of address field `j` of an opcode (R200). -/
def addrField (op j : Nat) : Option (Nat × Nat × Nat) :=
  match op, j with
  | 0x01, 0 => some (3, 0, 16)
  | 0x02, 0 => some (0, 16, 6)
  | 0x02, 1 => some (3, 0, 16)
  | 0x02, 2 => some (3, 16, 16)
  | 0x10, 0 => some (0, 14, 6)
  | 0x10, 1 => some (3, 0, 16)
  | 0x11, 0 | 0x21, 0 | 0x22, 0 => some (3, 0, 16)
  | 0x11, 1 | 0x21, 1 | 0x22, 1 => some (3, 16, 16)
  | 0x12, 0 | 0x13, 0 | 0x20, 0 => some (3, 0, 16)
  | _, _ => none

/-- The generator bound to field `j` of template `n` (R201). -/
def boundGen (s : State) (t : TileId) (n j : Nat) : Option Nat :=
  let pg := pgSeq t
  let f : Fld × Fld := if j = 0 then (Fl.seqTbindEn0 n, Fl.seqTbindAg0 n) else if j = 1 then (Fl.seqTbindEn1 n, Fl.seqTbindAg1 n)
    else (Fl.seqTbindEn2 n, Fl.seqTbindAg2 n)
  if fon s pg f.1 then some (fget s pg f.2) else none

/-- The sum of a generator's enabled terms (R201). -/
def genSum (s : State) (t : TileId) (g : Nat) : Int :=
  let pg := pgSeq t
  ((upTo 4).map (fun j => if fon s pg (Fl.seqAgTEn g j) then
      (cntOf s t (fget s pg (Fl.seqAgTCnt g j)) : Int) * signed 16 (fget s pg (Fl.seqAgTStride g j)) else 0)).foldl (· + ·) 0

/-- Fill one address field; one that is negative or does not fit is left as the template holds it, and noted (R201, R203;
log 109). -/
def fillField (s : State) (t : TileId) (n : Nat) (r : List Word × Bool) (j : Nat) : List Word × Bool :=
  match addrField (bitsOf (r.1.getD 0 0).toNat 0 8) j, boundGen s t n j with
  | some (i, lo, width), some g =>
    let f : Fld := ⟨0, lo, width⟩
    let w := r.1.getD i 0
    let v : Int := (f.get w : Int) + genSum s t g
    if 0 ≤ v ∧ v < (2 ^ width : Nat) then (r.1.set i (f.put w v.toNat), r.2) else (r.1, false)
  | _, _ => r

/-- The template with its address fields filled, and whether each of them fits. -/
def fillTemplate (s : State) (t : TileId) (n : Nat) : List Word × Bool :=
  (upTo 3).foldl (fillField s t n) ((upTo 4).map (tplWord s t n), true)

/-- Fields of an instruction word. -/
def sf (w : Word) (lo n : Nat) : Nat := bitsOf w.toNat lo n

/-- What a fault of an instruction captures: the filled command of an EMIT and its queue, or the instruction word (R199). -/
def faultCmd (s : State) (t : TileId) (w : Word) : Nat × List Word :=
  if sf w 28 4 = 6 then
    let ws := (fillTemplate s t (sf w 22 6)).1
    (bitsOf (ws.getD 0 0).toNat 8 2, ws)
  else (0, [w])

/-- The sequencer stops the job with a fault of the instruction `w` at `pc` (R199). -/
def seqFault (t : TileId) (pc : Nat) (w : Word) (cause cls det : Nat) (s : State) : State :=
  let c := faultCmd s t w
  let s := fsets (pgSeq t) [(Fl.seqStatusState, 3), (Fl.seqStatusStall, 0), (Fl.seqPcPc, pc), (Fl.seqFaultCause, cause), (Fl.seqFaultPc, pc)] s
  faultJob t cls det (commandFault t (pgSeq t) c.1 cls det c.2 (setIrq (pgSeq t) 9 s))

/-- The instruction `w` at `pc` has issued and the next is at `next`; a PC past 4,095 faults (R199). -/
def issued (t : TileId) (pc : Nat) (w : Word) (next : Nat) (s : State) : State :=
  let s := fsets (pgSeq t) [(Fl.seqPcPc, pc), (Fl.seqStatusStall, 0)] s
  let s := fwrap (pgSeq t) Fl.seqIssuedCount 1 s
  if 4095 < next then seqFault t pc w 5 2 0x18 s
  else updTile t (fun x => { x with nextPc := next }) s

/-- The bits each OP's fields use, OP included (R196). -/
def seqFieldMask (op : Nat) : Nat :=
  match op with
  | 0x0 => 0xF00FFFFF
  | 0x1 => 0xFFFFFFFF
  | 0x2 => 0xF7FFFFFF
  | 0x3 => 0xFEFFFFFF
  | 0x5 => 0xFFE00FFF
  | 0x6 => 0xFFC00000
  | 0x7 => 0xFFC0FFFF
  | 0x8 => 0xFFF0FFFF
  | 0x9 => 0xF03000FF
  | 0xA => 0xFF800000
  | _ => 0xF0000000

/-- Issue the next instruction if its OP satisfies `p`; a non-zero reserved field faults (R195, R196, R199). -/
def withInstr (t : TileId) (p : Nat → Bool) (s : State) (k : Nat → Word → State) : State :=
  if !seqRuns s t then s
  else if fon s (pgTile t) Fl.tileRunHalted then seqStall t 4 s
  else if !(tile s t).fenceWait.isEmpty then seqStall t 3 s
  else
    let pc := (tile s t).nextPc
    let w := imemWord s t pc
    let op := sf w 28 4
    if !p op then s
    else if !within 0xB 0xE op && w.toNat &&& seqFieldMask op != w.toNat then seqFault t pc w 2 2 0x18 s
    else k pc w

/-! ## Pushing commands (R202, R204, R209, R183) -/

/-- The window of R209 admits `n` more numbers. -/
def windowOpen (x : Tile) (n : Nat) : Bool := decide (numDist x.nextNum (numBase x) + n ≤ 2 ^ 15)

/-- Every one of these queues has a free entry, and the window is open for a command in each. -/
def canPush (s : State) (t : TileId) (qs : List Engine) : Bool :=
  qs.all (fun q => decide ((queue s t q).length < queueCap q)) && windowOpen (tile s t) qs.length

/-- A full queue without a COMMIT can never free an entry (R183). -/
def queueStuck (s : State) (t : TileId) (q : Engine) : Bool :=
  decide (queueCap q ≤ (queue s t q).length) && (queue s t q).all (fun e => opcodeOf e != 0x32)

/-- Push a command: it takes the next program-order number (R209). -/
def pushCmd (t : TileId) (q : Engine) (ws : List Word) (s : State) : State :=
  let s := updTile t (fun x =>
    let e : QEntry := { w0 := ws.getD 0 0, w1 := ws.getD 1 0, w2 := ws.getD 2 0, w3 := ws.getD 3 0, num := x.nextNum }
    let x := setQueueOf x q (queueOf x q ++ [e])
    { x with nextNum := (x.nextNum + 1) % 2 ^ 16 }) s
  fwrap (pgSeq t) Fl.seqEmittedCount 1 s

/-- A push into queues that do not all have an entry: the fault of R183 on the first that can free none, or one more cycle of
stall (R204). -/
def pushWait (t : TileId) (l : List (Engine × List Word)) (s : State) : State :=
  match l.find? (fun p => queueStuck s t p.1) with
  | some (q, ws) => faultJob t 1 3 (commandFault t (pgEngine t q) (engNo q) 1 3 ws s)
  | none => stall t 9 (seqStall t 1 s)

/-- Push one command and go on. -/
def pushOne (t : TileId) (pc : Nat) (w : Word) (q : Engine) (ws : List Word) (s : State) : State :=
  if canPush s t [q] then issued t pc w (pc + 1) (pushCmd t q ws s) else pushWait t [(q, ws)] s

/-- The words of an ordering command (R168, R178). -/
def orderWords (op qn arg w1 : Nat) : List Word := [BitVec.ofNat 32 (op + 256 * qn + 0x10000 * arg), BitVec.ofNat 32 w1, 0, 0]

/-! ## Instruction memory (R213 to R216) -/

/-- The staged instruction words apply in one cycle (R214). -/
def applyImem (t : TileId) (s : State) : State :=
  let l := (tile s t).imemStaged
  if l.isEmpty then s else
  let s := l.foldl (fun s e => wr (pgSeq t) (0x20000 + 4 * e.1) e.2 s) s
  let s := fsets (pgSeq t) [(Fl.seqImemStatGstate, 2), (Fl.seqImemStatStaged, 0)] (updTile t (fun x => { x with imemStaged := [] }) s)
  setIrq (pgSeq t) 11 (fwrap (pgSeq t) Fl.seqImemStatRound 1 s)

/-- A write to SEQ_IMEM: staged in the instruction group while the sequencer runs, and otherwise a TX write (R213, R216). -/
def imemWrite (t : TileId) (i : Nat) (v : Word) (s : State) : State :=
  if fget s (pgSeq t) Fl.seqStatusState != 1 then stageTx (pgSeq t) (0x20000 + 4 * i) v s
  else
    let l := (tile s t).imemStaged.filter (fun e => e.1 != i) ++ [(i, v)]
    fsets (pgSeq t) [(Fl.seqImemStatGstate, 1), (Fl.seqImemStatStaged, l.length)] (updTile t (fun x => { x with imemStaged := l }) s)

/-- The instruction group's time runs out (R215). -/
def imemTimeout (t : TileId) (cycles : Nat) (s : State) : State :=
  if (tile s t).imemStaged.isEmpty || decide (cycles ≤ fget s (pgSeq t) Fl.seqTxnTimeoutCycles) then s
  else recordFault (pgSeq t) 6 0x0B (seqCause t 1 (discardImem t s))

/-! ## The instructions (R196 to R207) -/

def doDelay (t : TileId) (s : State) : State := withInstr t (· == 0) s (fun pc w => issued t pc w (pc + 1) s)

def doSet (t : TileId) (s : State) : State :=
  withInstr t (· == 1) s (fun pc w =>
    let d := sf w 24 4
    let v := sf w 0 24
    if d < 8 then issued t pc w (pc + 1) (setCnt t d v s)
    else if d < 12 then issued t pc w (pc + 1) (fset (pgSeq t) (Fl.seqCmpRef (d - 8)) v s)
    else seqFault t pc w 2 2 0x18 s)

def doAddi (t : TileId) (s : State) : State :=
  withInstr t (· == 2) s (fun pc w => issued t pc w (pc + 1) (setCnt t (sf w 24 3) (cntOf s t (sf w 24 3) + sf w 0 24) s))

/-- LOOP (R198). -/
def doLoop (t : TileId) (s : State) : State :=
  withInstr t (· == 3) s (fun pc w =>
    let c := sf w 25 3
    let e := sf w 12 12
    let n := sf w 0 12
    let l := (tile s t).loops
    if 4 ≤ l.length then seqFault t pc w 3 2 0x18 s
    else
      let s := setCnt t c 0 s
      if n = 0 then issued t pc w (e + 1) s else issued t pc w (pc + 1) (setLoops t (⟨pc, e, n, c⟩ :: l) s))

/-- ENDL (R198). -/
def doEndl (t : TileId) (s : State) : State :=
  withInstr t (· == 4) s (fun pc w =>
    match (tile s t).loops with
    | [] => seqFault t pc w 4 2 0x18 s
    | l :: r =>
      if l.last != pc then seqFault t pc w 4 2 0x18 s
      else
        let s := setCnt t l.c (cntOf s t l.c + 1) s
        if cntOf s t l.c < l.n then issued t pc w (l.pc + 1) s else issued t pc w (pc + 1) (setLoops t r s))

/-- REL of a CMPJ (R196). -/
def relHolds (rel a b : Nat) : Bool :=
  match rel with
  | 0 => a == b
  | 1 => a != b
  | 2 => decide (a < b)
  | _ => decide (b ≤ a)

/-- The loops left when control goes to `target`: a loop whose body does not hold it is popped with every loop inside
it (R198). -/
def loopsAt (target : Nat) : List LoopEnt → List LoopEnt
  | [] => []
  | l :: r =>
    let rest := loopsAt target r
    if rest.length < r.length then rest
    else if within (l.pc + 1) l.last target then l :: r else r

/-- CMPJ (R196, R198). -/
def doCmpj (t : TileId) (s : State) : State :=
  withInstr t (· == 5) s (fun pc w =>
    if relHolds (sf w 21 2) (cntOf s t (sf w 25 3)) (fget s (pgSeq t) (Fl.seqCmpRef (sf w 23 2))) then
      issued t pc w (sf w 0 12) (setLoops t (loopsAt (sf w 0 12) (tile s t).loops) s)
    else issued t pc w (pc + 1) s)

/-- EMIT (R201 to R204). -/
def doEmit (t : TileId) (s : State) : State :=
  withInstr t (· == 6) s (fun pc w =>
    let r := fillTemplate s t (sf w 22 6)
    if fget s (pgSeq t) Fl.seqTplCntCount ≤ sf w 22 6 then seqFault t pc w 7 1 6 s
    else if !r.2 then seqFault t pc w 6 2 0x18 s
    else pushOne t pc w (engOf (bitsOf (r.1.getD 0 0).toNat 8 2)) r.1 s)

/-- WAITB (R205, R264). -/
def doWaitb (t : TileId) (s : State) : State :=
  withInstr t (· == 7) s (fun pc w =>
    let b := sf w 22 6
    let named := match (tile s t).job with
      | some j => j.barMask.testBit b
      | none => true
    if !named then seqFault t pc w 2 2 0x18 s
    else if barMet s (tilePart s t) b (sf w 0 16) then issued t pc w (pc + 1) s
    else stall t 7 (seqStall t 2 s))

def doSeqSignal (t : TileId) (s : State) : State :=
  withInstr t (· == 8) s (fun pc w => pushOne t pc w (engOf (sf w 20 2)) (orderWords 0x30 (sf w 20 2) (sf w 22 6) (sf w 0 16)) s)

def doSeqMark (t : TileId) (s : State) : State :=
  withInstr t (· == 9) s (fun pc w => pushOne t pc w (engOf (sf w 20 2)) (orderWords 0x34 (sf w 20 2) (sf w 0 8) 0) s)

/-- FENCE (R204, R206, R214). -/
def doFence (t : TileId) (s : State) : State :=
  withInstr t (· == 0xA) s (fun pc w =>
    let qs := allEngines.filter (fun q => (sf w 24 4).testBit (engNo q))
    let l := qs.map (fun q => (q, orderWords 0x32 (engNo q) 0 0))
    if !canPush s t qs then pushWait t l s
    else
      let first := (tile s t).nextNum
      let s := l.foldl (fun s p => pushCmd t p.1 p.2 s) s
      let nums := if sf w 23 1 = 1 then (upTo qs.length).map (fun i => (first + i) % 2 ^ 16) else []
      issued t pc w (pc + 1) (updTile t (fun x => { x with fenceWait := nums }) (applyImem t s)))

/-- HALT (R207): nothing issues after it, and every open span reaches a commit point. -/
def doHalt (t : TileId) (s : State) : State :=
  withInstr t (· == 0xF) s (fun pc _ =>
    let s := fwrap (pgSeq t) Fl.seqIssuedCount 1 (fsets (pgSeq t) [(Fl.seqPcPc, pc), (Fl.seqStatusStall, 0)] (applyImem t s))
    updTile t (fun x => { x with haltPc := some pc, haltFlush := true }) s)

/-- An instruction with an undefined OP (R199). -/
def doUndefined (t : TileId) (s : State) : State :=
  withInstr t (within 0xB 0xE) s (fun pc w => seqFault t pc w 2 2 0x10 s)

/-- After HALT, with every queue empty and every span committed, the sequencer enters DONE (R207). -/
def doSeqDone (t : TileId) (s : State) : State :=
  let x := tile s t
  if x.haltPc.isNone || allEngines.any (fun q => !(queueOf x q).isEmpty) || x.kill.isSome
      || fget s (pgSeq t) Fl.seqStatusState != 1 then s
  else setIrq (pgSeq t) 8 (fset (pgSeq t) Fl.seqStatusState 2 (updTile t (fun x => { x with haltPc := none, haltFlush := false }) s))

/-- SEQ_START with GO (R194). -/
def seqStart (t : TileId) (v : Word) (s : State) : State :=
  if Fl.seqStartGo.get v = 0 || !pageOn s (pgSeq t) || fget s (pgSeq t) Fl.seqStatusState = 1 then s
  else
    let s := if (tile s t).kill.isNone then dropStopped t s else s
    let s := (upTo 8).foldl (fun s c => setCnt t c 0 s) (setLoops t [] s)
    let s := fsets (pgSeq t) [(Fl.seqStatusViol, 0), (Fl.seqStatusStall, 0), (Fl.seqIssuedCount, 0), (Fl.seqEmittedCount, 0), (Fl.seqStatusState, 1)] s
    updTile t (fun x => { x with nextPc := Fl.seqStartPc.get v, haltPc := none, haltFlush := false, fenceWait := [] }) s

/-- The head entry of a queue has waited under interlock past SEQ_ILOCK_LIMIT: the violation its wait replaced (R212). -/
def doIlockLimit (t : TileId) (q : Engine) (waited : Nat) (s : State) : State :=
  match headEntry (queue s t q) with
  | none => s
  | some e =>
    if e.waitDet = 0 || !mayDispatch s t q || decide (max waited e.waited ≤ fget s (pgSeq t) Fl.seqIlockLimitCycles) then s
    else violation t q e e.waitDet s

/-! ## The meanings -/

def execSeqStart (who : Requester) (t : TileId) (v : Word) (s : State) : Host.Outcome State Fault Refusal :=
  ok (guarded who (pgSeq t) 0x10C (seqStart t v) s)
def execDelay (t : TileId) (s : State) : Host.Outcome State Fault Refusal := ok (doDelay t s)
def execSet (t : TileId) (s : State) : Host.Outcome State Fault Refusal := ok (doSet t s)
def execAddi (t : TileId) (s : State) : Host.Outcome State Fault Refusal := ok (doAddi t s)
def execLoop (t : TileId) (s : State) : Host.Outcome State Fault Refusal := ok (doLoop t s)
def execEndl (t : TileId) (s : State) : Host.Outcome State Fault Refusal := ok (doEndl t s)
def execCmpj (t : TileId) (s : State) : Host.Outcome State Fault Refusal := ok (doCmpj t s)
def execEmit (t : TileId) (s : State) : Host.Outcome State Fault Refusal := ok (doEmit t s)
def execWaitb (t : TileId) (s : State) : Host.Outcome State Fault Refusal := ok (doWaitb t s)
def execSeqSignal (t : TileId) (s : State) : Host.Outcome State Fault Refusal := ok (doSeqSignal t s)
def execSeqMark (t : TileId) (s : State) : Host.Outcome State Fault Refusal := ok (doSeqMark t s)
def execFence (t : TileId) (s : State) : Host.Outcome State Fault Refusal := ok (doFence t s)
def execHalt (t : TileId) (s : State) : Host.Outcome State Fault Refusal := ok (doHalt t s)
def execUndefinedOp (t : TileId) (s : State) : Host.Outcome State Fault Refusal := ok (doUndefined t s)
def execSeqDone (t : TileId) (s : State) : Host.Outcome State Fault Refusal := ok (doSeqDone t s)
def execImemStage (who : Requester) (t : TileId) (i : Fin 4096) (v : Word) (s : State) : Host.Outcome State Fault Refusal :=
  ok (guarded who (pgSeq t) (0x20000 + 4 * i.val) (unlocked (pgSeq t) (imemWrite t i.val v)) s)
def execImemTxnTimeout (t : TileId) (cycles : Nat) (s : State) : Host.Outcome State Fault Refusal := ok (imemTimeout t cycles s)
def execIlockLimit (t : TileId) (q : Engine) (waited : Nat) (s : State) : Host.Outcome State Fault Refusal :=
  ok (doIlockLimit t q waited s)

end Sys2Proof.Machine
end

