-- ==== Sys2Proof/Machine/Spad.lean ====
section
/-! DEFINITION. A scratchpad access through any port, and the clearing of the tile's counters (08, R244 to R249, R280,
R282; 03, R107, R109; 04, R126, R131; 06, R217). -/

namespace Sys2Proof.Machine

/-! ## An access at a bank (R246 to R249) -/

/-- The local engine of a port class. -/
def engOfPort (p : Nat) : Option Engine := if p < 4 then some (engOf p) else none

/-- The request through port C or N for a line that a bank has served and whose response its requester has not had: the
oldest. -/
def servedAt (s : State) (t : TileId) (port : Nat) (write : Bool) (off : Nat) : Option Outstanding :=
  s.outstanding.find? (fun o => decide (o.place = .answered) && o.err.isNone && decide (o.req.write = write)
    && decide (physAddr s o.req.addr.toNat / 64 = (spadBase t + off) / 64) && decide (spadPort o.who t = port))

/-- What follows a class 0x04 fault at a port: a local engine's sequel, or an error response to the requester (R249). -/
def portSequel (t : TileId) (port : Nat) (write : Bool) (off det : Nat) (s : State) : State :=
  match engOfPort port with
  | some q => spadSequel t q det s
  | none => match servedAt s t port write off with
    | some o => { s with outstanding := s.outstanding.map (fun x => if x.id = o.id then { x with err := some (4, det), data := [] } else x) }
    | none => s

/-- One access of a line: power, ring overlap and ownership, then for a read its check bits; a served write stores up to
64 bytes from the line's start (R246 to R249). -/
def spadAccess (t : TileId) (port : Nat) (write slot : Bool) (line : Nat) (data : List Byte) (ecc : EccOutcome) (s : State) : State :=
  let off := 64 * line
  match spadCheck s t port write slot off with
  | some det => portSequel t port write off det (spadFault t port write off det s)
  | none =>
    let s := useBank (portRank port) t s (off / 0x10000)
    if write then poke (spadBase t + off) (data.take 64) s
    else match ecc with
      | .clean => s
      | .corrected =>
        let s := fsets (pgSpad t) [(Fl.spadFltAddrOffset, off), (Fl.spadFltAddrPort, port), (Fl.spadFltAddrWrite, 0), (Fl.spadFltAddrEcc, 1)] s
        setIrq (pgSpad t) 8 (fbump (pgSpad t) Fl.spadEccCntCorrected 1 s)
      | .uncorrectable => portSequel t port false off 5 (spadFault t port false off 5 s)

/-! ## Counters that software clears -/

/-- A clear bit of a write-only register: what it sets to 0, by page type, register and bit. -/
def clearOf (k : PageKind) (off bit : Nat) : Option (List Nat) :=
  match k, off, bit with
  | .lane, 0x14C, 0 => some [0x130, 0x134]
  | .lane, 0x14C, 1 => some [0x138]
  | .lane, 0x14C, 2 => some [0x13C, 0x140]
  | .vec, 0x14C, 0 => some [0x130, 0x134]
  | .vec, 0x14C, 1 => some [0x138]
  | .vec, 0x14C, 2 => some [0x13C]
  | .scale, 0x10C, 0 => some [0x108]
  | .stats, 0x118, 2 => some [0x110]
  | .stats, 0x118, 3 => some [0x114]
  | .seq, 0x170, 0 => some [0x168]
  | .seq, 0x170, 1 => some [0x16C]
  | .strm0, 0x118, 0 | .strm1, 0x118, 0 => some [0x108, 0x10C]
  | .strm0, 0x118, 1 | .strm1, 0x118, 1 => some [0x110, 0x114]
  | .spad, 0x178, 0 => some [0x100, 0x104]
  | .spad, 0x178, 1 => some ((upTo 6).map (fun p => 0x110 + 4 * p))
  | .spad, 0x178, 2 => some ((upTo 11).map (fun c => 0x140 + 4 * c))
  | _, _, _ => none

/-- Apply a clear bit. -/
def clearBit (pg : PageKey) (off bit : Nat) (s : State) : State :=
  match clearOf pg.kind off bit with
  | some l => zeroRegs pg l s
  | none => s

/-- STATS_CNT_CLR.SEL clears AMAX and SATCNT of the selected record, ALL of every record (R131). -/
def statsClear (t : TileId) (all : Bool) (s : State) : State :=
  if all then updTile t (fun x => { x with stats := x.stats.map (fun e => (e.1, { e.2 with amax := 0, satcnt := 0 })) }) s
  else updTile t (clearStats (fget s (pgStats t) Fl.statsSelEntry) 1) s

/-- SEQ_FAULT.CLR clears CAUSE and PC (R217). -/
def seqFaultClear (t : TileId) (s : State) : State := fsets (pgSeq t) [(Fl.seqFaultCause, 0), (Fl.seqFaultPc, 0)] s

/-- A write to a history slot's configuration: VALID 0 frees the slot and clears its history (R131). -/
def statsWhWrite (t : TileId) (k : Nat) (v : Word) (s : State) : State :=
  let s := wrMasked (pgStats t) (Fl.statsWhCfgBase k).off v 0x800003FF s
  if v.getLsbD 31 then s else fsets (pgStats t) [(Fl.statsWhLoHist k, 0), (Fl.statsWhHiHist k, 0), (Fl.statsWhCntOnes k, 0)] s

/-! ## The meanings -/

def execSpadAccess (t : TileId) (port : Fin 6) (write slot : Bool) (line : Fin 16384) (data : List Byte) (ecc : EccOutcome) (s : State) :
    Host.Outcome State Fault Refusal := ok (spadAccess t port.val write slot line.val data ecc s)
def execLaneClrRows (who : Requester) (t : TileId) (s : State) : Host.Outcome State Fault Refusal :=
  ok (guarded who (pgLane t) 0x14C (clearBit (pgLane t) 0x14C 0) s)
def execLaneClrConflict (who : Requester) (t : TileId) (s : State) : Host.Outcome State Fault Refusal :=
  ok (guarded who (pgLane t) 0x14C (clearBit (pgLane t) 0x14C 1) s)
def execLaneClrRes (who : Requester) (t : TileId) (s : State) : Host.Outcome State Fault Refusal :=
  ok (guarded who (pgLane t) 0x14C (clearBit (pgLane t) 0x14C 2) s)
def execVecClrRes (who : Requester) (t : TileId) (s : State) : Host.Outcome State Fault Refusal :=
  ok (guarded who (pgVec t) 0x14C (clearBit (pgVec t) 0x14C 0) s)
def execVecClrNan (who : Requester) (t : TileId) (s : State) : Host.Outcome State Fault Refusal :=
  ok (guarded who (pgVec t) 0x14C (clearBit (pgVec t) 0x14C 1) s)
def execVecClrConflict (who : Requester) (t : TileId) (s : State) : Host.Outcome State Fault Refusal :=
  ok (guarded who (pgVec t) 0x14C (clearBit (pgVec t) 0x14C 2) s)
def execScaleClrAdapt (who : Requester) (t : TileId) (s : State) : Host.Outcome State Fault Refusal :=
  ok (guarded who (pgScale t) 0x10C (clearBit (pgScale t) 0x10C 0) s)
def execStatsClrSel (who : Requester) (t : TileId) (s : State) : Host.Outcome State Fault Refusal :=
  ok (guarded who (pgStats t) 0x118 (statsClear t false) s)
def execStatsClrAll (who : Requester) (t : TileId) (s : State) : Host.Outcome State Fault Refusal :=
  ok (guarded who (pgStats t) 0x118 (statsClear t true) s)
def execStatsClrWide (who : Requester) (t : TileId) (s : State) : Host.Outcome State Fault Refusal :=
  ok (guarded who (pgStats t) 0x118 (clearBit (pgStats t) 0x118 2) s)
def execStatsClrClip (who : Requester) (t : TileId) (s : State) : Host.Outcome State Fault Refusal :=
  ok (guarded who (pgStats t) 0x118 (clearBit (pgStats t) 0x118 3) s)
def execStatsWhCfgWrite (who : Requester) (t : TileId) (k : Fin 16) (v : Word) (s : State) : Host.Outcome State Fault Refusal :=
  ok (guarded who (pgStats t) (Fl.statsWhCfgBase k.val).off (unlocked (pgStats t) (statsWhWrite t k.val v)) s)
def execSeqFaultClr (who : Requester) (t : TileId) (s : State) : Host.Outcome State Fault Refusal :=
  ok (guarded who (pgSeq t) 0x110 (seqFaultClear t) s)
def execSeqClrViol (who : Requester) (t : TileId) (s : State) : Host.Outcome State Fault Refusal :=
  ok (guarded who (pgSeq t) 0x170 (clearBit (pgSeq t) 0x170 0) s)
def execSeqClrStall (who : Requester) (t : TileId) (s : State) : Host.Outcome State Fault Refusal :=
  ok (guarded who (pgSeq t) 0x170 (clearBit (pgSeq t) 0x170 1) s)
def execSpadClrEcc (who : Requester) (t : TileId) (s : State) : Host.Outcome State Fault Refusal :=
  ok (guarded who (pgSpad t) 0x178 (clearBit (pgSpad t) 0x178 0) s)
def execSpadClrConflict (who : Requester) (t : TileId) (s : State) : Host.Outcome State Fault Refusal :=
  ok (guarded who (pgSpad t) 0x178 (clearBit (pgSpad t) 0x178 1) s)
def execSpadClrStall (who : Requester) (t : TileId) (s : State) : Host.Outcome State Fault Refusal :=
  ok (guarded who (pgSpad t) 0x178 (clearBit (pgSpad t) 0x178 2) s)
def execStrmClrDrop (who : Requester) (t : TileId) (e : StrmId) (s : State) : Host.Outcome State Fault Refusal :=
  ok (guarded who (pgStrm t e) 0x118 (clearBit (pgStrm t e) 0x118 0) s)
def execStrmClrLines (who : Requester) (t : TileId) (e : StrmId) (s : State) : Host.Outcome State Fault Refusal :=
  ok (guarded who (pgStrm t e) 0x118 (clearBit (pgStrm t e) 0x118 1) s)

end Sys2Proof.Machine
end

