-- ==== Sys2Proof/Machine/PageOps.lean ====
section
/-! DEFINITION. What sets a page back to its Reset values, and the end of a page's transitions (02, R11, R48, R51, R52; 09,
R313 to R316; 14, R487). -/

namespace Sys2Proof.Machine

/-! ## Reset values (R11, R487) -/

/-- The grade is OZ96-I (R1, R497). -/
def industrial (s : State) : Bool := decide (fget s pgSec Fl.secIdPartGrade = 1)

/-- The thresholds of OZ96-I, where they differ from those of OZ96-A that the table of reset values holds (R1, R470). -/
def industrialThreshold (off : Nat) : Nat :=
  match off % 16 with
  | 0 => 0x190
  | 4 => 0x1A4
  | _ => 0x1CC

/-- Is the register a threshold of the THM page, whose value after reset depends on the grade (R470)? -/
def isThreshold (pg : PageKey) (off : Nat) : Bool :=
  decide (pg.kind = .thm) && within 0x200 0x3FF off && decide (off % 16 < 12)

/-- The value v of a register's Reset column on this unit: what the fuses and the grade make of the table's (R1, R11, R478). -/
def unitWord (s : State) (pg : PageKey) (off : Nat) : Word :=
  if pg.kind = .sec then Tab.get (resetWord pg off) s.boot.fuses off
  else if isThreshold pg off && industrial s then BitVec.ofNat 32 (industrialThreshold off)
  else resetWord pg off

/-- Every threshold takes the value that the grade gives it (R1, R470); on OZ96-A the table holds it. -/
def gradeThresholds (s : State) : State :=
  if industrial s then
    (upTo 32).foldl (fun s n => [0x200, 0x204, 0x208].foldl (fun s o => wr pgThm (o + 16 * n) (unitWord s pgThm (o + 16 * n)) s) s) s
  else s

/-- The value a register takes when it is reset: 'S' bits from the retained copy, what the fuses hold, the rest as the
table gives (R11, R478, R487). -/
def resetVal (s : State) (pg : PageKey) (off : Nat) : Word :=
  let d := unitWord s pg off
  match regSpec pg.kind off with
  | some (r, _) =>
    let m : Word := BitVec.ofNat 32 r.snt
    (d &&& ~~~ m) ||| (Tab.get d s.retained ⟨pg, off⟩ &&& m)
  | none => if isWindow off then Tab.get d s.retained ⟨pg, off⟩ else d

/-- The bits of a register that LOCK.CFG holds: its RW and TX bits (R46). -/
def lockMask (pg : PageKey) (off : Nat) : Word := if isWindow off then 0xFFFFFFFF else rwMask pg off ||| txMask pg off

/-- The link registers, which both HUB pages present; a reset of either page resets them as `resetLinks` says (log 44). -/
def isLinkReg (pg : PageKey) (off : Nat) : Bool := decide (pg.kind = .hub) && decide (0x800 ≤ off)

/-- The offsets of a page that hold something other than the table's reset value, or would after a reset. -/
def changedOffs (s : State) (pg : PageKey) : List Nat :=
  let a := (s.regs.filter (fun e => decide (e.1.pg = pg))).map (fun e => e.1.off)
  let b := (s.retained.filter (fun e => decide (e.1.pg = pg))).map (fun e => e.1.off)
  (a ++ b.filter (fun o => !a.contains o)).filter (fun o => decide (0x100 ≤ o) && !isLinkReg pg o)

/-- Read-only bits that show a present condition of a block the page's reset does not touch: a soft reset leaves them
(log 68). -/
def liveMask (pg : PageKey) (off : Nat) : Word :=
  match pg.kind, off with
  | .pwr, 0x100 | .pwr, 0x104 | .clk, 0x104 | .thm, 0x18C | .sec, 0x120 | .sec, 0x130 | .sec, 0x138 | .xcore, 0x104 => 0xFFFFFFFF
  | .pwr, 0x114 => 0x100
  | .pwr, 0x130 => 0x300
  | .pwr, 0x18C => 0x10000
  | .clk, 0x110 => 0x700
  | .clk, 0x114 => 0x230
  | .thm, 0x188 => 0x07000000
  | .fum, 0x108 => 0x100
  | .snt, 0x108 => 0x7
  | .sdio, 0x100 => 0x10
  | _, _ => 0

/-- Every register of a page at 0x100 and above takes its reset value, except what LOCK.CFG holds and the bits `keep` gives
(R51, R52). -/
def resetRegs (keep : Nat → Word) (pg : PageKey) (s : State) : State :=
  let lock := fon s pg Fl.lockCfg
  let s := (changedOffs s pg).foldl (fun a o =>
    let v := resetVal s pg o
    let m := keep o ||| (if lock then lockMask pg o else 0)
    wr pg o ((rd s pg o &&& m) ||| (v &&& ~~~ m)) a) s
  if pg.kind = .hub then resetLinks lock (resetVal s (pgHub 0) 0x820) s else s

/-- The counters, records and histories that a page's read-only fields report, and the work its function holds (R51). DESIGN
CHOICE (log 108): what an engine has dispatched and not committed ends as by a kill, and its commands stay queued. -/
def clearHidden (pg : PageKey) (s : State) : State :=
  let t := tileOf pg.inst
  let n := portOf pg.inst
  let spanEnds := fun (q : Engine) (f : Tile → Tile) (s : State) => updTile t f (killEngine t s q)
  let rings := fun (f : RingId → Bool) (s : State) => { s with rings := Tab.drop s.rings f }
  match pg.kind with
  | .tile => updTile t (fun x => { x with descs := [], descPend := [] }) s
  | .seq => updTile t (fun x => { x with loops := [], nextPc := 0, imemStaged := [], fenceWait := [], haltPc := none, haltFlush := false }) (dropStopped t s)
  | .lane => spanEnds .lane (fun x => { x with acc := [], undo := [], planes0 := {}, planes1 := {}, active := 0, committedActive := 0, loads := [], laneRuns := [] }) s
  | .vec => spanEnds .vec (fun x => { x with vecRun := none, held := [], heldCommitted := [], lutHeld := [] }) ((tile s t).lutHeld.foldl (fun s e => lutDone e.2.2 s) s)
  | .spad => updTile t (fun x => { x with spadZeroed := false }) s
  | .strm0 => disarmChans t 0 (spanEnds .s0 (fun x => { x with mc0 := [] }) s)
  | .strm1 => disarmChans t 1 (spanEnds .s1 (fun x => { x with mc1 := [] }) s)
  | .scale => updTile t (fun x => { x with adapted := [] }) s
  | .stats => updTile t (fun x => { x with stats := [], wideFrame := [] }) s
  | .cam => rings (fun r => decide (r = .cam n)) { s with cams := Tab.drop s.cams (fun m => decide (m = n)) }
  | .tap => rings (fun r => match r with
      | .tap m _ => decide (m = n)
      | _ => false) s
  | .hub => updHub (if pg.inst = 0 then 0 else 1) (fun x => { x with load := [], loadUsed := [], loadRoom := [] }) s
  | .hubDdr => setSub pg.inst { subSt s pg.inst with acts := [], fix := [], scrub := 0, rises := [], quiet := 0 } s
  | .hubLlc => updHub (if pg.inst = 0 then 0 else 1) (fun x => { x with lines := [], bad := [], reqs := x.reqs.filter (fun r => r.way.isNone), hits := [], misses := [], flush := 0, flushInv := 0 }) s
  | .warp | .codec | .token =>
    match sharedOf pg.kind with
    | some e => rings (fun r => match r with
        | .chan f _ => decide (f = e)
        | _ => false) { s with chans := Tab.drop s.chans (fun k => decide (k.1 = e)), slices := Tab.drop s.slices (fun k => decide (k = e)) }
    | none => s
  | .cal => { s with cal := { out := s.cal.out, retry := s.cal.retry, outAt := s.cal.outAt, tested := s.cal.tested, covAt := s.cal.covAt, failed := s.cal.failed } }
  | .sdio => { s with sdio := Tab.drop s.sdio (fun p => decide (p.val = pg.inst)) }
  | .fum => { s with fum := { optime := s.fum.optime, cycle := s.fum.cycle } }
  | .thm => { s with thm := { s.thm with prev := [], good := [] } }
  | .pwr => { s with pwr := { s.pwr with est := [], capLow := none, vBad := 0 } }
  | .part => { s with partCnt := s.partCnt.map (fun e => if e.1.val = pg.inst then (e.1, e.2.map (fun _ => 0)) else e) }
  | _ => s

/-- The queues of a tile, which its TILE page reports, are empty: what they have dispatched ends as by a kill (R51, R106). -/
def emptyQueues (t : TileId) (s : State) : State :=
  updTile t (fun x => { x with lane := [], vec := [], s0 := [], s1 := [], kill := none, hold := false, stopped := false })
    (allEngines.foldl (killEngine t) s)

/-- The soft reset of a page with no transition in progress (R51). -/
def softReset (pg : PageKey) (s : State) : State :=
  let s := if pg.kind = .tile then emptyQueues (tileOf pg.inst) s else s
  let s := clearHidden pg (resetRegs (liveMask pg) pg s)
  let s := abortShadow pg 6 (abortOf pg { s with staged := s.staged.filter (fun x => !decide (x.pg = pg)) })
  let s := wr pg 0x010 0 (fset pg Fl.state 0 (fset pg Fl.ctrlEn 0 s))
  if pg.kind = .hubDdr then subIsOff pg.inst s else s

/-- The page whose STATE a page shows: a SCALE or STATS page shows its TILE page's (R105). -/
def statePage (pg : PageKey) : PageKey := if followsTile pg then ⟨.tile, pg.inst⟩ else pg

/-- The page is in a transition (R48, R105). -/
def inTransition (s : State) (pg : PageKey) : Bool :=
  !fixedOn pg && (fget s (statePage pg) Fl.state = 1 || fget s (statePage pg) Fl.state = 3 || fget s (statePage pg) Fl.state = 4)

/-- A soft reset of one page that waited for a transition acts (R51). -/
def softOne (s : State) (pg : PageKey) : State :=
  if s.softPend.contains pg && !inTransition s pg then softReset pg { s with softPend := s.softPend.filter (fun p => !decide (p = pg)) }
  else s

/-- The soft resets that waited for a transition act: the page's own, and with a TILE page those of its SCALE and STATS pages
(R51, R105). -/
def softPending (pg : PageKey) (s : State) : State :=
  (if pg.kind = .tile then [pg, ⟨.scale, pg.inst⟩, ⟨.stats, pg.inst⟩] else [pg]).foldl softOne s

/-! ## A domain powers up (R11, R52, R84, R250, R313, R316) -/

/-- What the units behind a page hold when its domain has just been powered. -/
def freshPage (s : State) (pg : PageKey) : State :=
  let s := clearHidden pg (resetRegs (fun _ => 0) pg s)
  match pg.kind with
  | .tile => setTile (tileOf pg.inst) {} s
  | .hub =>
    let h : HubId := if pg.inst = 0 then 0 else 1
    let b : Budgets := ⟨rd s pg 0x110, (upTo 4).map (fun p => rd s pg (0x120 + 4 * p))⟩
    setHub h { force := (upTo 12).map (fun i => (i, b)) } s
  | .hubDdr =>
    let x := subSt s pg.inst
    setSub pg.inst { selfRef := x.selfRef, up := x.up, retrain := x.retrain } s
  | _ => s

/-! ## The end of a transition (R48) -/

/-- TURNING_ON completes: ON, or TURNING_OFF in the next cycle if EN was cleared (R48). -/
def finishOn (pg : PageKey) (s : State) : State :=
  let s := enterState pg 2 s
  let s := if fon s pg Fl.ctrlEn then s else enterState pg 3 s
  softPending pg s

/-- TURNING_ON ends in FAULT (R48, R317, R329). -/
def failOn (pg : PageKey) (s : State) : State := softPending pg (enterState pg 7 s)

/-- TURNING_OFF completes: OFF, then TURNING_ON if a pending enable is held (R48). -/
def finishOff (begin' : State → State) (pg : PageKey) (s : State) : State :=
  let pend := fget s pg Fl.state = 4
  let s := enterState pg 0 s
  if pend && !s.softPend.contains pg then begin' (enterState pg 1 s) else softPending pg s

end Sys2Proof.Machine
end

