-- ==== Sys2Proof/Machine/Ring.lean ====
section
/-! DEFINITION. The ring block through which camera ports, taps and shared-engine channels deliver their samples (10, R338
to R346, R351). -/

namespace Sys2Proof.Machine

/-! ## Registers of a ring block (R359) -/

/-- The page of a ring and the offset of its block. -/
def ringPage : RingId → PageKey
  | .cam n => pgCam n
  | .tap n _ => pgTap n
  | .chan e _ => pgEng e
def ringOff : RingId → Nat
  | .cam _ => 0x200
  | .tap _ k => 0x200 + 0x20 * k.val
  | .chan _ c => 0x420 + 0x80 * c.val

/-- A field of a ring block at an offset within it. -/
def ringFld (r : RingId) (o lo w : Nat) : Fld := ⟨ringOff r + o, lo, w⟩
def ringGet (s : State) (r : RingId) (o lo w : Nat) : Nat := fget s (ringPage r) (ringFld r o lo w)

/-- Who writes the samples of a ring. -/
def ringWho : RingId → Requester
  | .cam n => .camera n
  | .tap n _ => .camera n
  | .chan e c => .channel e c

/-- The source code by which a job names a ring (R382). -/
def ringCode : RingId → Nat
  | .cam n => n.val
  | .tap n k => 0x10 + 4 * n.val + k.val
  | .chan .warp c => 0x40 + c.val
  | .chan .codec c => 0x50 + c.val
  | .chan .token c => 0x60 + c.val

/-! ## The ring's own state (R338 to R340) -/

def ringSt (s : State) (r : RingId) : RingSt := Tab.get {} s.rings r
def setRing (r : RingId) (x : RingSt) (s : State) : State := { s with rings := Tab.put s.rings r x }
def updRing (r : RingId) (f : RingSt → RingSt) (s : State) : State := setRing r (f (ringSt s r)) s

/-- BASE, STRIDE and NBUF as the registers give them: low bits of BASE and STRIDE taken as 0, NBUF_M1 = 0 acts as 1. -/
def ringGeom (s : State) (r : RingId) : Nat × Nat × Nat :=
  ((ringGet s r 0 0 32 + 2 ^ 32 * ringGet s r 4 0 8) / 64 * 64, ringGet s r 8 0 28 / 64 * 64, max 1 (ringGet s r 12 0 5) + 1)

/-- The ring takes notice of its registers: numbering starts when ON is set, and geometry applies while every buffer is
free (R338, R340). -/
def ringSync (r : RingId) (s : State) : State :=
  let x := ringSt s r
  let on := ringGet s r 12 16 1 = 1
  let x := if on && !x.on then { x with seq := 0, held := 0, samples := [], mask := 0, acks := 0, closing := false } else x
  let g := ringGeom s r
  let x := if x.held = 0 then { x with base := g.1, stride := g.2.1, nbuf := g.2.2 } else x
  setRing r { x with on := on } s

/-- Free buffers. -/
def ringFree (x : RingSt) : Nat := x.nbuf - x.held

/-- Samples of a batch: BATCH_M1 + 1, and no more than the ring has buffers (R341). -/
def ringBatch (s : State) (r : RingId) : Nat := min (ringGet s r 12 8 5 + 1) (max 1 (ringSt s r).nbuf)

/-- RING_STAT as it reads (R359). -/
def ringStat (s : State) (r : RingId) : Nat :=
  let x := ringSt s r
  let pend := decide (x.held ≠ 0) && decide ((x.base, x.stride, x.nbuf) ≠ ringGeom s r)
  (ringFree x) % 64 + 2 ^ 8 * (if x.nbuf = 0 then 0 else x.seq % x.nbuf % 32) + 2 ^ 15 * b2n pend + 2 ^ 16 * (x.seq % 2 ^ 16)

/-- Address of a buffer and of its status record (R338). -/
def bufAddr (x : RingSt) (seq : Nat) : Nat := x.base + (if x.nbuf = 0 then 0 else seq % x.nbuf) * x.stride
def recAddr (x : RingSt) (seq : Nat) : Nat := x.base + x.nbuf * x.stride + 16 * (if x.nbuf = 0 then 0 else seq % x.nbuf)

/-! ## Memory through a producer's tag -/

/-- Write bytes as a producer: one request for each line, which travels as every other does (R18 to R26, R341); a line in
register space is no aligned 32-bit access (R37). -/
def issueBytes (who : Requester) (a : Nat) (d : List Byte) (s : State) : State :=
  (lineCuts a d.length).foldl (fun s c =>
    issueLine (fun o pg _ s => oddRegister o pg s) who true c.1 c.2 ((d.drop (c.1 - a)).take c.2) s) s

/-- A write of a producer into `[a, a+n)` whose completion has not reached it (R24, R341). -/
def unacked (s : State) (who : Requester) (a n : Nat) : Bool :=
  s.outstanding.any (fun o => decide (o.who = who) && o.req.write && decide (o.req.addr.toNat < a + n ∧ a < o.req.addr.toNat + o.req.len))

/-- Write bytes as a requester at once, line by line; a refused line is recorded and not written (R33, R249, R378), and a
line in register space is no aligned 32-bit access (R37; log 84). -/
def pokeReq (who : Requester) (a : Nat) (d : List Byte) (s : State) : State :=
  (lineCuts a d.length).foldl (fun s c =>
    match grantOf s who true c.1 with
    | .error cl de => refuseReq who cl de s
    | .errorOn pg cl de x => recordOn pg cl de x s
    | g =>
      let s := noteLine who true c.1 (waitEffect who g s)
      if (regTarget c.1).isSome then s else poke (physAddr s c.1) ((d.drop (c.1 - a)).take c.2) s) s

/-- A read of `len` bytes as a requester gets an error response. -/
def readBad (s : State) (who : Requester) (a len : Nat) : Bool :=
  match grantRange s who false a len with
  | .error _ _ | .errorOn _ _ _ _ => true
  | _ => false

/-- What keeps a read of `len` bytes from being served now: a link, a subchannel or a way (R23, R26, R296, R315). -/
def readWait (s : State) (who : Requester) (a len : Nat) : Option Grant :=
  match grantRange s who false a len with
  | .served | .error _ _ | .errorOn _ _ _ _ => none
  | g => some g

/-- Record what a producer's read leaves recorded: its error (R33, R379), the pages of register space it named (R37), and a
wait's wake requests (R26, R315). -/
def noteRead (who : Requester) (a len : Nat) (s : State) : State :=
  match grantRange s who false a len with
  | .error c d => refuseReq who c d s
  | .errorOn pg c d x => recordOn pg c d x s
  | .served => noteLines who false a len s
  | g => waitEffect who g s

/-! ## Bodies (R343) -/

/-- Cut bytes into lines of 64. -/
def linesOf (d : List Byte) : List (List Byte) := (upTo (ceilDiv d.length 64)).map (fun i => (d.drop (64 * i)).take 64)

/-- A valid body with every line equal to the poison line altered, and how many were (R343). -/
def avoidPoison (d : List Byte) : List Byte × Nat :=
  let ls := linesOf d
  (ls.flatMap (fun l => if l = poisonLine then l.take 63 ++ [(nth 0 l 63) ^^^ 1] else l), (ls.filter (fun l => l = poisonLine)).length)

/-- Poison over an extent. -/
def poisonBody (n : Nat) : List Byte := ((List.replicate (ceilDiv n 64) poisonLine).flatten).take n

/-- The page's counter of altered lines: a tap's are its port's (R343, R358, R363). -/
def avoidCount (r : RingId) (n : Nat) (s : State) : State :=
  if n = 0 then s else
  match r with
  | .cam p => fbump (pgCam p) Fl.camPoisonAvoidLines n s
  | .tap p _ => fbump (pgCam p) Fl.camPoisonAvoidLines n s
  | .chan e _ => fbump (pgEng e) Fl.engPoisonAvoidLines n s

/-- Change a sample of a ring. -/
def updSample (r : RingId) (seq : Nat) (f : Sample → Sample) (s : State) : State :=
  updRing r (fun x => { x with samples := x.samples.map (fun m => if m.seq = seq then f m else m) }) s

/-- A sample takes the next buffer and number (R338, R339). -/
def startSample (r : RingId) (info ext : Nat) (s : State) : State :=
  updRing r (fun x => { x with
    seq := (x.seq + 1) % 2 ^ 32
    held := x.held + 1
    samples := x.samples ++ [⟨x.seq, false, 0, 0, info, ext⟩] }) s

/-- The body of a sample is written: its data, or poison over its whole extent inside the buffer (R341, R343; log 45). A
valid sample larger than STRIDE is corrupt with SIZE (R344). -/
def finishSample (r : RingId) (seq cause flags info ext : Nat) (data : List Byte) (s : State) : State :=
  let x := ringSt s r
  let cause := if cause = 0 && decide (x.stride < ext) then 5 else cause
  let s := updSample r seq (fun m => { m with ready := true, cause := cause, flags := flags, info := info, ext := ext }) s
  if cause = 0 then
    let d := avoidPoison data
    avoidCount r d.2 (issueBytes (ringWho r) (bufAddr x seq) d.1 s)
  else issueBytes (ringWho r) (bufAddr x seq) (poisonBody (min (roundUpTo 64 ext) x.stride)) s

/-! ## Release and closing (R339, R346) -/

/-- Buffers come free, oldest first; pending geometry applies once all are free (R339, R340). -/
def releaseBufs (r : RingId) (n : Nat) (s : State) : State :=
  ringSync r (updRing r (fun x => { x with held := x.held - n }) s)

/-- A batch is open: the next sample is not a batch's first. -/
def batchOpen (s : State) (r : RingId) : Bool := decide ((ringSt s r).seq % ringBatch s r ≠ 0)

/-- The producer stops: an open batch is to be closed (R346). -/
def stopRing (r : RingId) (s : State) : State := if batchOpen s r then updRing r (fun x => { x with closing := true }) s else s

/-- Fill a position of a closing batch with a STOPPED sample if a buffer is free. -/
def closeOne (r : RingId) (info ext : Nat) (s : State) : State :=
  let x := ringSt s r
  if !x.closing then s
  else if !batchOpen s r then setRing r { x with closing := false } s
  else if ringFree x = 0 then s
  else finishSample r x.seq 6 0 info ext [] (startSample r info ext s)

/-- Fill as many positions of a closing batch as buffers are free (R346). -/
def closeBatch (r : RingId) (info ext : Nat) (s : State) : State := (upTo 33).foldl (fun s _ => closeOne r info ext s) s

/-! ## Status records (R341, R342) -/

/-- The words of a status record. -/
def statusWords (m : Sample) (last : Bool) (mask : Nat) : List Word :=
  [BitVec.ofNat 32 m.seq,
    BitVec.ofNat 32 (b2n (m.cause ≠ 0) + 2 ^ 4 * b2n last + 2 ^ 8 * (m.cause % 256) + 2 ^ 16 * (m.flags % 2 ^ 16)),
    BitVec.ofNat 32 m.info, BitVec.ofNat 32 (if last then mask else 0)]

/-- Channels that a completed camera sample is chained to (R351). -/
def autoChans (s : State) (r : RingId) : List (SharedEng × Chan) :=
  let code := match r with
    | .cam n => some (n.val, 0)
    | .tap n k => some (n.val, k.val + 1)
    | .chan _ _ => none
  match code with
  | none => []
  | some c => [SharedEng.warp, .codec, .token].flatMap (fun e => ((upTo 16).map chanOf).filterMap (fun ch =>
      if fon s (pgEng e) (Fl.chAutoEn ch.val) && fget s (pgEng e) (Fl.chAutoPort ch.val) = c.1 && fget s (pgEng e) (Fl.chAutoOut ch.val) = c.2
      then some (e, ch) else none))

def engChan (s : State) (e : SharedEng) (c : Chan) : EngChan := Tab.get {} s.chans (e, c)
def setEngChan (e : SharedEng) (c : Chan) (x : EngChan) (s : State) : State := { s with chans := Tab.put s.chans (e, c) x }

/-- Auto-chained samples enter the queue as it has room; QUEUED shows it (R350, R351). -/
def fillQueue (e : SharedEng) (c : Chan) (s : State) : State :=
  let x := engChan s e c
  let n := 8 - x.queue.length
  let x := { x with queue := x.queue ++ x.wait.take n, wait := x.wait.drop n }
  fset (pgEng e) (Fl.chStatQueued c.val) x.queue.length (setEngChan e c x s)

/-- A completed camera sample is queued to its channels (R351). -/
def autoChain (r : RingId) (m : Sample) (s : State) : State :=
  (autoChans s r).foldl (fun s k =>
    let x := engChan s k.1 k.2
    fillQueue k.1 k.2 (setEngChan k.1 k.2 { x with wait := x.wait ++ [⟨bufAddr (ringSt s r) m.seq, m.ext, m.cause ≠ 0, m.info, some r⟩] } s)) s

/-- A corrupt sample of a channel is counted (R363). -/
def countCorrupt (r : RingId) (m : Sample) (s : State) : State :=
  if m.cause = 0 then s else
  match r with
  | .chan e c => setIrq (pgEng e) 9 (fset (pgEng e) (Fl.chStatLastCause c.val) m.cause (fbump (pgEng e) (Fl.chCorruptCount c.val) 1 s))
  | _ => s

/-- A status record of the ring has been written and is not acknowledged (R341). -/
def recsUnacked (s : State) (r : RingId) : Bool :=
  unacked s (ringWho r) ((ringSt s r).base + (ringSt s r).nbuf * (ringSt s r).stride) (16 * (ringSt s r).nbuf)

/-- The status record of a ring's oldest sample is written once every write of its body has been acknowledged, and a batch's last one once every earlier
record has (R341). -/
def writeStatus (r : RingId) (s : State) : State :=
  let x := ringSt s r
  match x.samples with
  | [] => s
  | m :: rest =>
    if !m.ready || unacked s (ringWho r) (bufAddr x m.seq) x.stride then s else
    let b := ringBatch s r
    let pos := m.seq % b
    let mask := x.mask ||| (if m.cause = 0 then 2 ^ pos else 0)
    let last := decide (pos + 1 = b)
    if last && recsUnacked s r then s else
    let s := issueBytes (ringWho r) (recAddr x m.seq) ((statusWords m last mask).flatMap wordBytes) s
    let s := setRing r { x with samples := rest, mask := if last then 0 else mask, acks := if last then x.acks + 1 else x.acks } s
    autoChain r m (countCorrupt r m s)

/-- The interrupt a ring's BATCH_DONE sets (R360, R364). -/
def batchIrq : RingId → Nat
  | .chan _ _ => 8
  | _ => 9

/-- A job's source ring and its trigger (R381, R382). -/
def jobTrigger (j : JobRun) : Nat := bitsOf (j.words.getD 0 0).toNat 19 2
def jobTrigArg (j : JobRun) : Nat := bitsOf (j.words.getD 1 0).toNat 0 16

/-- The record of a batch's last sample is acknowledged: BATCH_DONE, which queued jobs wait for (R341, R385). -/
def batchDone (r : RingId) (s : State) : State :=
  let x := ringSt s r
  if x.acks = 0 || recsUnacked s r then s else
  let s := setIrq (ringPage r) (batchIrq r) (setRing r { x with acks := x.acks - 1 } s)
  { s with jobs := s.jobs.map (fun j =>
      if j.stage = .queued && jobTrigger j = 1 && jobTrigArg j % 256 = ringCode r then { j with trig := true } else j) }

/-- Software's release of a ring's buffers; ignored while the ring feeds a channel (R339, R351). -/
def ringRelease (r : RingId) (n : Nat) (s : State) : State :=
  if (autoChans s r).isEmpty then releaseBufs r n s else s

end Sys2Proof.Machine
end

