-- ==== Sys2Proof/Machine/Vision.lean ====
section
/-! DEFINITION. Camera ports: frames, power, the pin test and the start check (10, R325 to R332, R335, R339, R346). -/

namespace Sys2Proof.Machine

def camSt (s : State) (n : Port) : CamSt := Tab.get {} s.cams n
def setCam (n : Port) (x : CamSt) (s : State) : State := { s with cams := Tab.put s.cams n x }
def updCam (n : Port) (f : CamSt → CamSt) (s : State) : State := setCam n (f (camSt s n)) s

/-- The rings of a port: the main output and its taps. -/
def camRings (n : Port) : List RingId := .cam n :: (upTo 4).map (fun k => .tap n ⟨k % 4, Nat.mod_lt _ (by decide)⟩)

/-- Bytes of a valid sample of a camera ring (R336, R337). -/
def camExt (s : State) (n : Port) : RingId → Nat
  | .tap _ k => tapSize s n k.val
  | _ => mainSize s n

/-! ## Power (R328) -/

/-- PWREN as MODE and STATE call for it (R328). -/
def pwrenWanted (s : State) (n : Port) : Bool :=
  let st := fget s (pgCam n) Fl.state
  let ph := (camSt s n).phase
  pagePowered s (pgCam n) && match fget s (pgCam n) Fl.camPwrMode with
  | 0 => st = 2 || st = 3 || st = 4 || (st = 1 && decide (ph = .pwrDelay ∨ ph = .startCheck ∨ ph = .waitVs))
  | 1 => true
  | _ => false

/-- Drive PWREN; after a power fault it stays low until the page turns on again (R328). -/
def drivePwren (n : Port) (s : State) : State :=
  fset (pgCam n) Fl.camPwrPwren (b2n (pwrenWanted s n && !fon s (pgCam n) Fl.camPwrFlt)) s

/-! ## FRAME_END (R325, R335, R346) -/

/-- FRAME_END of a port: its shadow group and the groups bound to it commit, and rings take notice (R325). -/
def frameEndEvent (n : Port) (s : State) : State :=
  let s := commitFrameEnd n (setIrq (pgCam n) 8 s)
  (camRings n).foldl (fun s r => ringSync r s) s

/-- The CAM page begins TURNING_ON with its domain powered; CAM_CHECK_STAT shows what this start finds (R329, R358; log 115). -/
def camStart (n : Port) (s : State) : State :=
  let pg := pgCam n
  if !(pagePowered s pg && fget s pg Fl.state = 1 && decide ((camSt s n).phase = .none)) then s else
  let s := frameEndEvent n (fset pg Fl.camPwrFlt 0 s)
  let forced := fget s pg Fl.camPwrMode = 1
  let test := fon s pg Fl.camTestPinEn
  let s := fsets pg [(Fl.camCheckStatPinSkipped, b2n (test && forced)), (Fl.camCheckStatResult, 0), (Fl.camCheckStatFound, 0),
    (Fl.camCheckStatApplied, 0), (Fl.camCheckStatUndecided, 0)] s
  if test && !forced then drivePwren n (updCam n (fun x => { x with phase := .pinTest, since := s.us }) s)
  else drivePwren n (updCam n (fun x => { x with phase := .pwrDelay, since := s.us }) s)

/-- What begins on a page that is TURNING_ON with its domain powered. -/
def startPage (pg : PageKey) (s : State) : State :=
  match pg.kind with
  | .cam => camStart (portOf pg.inst) s
  | _ => startOn pg s

/-- Samples of a ring that are being received. -/
def openSamples (s : State) (r : RingId) : List Sample := (ringSt s r).samples.filter (fun m => !m.ready)

/-- Close the open batch of every ring of a port, as far as buffers are free (R346). -/
def stopPort (n : Port) (s : State) : State :=
  (camRings n).foldl (fun s r => closeBatch r (fget s (pgCam n) Fl.camFrameCntFrames) (camExt s n r) (stopRing r s)) s

/-- The reads of the lens-shading grid and the tone curve by the pipeline (R335). -/
def tableReads (s : State) (n : Port) : List (Nat × Nat) :=
  let c : IspCtl := ⟨s, n⟩
  (if c.en 2 then [(c.f Fl.ispLscLoAddr + 2 ^ 32 * c.f Fl.ispLscHiAddr, 17 * 13 * 8)] else [])
    ++ (if c.en 5 then [(c.f Fl.ispToneLoAddr + 2 ^ 32 * c.f Fl.ispToneHiAddr, 130)] else [])

/-- The frame in progress ends: its samples get their bodies, poison if any cause has arisen (R325, R343, R344). -/
def endFrame (n : Port) (cause0 : Nat) (lines : List (List (BitVec 16))) (s : State) : State :=
  let x := camSt s n
  let tables := tableReads s n
  let bad := tables.filter (fun a => readBad s (.camera n) a.1 a.2)
  let cause := if x.cause ≠ 0 then x.cause else if cause0 ≠ 0 then cause0 else if bad.isEmpty then 0 else 0x0D
  let s := if x.cause = 0 && cause0 = 0 then tables.foldl (fun s a => noteRead (.camera n) a.1 a.2 s) s else s
  let out := ispFrame s n (lines.take (camH s n))
  let body := fun (r : RingId) => match r with
    | .tap _ k => nth out.main [out.t0, out.t1, out.t2] k.val
    | _ => out.main
  let big := decide ((ringSt s (.cam n)).stride < mainSize s n) && !(openSamples s (.cam n)).isEmpty
  let s := (camRings n).foldl (fun s r => (openSamples s r).foldl (fun s m =>
    finishSample r m.seq cause 0 m.info (camExt s n r) (body r) s) s) s
  let s := if cause ≠ 0 || big then fbump (pgCam n) Fl.camErrCntCorrupt 1 s else fset (pgIsp n) Fl.ispDpcCntPixels out.dpc s
  let s := updCam n (fun x => { x with frame := none, cause := 0, ended := x.ended + 1 }) s
  let s := frameEndEvent n s
  if fget s (pgCam n) Fl.state = 2 then s else stopPort n s

/-! ## FRAME_BEGIN (R325, R339, R361) -/

/-- A page that turns on at a frame start (R329, R361). -/
def onAtFrame (pg : PageKey) (s : State) : State :=
  if fget s pg Fl.state = 1 && pagePowered s pg then finishOn pg s else s

/-- A ring takes part in a frame: its page is ON, it is in use, and its tap is enabled (R361, R362). -/
def ringTakes (s : State) (n : Port) (r : RingId) : Bool :=
  ringGet s r 12 16 1 = 1 && match r with
  | .tap _ k => pageOn s (pgTap n) && fbit s (pgTap n) Fl.tapSelEn k.val
  | _ => pageOn s (pgIsp n)

/-- A frame starts in a ring: a sample, or a dropped frame (R339). -/
def ringFrame (n : Port) (no : Nat) (s : State) (r : RingId) : State :=
  if !ringTakes s n r then s else
  let s := closeBatch r no (camExt s n r) s
  let x := ringSt s r
  if ringFree x = 0 || x.closing then
    let s := fbump (ringPage r) (ringFld r 0x18 0 32) 1 s
    if r = .cam n then fbump (pgCam n) Fl.camErrCntDropped 1 s else s
  else startSample r no (camExt s n r) s

/-- A VS active edge: the frame in progress, if any, was short; a port ready for it turns ON; a frame begins (R325,
R329). -/
def doFrameBegin (n : Port) (s : State) : State :=
  let pg := pgCam n
  let s := if (camSt s n).frame.isSome then endFrame n 1 [] s else s
  let s := if fget s pg Fl.state = 1 && decide ((camSt s n).phase = .waitVs) then
      drivePwren n (finishOn pg (updCam n (fun x => { x with phase := .none }) s))
    else s
  if !pageOn s pg then s else
  let s := onAtFrame (pgTap n) (onAtFrame (pgIsp n) s)
  let no := fget s pg Fl.camFrameCntFrames
  let s := fwrap pg Fl.camFrameCntFrames 1 s
  let s := updCam n (fun x => { x with frame := some s.us, cause := 0 }) s
  (camRings n).foldl (ringFrame n no) s

/-- The last pixel of a frame has been accepted, or a VS edge ended it early: `lines` as captured (R325). -/
def doFrameEnd (n : Port) (lines : List (List (BitVec 16))) (s : State) : State :=
  if (camSt s n).frame.isNone then s else
  let h := camH s n
  let l := lines.take h
  let cause := if l.any (fun r => decide (r.length ≠ camW s n)) then 2 else if l.length < h then 1 else 0
  endFrame n cause l s

/-- CAM_FRAME_TIMEOUT has elapsed since the frame began; while the page is ON it is a fault too (R325, R346, R365). -/
def doFrameTimeout (n : Port) (s : State) : State :=
  match (camSt s n).frame with
  | none => s
  | some t =>
    if s.us < t + fget s (pgCam n) Fl.camFrameTimeoutUs then s else
    let on := pageOn s (pgCam n)
    let s := endFrame n 3 [] s
    stopPort n (if on then recordFault (pgCam n) 0x0A 9 s else s)

/-- An overflow makes every sample of the frame corrupt; after FRAME_END, of the last frame still being written
(R326). -/
def corruptFrame (n : Port) (cause : Nat) (s : State) : State :=
  if (camSt s n).frame.isSome then updCam n (fun x => { x with cause := if x.cause = 0 then cause else x.cause }) s
  else
    let late := (camRings n).flatMap (fun r => (((ringSt s r).samples.getLast?).toList.filter (fun m => m.cause = 0)).map (fun m => (r, m)))
    if (camSt s n).ended = 0 || late.isEmpty then s else
    let s := late.foldl (fun s e => finishSample e.1 e.2.seq cause 0 e.2.info e.2.ext [] s) s
    fbump (pgCam n) Fl.camErrCntCorrupt 1 s

/-! ## FRAME_DONE and turning off (R327, R329, R361) -/

/-- Every record of the port's samples has been written and acknowledged. -/
def portQuiet (s : State) (n : Port) : Bool :=
  (camRings n).all (fun r => (ringSt s r).samples.all (fun m => !m.ready) && (ringSt s r).acks = 0 && !recsUnacked s r)

/-- The CAM page may end TURNING_OFF: no frame, nothing to be written, no batch open to close (R329, R346). -/
def camMayOff (s : State) (n : Port) : Bool :=
  (camSt s n).frame.isNone && (camSt s n).ended = 0 && portQuiet s n && (camRings n).all (fun r => !(ringSt s r).closing)

/-- TURNING_OFF of a CAM page ends. -/
def camOff (n : Port) (s : State) : State := drivePwren n (finishOff (camStart n) (pgCam n) s)

/-- A page that turns off at FRAME_DONE (R361). -/
def offAtFrame (pg : PageKey) (s : State) : State :=
  if fget s pg Fl.state = 3 || fget s pg Fl.state = 4 then finishOff id pg s else s

/-- FRAME_DONE of the oldest frame past FRAME_END (R327). -/
def doFrameDone (n : Port) (s : State) : State :=
  if (camSt s n).ended = 0 || !portQuiet s n then s else
  let s := updCam n (fun x => { x with ended := x.ended - 1 }) s
  let s := offAtFrame (pgTap n) (offAtFrame (pgIsp n) s)
  let st := fget s (pgCam n) Fl.state
  if (st = 3 || st = 4) && camMayOff s n then camOff n s else s

/-! ## Power faults and the pin test (R328, R330, R331) -/

/-- The port enters FAULT: nothing is captured, what was being received is lost, its batches close (R328, R329, R346). -/
def camFault (n : Port) (det : Nat) (s : State) : State :=
  let s := recordFault (pgCam n) 0x0A det s
  let s := if (camSt s n).frame.isSome then fbump (pgCam n) Fl.camErrCntCorrupt 1 s else s
  let s := (camRings n).foldl (fun s r => (openSamples s r).foldl (fun s m => finishSample r m.seq 6 0 m.info m.ext [] s) s) s
  let s := updCam n (fun x => { x with phase := .none, frame := none, cause := 0 }) s
  drivePwren n (stopPort n (failOn (pgCam n) s))

/-- FLT_N has been low for 10 us while PWREN is high (R328). -/
def doPwrFault (n : Port) (s : State) : State :=
  if !fon s (pgCam n) Fl.camPwrPwren then s else camFault n 8 (fset (pgCam n) Fl.camPwrFlt 1 s)

/-- The pin is one the port uses (R331). -/
def pinUsed (s : State) (n : Port) (i : Nat) : Bool := decide (16 ≤ i) || decide (i < camWidth s n)

/-- The pin test reports its findings (R330, R331). -/
def doPinTest (n : Port) (high low bridged : BitVec 19) (s : State) : State :=
  let pg := pgCam n
  if (camSt s n).phase ≠ .pinTest then s else
  let s := fsets pg [(Fl.camPinShortHiPins, high.toNat), (Fl.camPinShortLoPins, low.toNat), (Fl.camPinBridgePins, bridged.toNat)] s
  let found := fun (i : Nat) => if high.getLsbD i then 2 else if low.getLsbD i then 1 else if bridged.getLsbD i then 3 else 0
  match ((upTo 19).filter (pinUsed s n)).find? (fun i => found i ≠ 0) with
  | some i => camFault n (found i) s
  | none =>
    let s := if (upTo 19).any (fun i => found i ≠ 0) then recordEvent 0x1006 pg 0 0 0 (setIrq pg 11 s) else s
    drivePwren n (updCam n (fun x => { x with phase := .pwrDelay, since := s.us }) s)

/-- The camera start time has passed (R329). -/
def doPwrDelay (n : Port) (s : State) : State :=
  let x := camSt s n
  if x.phase ≠ .pwrDelay ∨ s.us < x.since + 1000 * fget s (pgCam n) Fl.camTestPwrDelay then s
  else updCam n (fun x => { x with phase := if fget s (pgCam n) Fl.camTestCheck = 0 then .waitVs else .startCheck, since := s.us }) s

/-! ## The start check (R332) -/

/-- Pixel of a line as received, 0 past its end. -/
def obsPixel (s : State) (n : Port) (o : CamObs) (line col : Nat) : Nat := camPixel s n ((nth 0 (nth [] o.frame line) col)).toNat

/-- CHECK = 1: line 2 holds the ramp, as received or reversed. -/
def rampHolds (s : State) (n : Port) (o : CamObs) (reversed : Bool) : Bool :=
  let w := camWidth s n
  let len := (nth [] o.frame 1).length
  decide (len = camW s n) && (upTo len).all (fun x =>
    let v := obsPixel s n o 1 x
    (if reversed then revBits w v else v) = (x * fget s (pgCam n) Fl.camTestRamp) % 2 ^ w)

/-- CHECK = 2: toggles of bit `b` between adjacent pixels over lines 16 to 79. -/
def bitToggles (s : State) (n : Port) (o : CamObs) (b : Nat) : Nat :=
  sumN ((upTo 64).map (fun l =>
    ((upTo ((nth [] o.frame (15 + l)).length - 1)).filter (fun x =>
      (obsPixel s n o (15 + l) x).testBit b != (obsPixel s n o (15 + l) (x + 1)).testBit b)).length))

/-- The bit order the check finds: false in order, true reversed, none undecided. -/
def bitOrder (s : State) (n : Port) (o : CamObs) : Option Bool :=
  let w := camWidth s n
  if fget s (pgCam n) Fl.camTestCheck = 1 then
    (if rampHolds s n o false then some false else if rampHolds s n o true then some true else none)
  else
    let lo := sumN ((upTo (w / 2)).map (bitToggles s n o))
    let hi := sumN ((upTo (w / 2)).map (fun i => bitToggles s n o (w - 1 - i)))
    if 2 * hi ≤ lo && decide (0 < lo) then some false else if 2 * lo ≤ hi && decide (0 < hi) then some true else none

/-- At least three of four phases last WIDTH cycles. -/
def phaseHolds (l : List Nat) (w : Nat) : Bool := decide (3 ≤ (l.filter (fun v => v = w)).length)

/-- The corrections found, in the bit order of CAM_MAP: REV, SWAP, INV_HS, INV_VS. -/
def checkFound (s : State) (n : Port) (o : CamObs) : Nat :=
  b2n (bitOrder s n o = some true) + 2 * b2n (decide (o.vsPeriod < o.hsPeriod))
    + 4 * b2n (!phaseHolds o.hsActive (camW s n) && phaseHolds o.hsInactive (camW s n)) + 8 * b2n (decide (o.vsInactive < o.vsActive))

/-- The start check judges what the port sees (R332). -/
def doStartCheck (n : Port) (o : CamObs) (s : State) : State :=
  let pg := pgCam n
  if (camSt s n).phase ≠ .startCheck then s else
  let fail := fun (det openPins : Nat) (s : State) =>
    camFault n det (fsets pg [(Fl.camPinOpenPins, openPins), (Fl.camCheckStatResult, 2)] s)
  if !o.pclk then fail 4 1 s
  else if !o.hs || !o.vs then fail 5 (2 * b2n (!o.hs) + 4 * b2n (!o.vs)) s
  else if !phaseHolds o.hsActive (camW s n) && !phaseHolds o.hsInactive (camW s n) then fail 6 0 s
  else
    let f := checkFound s n o
    let s := fsets pg [(Fl.camPinOpenPins, 0), (Fl.camCheckStatFound, f), (Fl.camCheckStatUndecided, b2n ((bitOrder s n o).isNone))] s
    let go := fun (s : State) => updCam n (fun x => { x with phase := .waitVs, since := s.us }) (fset pg Fl.camCheckStatResult 1 s)
    if f = 0 then go s
    else if fon s pg Fl.camTestAutoFix then
      let s := wr pg 0x108 (rd s pg 0x108 ^^^ BitVec.ofNat 32 f) s
      go (recordEvent 0x1005 pg 0 0 0 (setIrq pg 10 (fset pg Fl.camCheckStatApplied 1 s)))
    else
      let k := ((upTo 4).filter (fun i => f.testBit i)).length
      let s := (upTo (k - 1)).foldl (fun s _ => recordFault pg 0x0A 7 s) s
      fail 7 0 s

/-! ## The meanings -/

def execFrameBegin (n : Port) (s : State) : Host.Outcome State Fault Refusal := ok (doFrameBegin n s)
def execFrameEnd (n : Port) (lines : List (List (BitVec 16))) (s : State) : Host.Outcome State Fault Refusal := ok (doFrameEnd n lines s)
def execFrameTimeout (n : Port) (s : State) : Host.Outcome State Fault Refusal := ok (doFrameTimeout n s)
def execFrameDone (n : Port) (s : State) : Host.Outcome State Fault Refusal := ok (doFrameDone n s)
def execInputOverflow (n : Port) (s : State) : Host.Outcome State Fault Refusal :=
  ok (whenB (camSt s n).frame.isSome s (corruptFrame n 0x0E s))
def execOutputOverflow (n : Port) (s : State) : Host.Outcome State Fault Refusal := ok (corruptFrame n 4 s)
def execPwrFault (n : Port) (s : State) : Host.Outcome State Fault Refusal := ok (doPwrFault n s)
def execPinTest (n : Port) (high low bridged : BitVec 19) (s : State) : Host.Outcome State Fault Refusal := ok (doPinTest n high low bridged s)
def execPwrDelay (n : Port) (s : State) : Host.Outcome State Fault Refusal := ok (doPwrDelay n s)
def execStartCheck (n : Port) (obs : CamObs) (s : State) : Host.Outcome State Fault Refusal := ok (doStartCheck n obs s)
def execSampleStatusWrite (r : RingId) (s : State) : Host.Outcome State Fault Refusal := ok (writeStatus r s)
def execBatchDone (r : RingId) (s : State) : Host.Outcome State Fault Refusal := ok (batchDone r s)
/-- The length of a sample with which a ring's batch is filled: what a valid sample would have, or its buffer. -/
def closeExt (s : State) (r : RingId) : Nat := match r with
  | .cam n => camExt s n r
  | .tap n _ => camExt s n r
  | .chan _ _ => (ringSt s r).stride
/-- Word 2 of its records: the frame number for camera rings (R339). -/
def closeInfo (s : State) (r : RingId) : Nat := match r with
  | .cam n => fget s (pgCam n) Fl.camFrameCntFrames
  | .tap n _ => fget s (pgCam n) Fl.camFrameCntFrames
  | .chan _ _ => 0
def execBatchClose (r : RingId) (s : State) : Host.Outcome State Fault Refusal := ok (closeBatch r (closeInfo s r) (closeExt s r) s)
def execRingRel (who : Requester) (r : RingId) (count : Nat) (s : State) : Host.Outcome State Fault Refusal :=
  ok (guarded who (ringPage r) (ringOff r + 0x14) (ringRelease r (count % 64)) s)
def execCamClrErr (who : Requester) (n : Port) (s : State) : Host.Outcome State Fault Refusal :=
  ok (guarded who (pgCam n) 0x138 (zeroRegs (pgCam n) [0x130]) s)
def execCamClrAvoid (who : Requester) (n : Port) (s : State) : Host.Outcome State Fault Refusal :=
  ok (guarded who (pgCam n) 0x138 (zeroRegs (pgCam n) [0x134]) s)

end Sys2Proof.Machine
end

