-- ==== Sys2Proof/Machine/Engines.lean ====
section
/-! DEFINITION. The shared engines: slices, submissions, and what the warp, codec and tokenizer engines make of an entry
(10, R347 to R357). A sample is made in one step (log 46). -/

namespace Sys2Proof.Machine

/-! ## Slices (R347) -/

/-- The slice entry an engine runs. -/
def sliceNow (s : State) (e : SharedEng) : Nat := Tab.get 0 s.slices e

/-- The partition an entry serves; none for a disabled entry. -/
def sliceOwner (s : State) (e : SharedEng) (i : Nat) : Option Nat :=
  if fbit s (pgEng e) Fl.engSliceEnEn i then
    some (bitsOf (fget s (pgEng e) (if i < 16 then Fl.engSliceOwnPart 0 else Fl.engSliceOwnPart 1)) (2 * (i % 16)) 2)
  else none

/-- The entry ends and the next begins (R347). -/
def doSliceSwitch (e : SharedEng) (s : State) : State := { s with slices := Tab.put s.slices e ((sliceNow s e + 1) % 32) }

/-- A channel is served: its page is ON, it is enabled, and the entry is its owner's (R347, R349). -/
def chanServed (s : State) (e : SharedEng) (c : Chan) : Bool :=
  pageOn s (pgEng e) && fon s (pgEng e) (Fl.chOwnEn c.val)
    && decide (sliceOwner s e (sliceNow s e) = some (fget s (pgEng e) (Fl.chOwnPart c.val)))

/-! ## Submission (R350, R351) -/

/-- A GO in CHc_SUB_CTL (R350, R351). -/
def chSubmit (e : SharedEng) (c : Chan) (v : Word) (s : State) : State :=
  let pg := pgEng e
  let x := engChan s e c
  if !v.toNat.testBit 0 || fon s pg (Fl.chAutoEn c.val) then s
  else if 8 ≤ x.queue.length then fbump pg (Fl.chStatRefused c.val) 1 s
  else fillQueue e c (setEngChan e c { x with queue := x.queue ++
    [⟨fget s pg (Fl.chSubLoAddr c.val) + 2 ^ 32 * fget s pg (Fl.chSubHiAddr c.val), fget s pg (Fl.chSubHiBytes c.val), v.toNat.testBit 1, 0, none⟩] } s)

/-- What a channel made of an entry: cause, FLAGS, INFO, extent, bytes, and a fault of class 0x0B. -/
structure Made where
  cause : Nat := 0
  flags : Nat := 0
  info : Nat := 0
  ext : Nat := 0
  data : List Byte := []
  fault : Option Nat := none
  clip : Nat := 0
  /-- A read that is not served yet: nothing has been made. -/
  wait : Option Grant := none
  deriving DecidableEq, Repr

/-- The oldest entry of a served channel whose ring has a free buffer is taken, and its sample written (R339, R350,
R351). -/
def runEntry (e : SharedEng) (c : Chan) (make : WorkEnt → State → Made × State) (s : State) : State :=
  let r : RingId := .chan e c
  let s := ringSync r s
  let x := engChan s e c
  match x.queue with
  | [] => s
  | w :: rest =>
    if !chanServed s e c || ringGet s r 12 16 1 ≠ 1 || ringFree (ringSt s r) = 0 || (ringSt s r).closing then s else
    let before := s
    let s := fillQueue e c (setEngChan e c { x with queue := rest } s)
    let m := make w s
    if m.1.wait.isSome then m.1.wait.elim before (fun g => waitEffect (.channel e c) g before) else
    let s := match m.1.fault with
      | some d => recordFault (pgEng e) 0x0B d m.2
      | none => m.2
    let seq := (ringSt s r).seq
    let s := finishSample r seq m.1.cause m.1.flags m.1.info m.1.ext m.1.data (startSample r m.1.info m.1.ext s)
    match w.src with
    | some q => releaseBufs q 1 s
    | none => s

/-- A channel's read of `n` bytes at `a`: it waits while it is not served, and `bad` is the sample of one that gets an error
response (R23, R26, R315, R379). -/
def withRead (who : Requester) (a n : Nat) (bad : State → Made × State) (k : State → Made × State) (s : State) : Made × State :=
  match readWait s who a n with
  | some g => ({ wait := some g }, s)
  | none => if readBad s who a n then bad (noteRead who a n s) else k (noteRead who a n s)

/-! ## The warp engine (R352, R353) -/

/-- A field of a channel's block. -/
def wf (s : State) (f : Nat → Fld) (c : Chan) : Nat := fget s (pgEng .warp) (f c.val)

/-- Node (i, j) of a mesh: source x and y in 1/8 pixel. -/
def meshNode (s : State) (base nx i j : Nat) : Int × Int :=
  let w := (reqWord s (base + 4 * (j * nx + i))).toNat
  (signed 16 (w % 2 ^ 16), signed 16 (w / 2 ^ 16))

/-- Source position of an output pixel in 1/64 pixel, bilinear between its four nodes (R352). -/
def meshAt (s : State) (base nx ny pitch x y : Nat) : Int × Int :=
  let i := x / pitch
  let j := y / pitch
  let i1 := min (i + 1) (nx - 1)
  let j1 := min (j + 1) (ny - 1)
  let fx : Int := (x % pitch : Nat)
  let fy : Int := (y % pitch : Nat)
  let p : Int := pitch
  let mix := fun (g : Int × Int → Int) =>
    quotOpen (8 * ((p - fx) * (p - fy) * g (meshNode s base nx i j) + fx * (p - fy) * g (meshNode s base nx i1 j)
      + (p - fx) * fy * g (meshNode s base nx i j1) + fx * fy * g (meshNode s base nx i1 j1))) (p * p)
  (mix Prod.fst, mix Prod.snd)

/-- A quotient of naturals rounded half away from zero. -/
def divHalfUp (a d : Nat) : Nat := (2 * a + d) / (2 * d)

/-- An output element: none where its source lies outside the image or the block's window (R353). -/
def warpElem (src : Plane2) (nearest : Bool) (pos anchor : Int × Int) : Option Nat :=
  let w : Int := planeW src
  let h : Int := planeH src
  let ok1 := fun (v n a : Int) => decide (0 ≤ v ∧ v ≤ 64 * (n - 1) ∧ 64 * a ≤ v ∧ v ≤ 64 * (a + 127))
  if !(ok1 pos.1 w anchor.1 && ok1 pos.2 h anchor.2) then none
  else if nearest then
    let near := fun (v : Int) => if v % 64 = 32 then quotOpen v 64 else (v + 32) / 64
    some (px src (near pos.1).toNat (near pos.2).toNat)
  else
    let x := (pos.1 / 64).toNat
    let y := (pos.2 / 64).toNat
    let fx := (pos.1 % 64).toNat
    let fy := (pos.2 % 64).toNat
    some (divHalfUp ((64 - fx) * (64 - fy) * px src x y + fx * (64 - fy) * px src (x + 1) y
      + (64 - fx) * fy * px src x (y + 1) + fx * fy * px src (x + 1) (y + 1)) 4096)

/-- The least integer coordinate of a block's source positions. -/
def blockAnchor (pos : Nat → Nat → Int × Int) (w h x y : Nat) : Int × Int :=
  let ps := (upTo 32).flatMap (fun j => (upTo 32).filterMap (fun i =>
    let u := x / 32 * 32 + i
    let v := y / 32 * 32 + j
    if u < w ∧ v < h then some (pos u v) else none))
  let least := fun (f : Int × Int → Int) => match ps with
    | [] => 0
    | a :: r => r.foldl (fun m b => min m (f b)) (f a)
  (least Prod.fst / 64, least Prod.snd / 64)

/-- A plane of elements from memory: lines padded to 16 B (R336). -/
def loadPlane (s : State) (a w h elem : Nat) : Plane2 :=
  (upTo h).map (fun y => (upTo w).map (fun x => leNat (peekReq s (a + y * roundUpTo 16 (w * elem) + x * elem) elem)))

/-- First addresses of the planes of a planar sample. -/
def planeStarts (a elem : Nat) : List (Nat × Nat) → List Nat
  | [] => []
  | p :: r => a :: planeStarts (a + imgBytes p.1 p.2 elem) elem r

/-- The warp of one sample (R352, R353). -/
def warpMake (c : Chan) (w : WorkEnt) (s : State) : Made × State :=
  let sw := wf s Fl.warpChSrcDimWM1 c + 1
  let sh := wf s Fl.warpChSrcDimHM1 c + 1
  let dw := wf s Fl.warpChDstDimWM1 c + 1
  let dh := wf s Fl.warpChDstDimHM1 c + 1
  let fmt := if 5 ≤ wf s Fl.warpChFmtFmt c then 0 else wf s Fl.warpChFmtFmt c
  let elem := if wf s Fl.warpChFmtBits16 c = 1 then 2 else 1
  let nx := wf s Fl.warpChMeshNNx c
  let ny := wf s Fl.warpChMeshNNy c
  let pitch := 8 * 2 ^ wf s Fl.warpChMeshHiPitch c
  let mesh := wf s Fl.warpChMeshLoAddr c + 2 ^ 32 * wf s Fl.warpChMeshHiAddr c
  let ext := planarSize fmt dw dh elem
  let who : Requester := .channel .warp c
  let out : Made := { ext := ext, info := w.info }
  if w.invalid then ({ out with cause := 7 }, s)
  else if nx = 0 || ny = 0 || decide (129 < nx) || decide (97 < ny) || decide ((nx - 1) * pitch < dw - 1) || decide ((ny - 1) * pitch < dh - 1) then
    ({ out with cause := 0x0B, fault := some 3 }, s)
  else
    let bad := fun (s : State) => (({ out with cause := 0x0D } : Made), s)
    withRead who mesh (4 * nx * ny) bad (withRead who w.addr (planarSize fmt sw sh elem) bad (fun s =>
    let src := fmtPlanes fmt sw sh
    let at' := planeStarts w.addr elem src
    let planes := (upTo src.length).map (fun k =>
      let d := nth (0, 0) src k
      let img := loadPlane s (nth 0 at' k) d.1 d.2 elem
      let o := nth (0, 0) (fmtPlanes fmt dw dh) k
      let half := fmt = 3 && k != 0
      let pos := fun x y =>
        if half then
          let p := meshAt s mesh nx ny pitch (min (2 * x) (dw - 1)) (min (2 * y) (dh - 1))
          (quotOpen p.1 2, quotOpen p.2 2)
        else meshAt s mesh nx ny pitch x y
      (upTo o.2).map (fun y => (upTo o.1).map (fun x =>
        warpElem img (wf s Fl.warpChFmtNearest c = 1) (pos x y) (blockAnchor pos o.1 o.2 x y))))
    let fill := wf s Fl.warpChFmtFill c % 2 ^ (8 * elem)
    let clip := sumN (planes.map (fun p => sumN (p.map (fun r => (r.filter Option.isNone).length))))
    let data := planes.flatMap (fun p => packPlane elem (p.map (fun r => r.map (fun v => v.getD fill))))
    ({ out with data := data }, fbump (pgEng .warp) (Fl.warpChClipCount c.val) clip s))) s

/-! ## The codec engine (R354, R355) -/

def cdf (s : State) (f : Nat → Fld) (c : Chan) : Nat := fget s (pgEng .codec) (f c.val)

/-- The largest picture of a channel: CHc_DIM, no more than its partition's CODEC_MAXDIMp (R355). -/
def codecDim (s : State) (c : Chan) : Nat × Nat :=
  let p := cdf s Fl.chOwnPart c
  (min (cdf s Fl.codecChDimWM1 c) (fget s (pgEng .codec) (Fl.codecCodecMaxdimWM1 p)) + 1,
    min (cdf s Fl.codecChDimHM1 c) (fget s (pgEng .codec) (Fl.codecCodecMaxdimHM1 p)) + 1)

/-- The byte count of a picture reaches the minimum bits per block (R355). -/
def codecEnough (s : State) (mode bytes : Nat) (p : CodecPic) : Bool :=
  if mode = 3 then decide (2 * p.blocks ≤ 8 * bytes)
  else if p.intra then decide (p.blocks * fget s (pgEng .codec) Fl.codecCodecMinbitsIntra ≤ 16 * 8 * bytes)
  else decide (p.blocks * fget s (pgEng .codec) Fl.codecCodecMinbitsInter ≤ 256 * 8 * bytes)

/-- The reference of the channel is lost, or a picture has been added to it. -/
def setRefs (c : Chan) (bad : Bool) (refs : List (List Byte)) (s : State) : State :=
  setEngChan .codec c { engChan s .codec c with refBad := bad, refs := refs } s

/-- Decoding one access unit or JPEG image (R354, R355). -/
def decodeMake (c : Chan) (w : WorkEnt) (s : State) : Made × State :=
  let mode := cdf s Fl.codecChModeMode c
  let d := codecDim s c
  let who : Requester := .channel .codec c
  let big : Made := { ext := planarSize 3 d.1 d.2 1 }
  let video := mode != 3
  let lose := fun (m : Made) (s : State) => (m, if video then setRefs c true [] s else s)
  if w.invalid then lose { big with cause := 7 } s
  else withRead who w.addr w.bytes (lose { big with cause := 0x0D }) (fun s =>
    let au := peekReq s w.addr w.bytes
    let p := Config.codecParse mode au
    let x := engChan s .codec c
    if !p.headOk then lose { big with cause := 9 } s
    else if decide (d.1 < p.width) || decide (d.2 < p.height) || !p.levelOk then lose { big with cause := 8, fault := some 1 } s
    else if !codecEnough s mode w.bytes p then lose { big with cause := 8, fault := some 2 } s
    else
      let ext := planarSize 3 p.width p.height 1
      let out : Made := { ext := ext, flags := p.poc % 2 ^ 16, info := (p.width - 1) % 4096 + 2 ^ 16 * ((p.height - 1) % 4096) }
      if !p.bodyOk then lose { out with cause := 9 } s
      else if video && x.refBad && !p.idr then lose { out with cause := 0x0A } s
      else
        let refs := if p.idr || !video then [au] else x.refs ++ [au]
        let pic := padTo ext ((Config.codecDecode mode refs).take ext)
        ({ out with data := pic }, if video then setRefs c false refs s else s)) s

/-- Encoding one picture (R354). -/
def encodeMake (c : Chan) (w : WorkEnt) (s : State) : Made × State :=
  let mode := cdf s Fl.codecChModeMode c
  let who : Requester := .channel .codec c
  let size := planarSize 3 (cdf s Fl.codecChDimWM1 c + 1) (cdf s Fl.codecChDimHM1 c + 1) 1
  let stride := (ringSt s (.chan .codec c)).stride
  let x := engChan s .codec c
  if w.invalid then ({ cause := 7, ext := stride }, s)
  else withRead who w.addr size (fun s => ({ cause := 0x0D, ext := stride }, s)) (fun s =>
    let gop := cdf s Fl.codecChModeGop c
    let idr := if gop = 0 then x.pics = 0 else x.pics % gop = 0
    let refs := if idr then [peekReq s w.addr size] else x.refs ++ [peekReq s w.addr size]
    let au := Config.codecEncode mode (cdf s Fl.codecChModeQp c) refs
    let s := setEngChan .codec c { x with refs := refs, pics := x.pics + 1 } s
    ({ ext := au.length, info := au.length, data := au }, s)) s

/-! ## The tokenizer (R356, R357) -/

def tkf (s : State) (f : Nat → Fld) (c : Chan) : Nat := fget s (pgEng .token) (f c.val)

/-- A dictionary: its arrays and their lengths. -/
structure Dict where
  node : Nat
  edge : Nat
  nodes : Nat
  edges : Nat
  deriving DecidableEq, Repr

def dictOf (s : State) (c : Chan) : Dict :=
  ⟨tkf s Fl.tokenChNodeLoAddr c + 2 ^ 32 * tkf s Fl.tokenChNodeHiAddr c, tkf s Fl.tokenChEdgeLoAddr c + 2 ^ 32 * tkf s Fl.tokenChEdgeHiAddr c,
    tkf s Fl.tokenChDictNNodes c, tkf s Fl.tokenChDictEEdges c⟩

/-- What a walk over the trie finds. -/
inductive Walk where
  /-- The dictionary is malformed. -/
  | bad
  /-- A read was not served, at an address and of a length. -/
  | memErr (a n : Nat)
  /-- A token and the bytes it covers. -/
  | token (t n : Nat)
  | none
  deriving DecidableEq, Repr

/-- A read is served now. -/
def readServed (s : State) (who : Requester) (a n : Nat) : Bool := decide (grantRange s who false a n = .served)

/-- Walk from node `v` at depth `d`, with the deepest token so far (R357). -/
def trieWalk (s : State) (who : Requester) (k : Dict) : List Byte → Nat → Nat → Walk → Walk
  | bytes, v, d, best =>
    let na := k.node + 8 * v
    if !readServed s who na 8 then .memErr na 8 else
    let w0 := (reqWord s na).toNat
    let idx := bitsOf (reqWord s (na + 4)).toNat 0 24
    let cnt := bitsOf w0 19 9
    let best := if w0.testBit 18 && d != 0 then .token (bitsOf w0 0 18) d else best
    if k.edges < idx + cnt then .bad else
    match bytes with
    | [] => best
    | b :: rest =>
      if !readServed s who (k.edge + 4 * idx) (4 * cnt) then .memErr (k.edge + 4 * idx) (4 * cnt) else
      match (upTo cnt).find? (fun i => (reqWord s (k.edge + 4 * (idx + i))).toNat % 256 = b.toNat) with
      | none => best
      | some i =>
        let child := bitsOf (reqWord s (k.edge + 4 * (idx + i))).toNat 8 24
        if k.nodes ≤ child || 64 ≤ d then .bad
        else trieWalk s who k rest child (d + 1) best

/-- Bytes of the first code point, or of the maximal ill-formed subsequence, at the start of a text (R357). -/
def utf8Len : List Byte → Nat
  | [] => 0
  | a :: r =>
    let cont := fun (lo hi : Nat) (b : Byte) => within lo hi b.toNat
    let b := nth 0 r 0
    let c := nth 0 r 1
    let d := nth 0 r 2
    let two := fun (lo hi : Nat) => decide (1 ≤ r.length) && cont lo hi b
    let three := decide (2 ≤ r.length) && cont 0x80 0xBF c
    let four := decide (3 ≤ r.length) && cont 0x80 0xBF d
    let v := a.toNat
    let lead := fun (n lo hi : Nat) => if !two lo hi then 1 else if n = 2 then 2 else if !three then 2 else if n = 3 then 3 else if !four then 3 else 4
    if within 0xC2 0xDF v then lead 2 0x80 0xBF
    else if v = 0xE0 then lead 3 0xA0 0xBF
    else if v = 0xED then lead 3 0x80 0x9F
    else if within 0xE1 0xEF v then lead 3 0x80 0xBF
    else if v = 0xF0 then lead 4 0x90 0xBF
    else if v = 0xF4 then lead 4 0x80 0x8F
    else if within 0xF1 0xF3 v then lead 4 0x80 0xBF
    else 1

/-- What tokenizing gives: tokens so far, whether CHc_UNK was used, whether input is left, and a walk that failed. -/
structure Tokens where
  toks : List Nat := []
  unk : Bool := false
  more : Bool := false
  fail : Option Walk := none
  deriving DecidableEq, Repr

/-- Tokenize with at most `room` tokens; `fuel` bounds the rounds (R357). -/
def tokenLoop (s : State) (who : Requester) (k : Dict) (unk : Nat) : Nat → Nat → List Byte → Tokens → Tokens
  | 0, _, _, t => t
  | _, _, [], t => t
  | _, 0, _, t => { t with more := true }
  | fuel + 1, room + 1, text, t =>
    match trieWalk s who k text 0 0 .none with
    | .token tok n => tokenLoop s who k unk fuel room (text.drop n) { t with toks := t.toks ++ [tok] }
    | .none => tokenLoop s who k unk fuel room (text.drop (utf8Len text)) { t with toks := t.toks ++ [unk], unk := true }
    | w => { t with fail := some w }

/-- Tokenizing one entry (R357). -/
def tokenMake (c : Chan) (w : WorkEnt) (s : State) : Made × State :=
  let who : Requester := .channel .token c
  let n := tkf s Fl.tokenChMaxtokMaxtokM1 c + 1
  let out : Made := { ext := 4 * n }
  if w.invalid then ({ out with cause := 7 }, s)
  else withRead who w.addr w.bytes (fun s => ({ out with cause := 0x0D }, s)) (fun s =>
    let s := noteLines who false (dictOf s c).node 8 s
    let text := peekReq s w.addr w.bytes
    let t := tokenLoop s who (dictOf s c) (tkf s Fl.tokenChUnkToken c) (text.length + 1) n text {}
    match t.fail with
    | some (.memErr a l) => withRead who a l (fun s => ({ out with cause := 0x0D }, s)) (fun s => ({ out with cause := 0x0D }, s)) s
    | some _ => ({ out with cause := 0x0C, fault := some 4 }, s)
    | none =>
      let words := t.toks ++ List.replicate (n - t.toks.length) (tkf s Fl.tokenChPadToken c)
      ({ out with flags := b2n t.more + 2 * b2n t.unk, info := t.toks.length, data := words.flatMap (leBytes 4) }, s)) s

/-! ## The meanings -/

def execSliceSwitch (e : SharedEng) (s : State) : Host.Outcome State Fault Refusal := ok (doSliceSwitch e s)
def execChSubmit (who : Requester) (e : SharedEng) (c : Chan) (v : Word) (s : State) : Host.Outcome State Fault Refusal :=
  ok (guarded who (pgEng e) (Fl.chSubCtlGo c.val).off (chSubmit e c v) s)
def execWarpSample (c : Chan) (s : State) : Host.Outcome State Fault Refusal := ok (runEntry .warp c (warpMake c) s)
def execCodecDecode (c : Chan) (s : State) : Host.Outcome State Fault Refusal :=
  ok (whenB (within 1 3 (cdf s Fl.codecChModeMode c)) s (runEntry .codec c (decodeMake c) s))
def execCodecEncode (c : Chan) (s : State) : Host.Outcome State Fault Refusal :=
  ok (whenB (within 4 5 (cdf s Fl.codecChModeMode c)) s (runEntry .codec c (encodeMake c) s))
def execTokenize (c : Chan) (s : State) : Host.Outcome State Fault Refusal := ok (runEntry .token c (tokenMake c) s)

end Sys2Proof.Machine
end

