-- ==== Sys2Proof/Machine/Pages.lean ====
section
/-! DEFINITION. The common header's registers: enable and disable, soft reset, interrupts, faults, owner and locks (02,
R38 to R52). -/

namespace Sys2Proof.Machine

/-- CTRL.EN is written 1 (R48, R49). -/
def enablePage (pg : PageKey) (p : PartId) (s : State) : State :=
  let s := enableCore pg p s
  if pg.kind = .cam then camStart (portOf pg.inst) s else s

/-- CTRL.EN is written 0 (R48); a camera port with no frame in progress stops at once (R329, R346). -/
def disablePage (pg : PageKey) (s : State) : State :=
  let s := disableCore pg s
  let s := if pg.kind = .hubLlc && decide (fget s pg Fl.state = 3) then llcDrain (if pg.inst = 0 then 0 else 1) s else s
  if pg.kind = .cam then
    let n := portOf pg.inst
    let s := drivePwren n s
    if fget s pg Fl.state = 3 && (camSt s n).frame.isNone then stopPort n s else s
  else s

/-- CTRL.SOFT_RST is written 1 (R51). -/
def softRstPage (pg : PageKey) (s : State) : State :=
  if inTransition s pg then { s with softPend := if s.softPend.contains pg then s.softPend else s.softPend ++ [pg] }
  else softReset pg s

/-- A write of CTRL (R39, R51): with SOFT_RST = 1 the value of EN has no effect. -/
def ctrlWrite (pg : PageKey) (p : PartId) (v : Word) (s : State) : State :=
  if bitAt v 1 then softRstPage pg s
  else if bitAt v 0 then enablePage pg p s else disablePage pg s

/-- A write of IRQ_STAT: bits written 1 clear, except where the event arrives in the same cycle (R41, R42). -/
def irqClear (pg : PageKey) (bits arriving : Word) (s : State) : State := wr pg 0x010 ((rd s pg 0x010 &&& ~~~ bits) ||| arriving) s

/-- FAULT.CLR (R41). -/
def faultClear (pg : PageKey) (s : State) : State := fsets pg [(Fl.faultDetail, 0), (Fl.faultClass, 0), (Fl.faultMore, 0)] s

/-- A write of OWNER (R44, R46, R47). -/
def ownerSet (pg : PageKey) (v : Word) (s : State) : State :=
  if fon s pg Fl.lockOwn then recordFault pg 6 9 s
  else fset pg Fl.ownerShared (Fl.ownerShared.get v) (setOwnerPart (Fl.ownerPart.get v) s pg)

/-- A lock bit is written 1 (R44). -/
def lockSet (pg : PageKey) (f : Fld) (s : State) : State := fset pg f 1 s

end Sys2Proof.Machine
end

