-- ==== Sys2Proof/Machine/Ctx.lean ====
section
/-! DEFINITION. Saving and restoring a tile's context (11, R392 to R394, R404). The bytes of the control block have no
layout in the spec; the state keeps what they stand for, by the address of the save area (log 12). -/

namespace Sys2Proof.Machine

/-- Bytes of the control block: 96 KiB (R392). -/
def ctxBlock : Nat := 0x18000

/-- The job of a tile in the table of jobs. -/
def jobOfTile (s : State) (t : TileId) : Option JobRun :=
  match (tile s t).job.bind TileJob.jid with
  | some n => s.jobs.find? (fun j => decide (j.jid = n))
  | none => none

/-- SPAD_BANKS of a job (R381). -/
def jobBanks (j : JobRun) : Nat := bitsOf (j.words.getD 10 0).toNat 16 16

/-- Banks of a tile's save area: its job's SPAD_BANKS, or those TILE_CTX_CTL names while it has no job (log 12). -/
def areaBanks (s : State) (t : TileId) : Nat := match jobOfTile s t with
  | some j => jobBanks j
  | none => fget s (pgTile t) Fl.tileCtxCtlBanks

/-- The set bits of a 16-bit bank mask, ascending. -/
def banksIn (m : Nat) : List Nat := (upTo 16).filter (fun b => m.testBit b)

/-- Where the image of bank `b` lies in a save area at `a` of a job with the banks `m`: in ascending bank order at the
positions of all the job's banks (R392). -/
def bankImage (a m b : Nat) : Nat := a + ctxBlock + 0x10000 * ((banksIn m).filter (fun c => decide (c < b))).length

/-- Lines of a control block and `n` banks (R392). -/
def ctxLines (n : Nat) : Nat := 1536 + 1024 * n

/-- Address of the save area of a tile (R404). -/
def ctxAddr (s : State) (t : TileId) : Nat := fgetAddr s (pgTile t) Fl.tileCtxAddrLoAddr Fl.tileCtxAddrHiAddr

/-- Registers and window words that the control block holds (R392). -/
def inContext (t : TileId) (k : RegKey) : Bool :=
  k.pg.inst = t.val && (match k.pg.kind with
  | .tile => k.off = 0x104 || k.off = 0x108 || within 0x200 0x3FF k.off
  | .seq => within 0x100 0x108 k.off || within 0x120 0x14F k.off || k.off = 0x15C || within 0x400 0x8FF k.off || isWindow k.off
  | .vec => within 0x110 0x128 k.off || within 0x400 0xBFF k.off
  | .scale => isWindow k.off
  | .stats => within 0x200 0x2FF k.off
  | .strm0 | .strm1 => within 0x140 0x17F k.off || decide (0x400 ≤ k.off)
  | _ => false)

/-- The context of a tile as a save captures it. -/
def captureCtx (s : State) (t : TileId) (addr banks : Nat) : SavedCtx :=
  ⟨t, addr, s.regs.filter (fun e => inContext t e.1), tile s t, banks⟩

/-- A captured context enters tile `u`; its killed commands wait for FREEZE to clear, and what belongs to the tile itself
stays (R393). -/
def applyCtx (u : TileId) (c : SavedCtx) (s : State) : State :=
  let move := fun (k : RegKey) => ({ k with pg := ⟨k.pg.kind, u.val⟩ } : RegKey)
  let s := { s with regs := c.regs.map (fun e => (move e.1, e.2)) ++ s.regs.filter (fun e => !inContext u e.1) }
  let x := tile s u
  setTile u { c.ctx with
    epoch0 := x.epoch0
    epoch1 := x.epoch1
    kill := x.kill
    job := x.job
    spadZeroed := x.spadZeroed
    hbAt := x.hbAt
    hold := true } s

/-- A tile whose context has been saved is free: its channels disarm, and its queues, descriptors and job are gone from it
(R392). -/
def vacate (t : TileId) (s : State) : State :=
  let s := disarmChans t 1 (disarmChans t 0 s)
  let s := setLoops t [] (fsets (pgSeq t) [(Fl.seqStatusState, 0), (Fl.seqStatusStall, 0)] s)
  updTile t (entriesLeave (fun x => { x with
    job := none
    lane := []
    vec := []
    s0 := []
    s1 := []
    str0 := {}
    str1 := {}
    mc0 := []
    mc1 := []
    descs := []
    descPend := []
    hold := false
    haltFlush := false
    haltPc := none
    fenceWait := []
    resSent := 0 })) s

/-- Bytes of a control block in memory: a value the spec gives no layout for (log 12). -/
def blockBytes (s : State) (addr : Nat) : List Byte :=
  (upTo ctxBlock).map (fun (i : Nat) => BitVec.ofNat 8 (Config.openValue 12 [(addr : Int), (i : Int), (s.freeCtr : Int)]))

/-- Write the images of some banks. -/
def saveBanks (t : TileId) (addr all banks : Nat) (s : State) : State :=
  (banksIn banks).foldl (fun s b => poke (bankImage addr all b) (peek s (spadBase t + 0x10000 * b) 0x10000) s) s

/-- Read the images of some banks into tile `u`. -/
def loadBanks (u : TileId) (addr all banks : Nat) (s : State) : State :=
  (banksIn banks).foldl (fun s b => poke (spadBase u + 0x10000 * b) (peek s (bankImage addr all b) 0x10000) s) s

/-- A save completes. -/
def finishSave (t : TileId) (addr all banks : Nat) (s : State) : State :=
  let c := captureCtx s t addr banks
  let s := { s with saved := s.saved.filter (fun d => d.addr != addr) ++ [c] }
  let s := { poke addr (blockBytes s addr) s with freeCtr := s.freeCtr + 1 }
  vacate t (saveBanks t addr all banks s)

/-- A restore completes; an area that holds no context of the model's changes nothing (log 12). -/
def finishRestore (t : TileId) (addr all banks : Nat) (s : State) : State :=
  match s.saved.find? (fun d => d.addr = addr) with
  | some c => applyCtx t c (loadBanks t addr all banks s)
  | none => loadBanks t addr all banks s

/-- The parts of memory a save or restore moves: first address and bytes. -/
def ctxRanges (addr all banks : Nat) : List (Nat × Nat) := (addr, ctxBlock) :: (banksIn banks).map (fun b => (bankImage addr all b, 0x10000))

/-- The first line of some ranges that a requester does not get. -/
def grantRanges (s : State) (who : Requester) (write : Bool) (l : List (Nat × Nat)) : Grant :=
  (l.findSome? (fun r => match grantRange s who write r.1 r.2 with
    | .served => none
    | g => some g)).getD .served

/-- The save or restore in progress ends (R404). -/
def endCtx (t : TileId) (lines : Nat) (s : State) : State :=
  fsets (pgTile t) [(Fl.tileCtxStatBusy, 0), (Fl.tileCtxStatLines, min 0xFFFF lines)] { s with ctxRun := Tab.drop s.ctxRun (fun u => decide (u = t)) }

/-- The last line of a save or restore has moved (R392, R393, R404). An error response follows R185, and nothing is
moved. -/
def doCtxDone (t : TileId) (s : State) : State :=
  match s.ctxRun.find? (fun e => decide (e.1 = t)) with
  | none => s
  | some (_, save, lines) =>
    let addr := ctxAddr s t
    let all := areaBanks s t
    let banks := fget s (pgTile t) Fl.tileCtxCtlBanks
    match grantRanges s (.tile t .s0) save (ctxRanges addr all banks) with
    | .served =>
      let s := (ctxRanges addr all banks).foldl (fun s r => noteLines (.tile t .s0) save r.1 r.2 s) s
      endCtx t lines (if save then finishSave t addr all banks s else finishRestore t addr all banks s)
    | .error c d => tileError t .s0 (.error c d) (endCtx t lines s)
    | .errorOn pg c d x => tileError t .s0 (.errorOn pg c d x) (endCtx t lines s)
    | g => waitEffect (.tile t .s0) g s

/-- A save or restore starts: it is accepted only with FREEZE = 1, a save only with no kill in progress, and neither while
one is in progress (R404). -/
def startCtx (t : TileId) (save : Bool) (s : State) : State :=
  if fon s (pgTile t) Fl.tileCtxCtlFreeze && !ctxBusy s t && (!save || (tile s t).kill.isNone) then
    fset (pgTile t) Fl.tileCtxStatBusy 1
      { s with ctxRun := Tab.put s.ctxRun t (save, ctxLines (banksIn (fget s (pgTile t) Fl.tileCtxCtlBanks)).length) }
  else s

/-- BANKS and FREEZE are written; with FREEZE = 0 killed commands dispatch again (R393, R404). -/
def ctxSet (t : TileId) (banks : Nat) (freeze : Bool) (s : State) : State :=
  let s := fsets (pgTile t) [(Fl.tileCtxCtlBanks, banks), (Fl.tileCtxCtlFreeze, b2n freeze)] s
  if freeze then s else updTile t (fun x => { x with hold := false }) s

/-- A write of TILE_CTX_CTL (R404). -/
def ctxCtlWrite (t : TileId) (v : Word) (s : State) : State :=
  let s := unlocked (pgTile t) (ctxSet t (Fl.tileCtxCtlBanks.get v) (bitAt v 16)) s
  let s := if bitAt v 17 then startCtx t true s else s
  if bitAt v 18 then startCtx t false s else s

/-! ## The meanings -/

/-- CTX_FREEZE (R404): BANKS and FREEZE alone. -/
def execCtxFreeze (who : Requester) (t : TileId) (v : Word) (s : State) : Host.Outcome State Fault Refusal :=
  ok (guarded who (pgTile t) 0x508 (ctxCtlWrite t (v &&& 0x1FFFF)) s)
/-- CTX_SAVE (R392): with SAVE = 1. -/
def execCtxSave (who : Requester) (t : TileId) (v : Word) (s : State) : Host.Outcome State Fault Refusal :=
  ok (guarded who (pgTile t) 0x508 (ctxCtlWrite t ((v &&& 0x1FFFF) ||| 0x20000)) s)
/-- CTX_RESTORE (R393): with RESTORE = 1. -/
def execCtxRestore (who : Requester) (t : TileId) (v : Word) (s : State) : Host.Outcome State Fault Refusal :=
  ok (guarded who (pgTile t) 0x508 (ctxCtlWrite t ((v &&& 0x1FFFF) ||| 0x40000)) s)
/-- CTX_DONE (R404). -/
def execCtxDone (t : TileId) (s : State) : Host.Outcome State Fault Refusal := ok (doCtxDone t s)

end Sys2Proof.Machine
end

