-- ==== Sys2Proof/Machine/RegBus.lean ====
section
/-! DEFINITION. A 32-bit write of a register through the rules: the header, the access types, and what the write-only
fields of a tile's pages do (00, R9, R10; 02, R38 to R58; and the tile chapters). -/

namespace Sys2Proof.Machine

/-! ## The access types (R9) -/

/-- The W1C bits of a register. -/
def w1cMask (pg : PageKey) (off : Nat) : Word := match regSpec pg.kind off with
  | some (r, _) => BitVec.ofNat 32 r.w1c
  | none => 0

/-- A write of a register at 0x100 and above: RW bits are stored, TX and SH bits staged, W1C bits cleared; a lock holds the
RW and TX bits (R9, R46, R55, R65). What the write-only fields and side effects do is the caller's. -/
def plainWrite (pg : PageKey) (off : Nat) (v : Word) (s : State) : State :=
  let rw := if isWindow off then 0 else rwMask pg off
  let tx := txMask pg off
  let s :=
    if rw = 0 ∧ tx = 0 then s
    else if fon s pg Fl.lockCfg then recordFault pg 6 9 s
    else
      let s := if rw = 0 then s else wrMasked pg off v rw s
      if tx = 0 then s else stageTx pg off v s
  let s := if shMask pg off = 0 then s else stageSh pg off v s
  let w := w1cMask pg off
  if w = 0 then s else wr pg off (rd s pg off &&& ~~~ (v &&& w)) s

/-- TXN_CTRL (R53, R54, R58, R63). -/
def txnWrite (p : PartId) (pg : PageKey) (v : Word) (s : State) : State :=
  match bitsOf v.toNat 0 2 with
  | 1 => txnOpenBy p pg v s
  | 2 => txnCommitCore pg s
  | 3 => txnAbortCore pg s
  | _ => s

/-- What a write does on a page once it is allowed; `own` is what the registers at 0x100 and above do. -/
def writeAct (own : Requester → PageKey → Nat → Word → State → State) (who : Requester) (pg : PageKey) (off : Nat) (v : Word)
    (s : State) : State :=
  if 0x100 ≤ off then own who pg off v s
  else if off = 0x008 then ctrlWrite pg (reqPart s who) v s
  else if off = 0x014 then wr pg 0x014 v s
  else if off = 0x018 then irqClear pg v 0 s
  else if off = 0x01C then (if bitAt v 31 then faultClear pg s else s)
  else if off = 0x020 then txnWrite (reqPart s who) pg v s
  else if off = 0x028 then ownerSet pg v s
  else if off = 0x02C then
    let s := if bitAt v 0 then lockSet pg Fl.lockCfg s else s
    if bitAt v 1 then lockSet pg Fl.lockOwn s else s
  else s

/-- An aligned 32-bit write of a register by a requester, through every check. -/
def writeBy (own : Requester → PageKey → Nat → Word → State → State) (who : Requester) (pg : PageKey) (off : Nat) (v : Word)
    (s : State) : State :=
  guardedWord who pg off v (writeAct own who pg off v) s

/-! ## The pages of a tile -/

/-- A write of a TILE-page register at 0x100 and above (R163, R186, R189, R190, R404). -/
def tileOwn (t : TileId) (off : Nat) (v : Word) (s : State) : State :=
  if off = 0x400 then descLoad t (v.toNat % 2 ^ 16) s
  else if off = 0x410 then startKill t (killSet v) false s
  else if off = 0x418 then (if bitAt v 8 then resumeTile t s else s)
  else if off = 0x450 then (if bitAt v 31 then clearFinfo t s else s)
  else if off = 0x458 then slotFill t v s
  else if off = 0x508 then ctxCtlWrite t v s
  else plainWrite (pgTile t) off v s

/-- Apply every clear bit that is written 1. -/
def clearBits (pg : PageKey) (off : Nat) (v : Word) (s : State) : State :=
  (upTo 4).foldl (fun s i => if bitAt v i then clearBit pg off i s else s) s

/-- A write of a VEC-page register: a table a command uses takes the write when that command completes (R102). -/
def vecOwn (t : TileId) (off : Nat) (v : Word) (s : State) : State :=
  let x := tile s t
  match tableOf off with
  | some k =>
    if tableBusy x k || x.lutHeld.any (fun e => tableOf e.1 = some k) then
      unlocked (pgVec t) (updTile t (fun x => { x with lutHeld := x.lutHeld ++ [(off, v &&& rwMask (pgVec t) off, none)] })) s
    else plainWrite (pgVec t) off v s
  | none => if off = 0x14C then clearBits (pgVec t) off v s else plainWrite (pgVec t) off v s

/-- A write of a STATS-page register (R131). -/
def statsOwn (t : TileId) (off : Nat) (v : Word) (s : State) : State :=
  let pg := pgStats t
  if off = 0x118 then
    let s := if bitAt v 0 then statsClear t false s else s
    let s := if bitAt v 1 then statsClear t true s else s
    clearBits pg off (v &&& 0xC) s
  else if within 0x200 0x2FF off && decide (off % 16 = 0) then unlocked pg (statsWhWrite t ((off - 0x200) / 16) v) s
  else plainWrite pg off v s

/-- A write of a SEQ-page register or of one of its windows; writes of the counters while RUN are discarded (R194, R213,
R217). -/
def seqOwn (t : TileId) (off : Nat) (v : Word) (s : State) : State :=
  let pg := pgSeq t
  if 0x20000 ≤ off then unlocked pg (imemWrite t ((off - 0x20000) / 4) v) s
  else if off = 0x10C then seqStart t v s
  else if within 0x120 0x13F off && fget s pg Fl.seqStatusState = 1 then s
  else if off = 0x110 then (if bitAt v 31 then seqFaultClear t s else s)
  else if off = 0x170 then clearBits pg off v s
  else plainWrite pg off v s

/-- A write of a register of a tile's page at 0x100 and above. -/
def tilePageOwn (pg : PageKey) (off : Nat) (v : Word) (s : State) : State :=
  let t := tileOf pg.inst
  match pg.kind with
  | .tile => tileOwn t off v s
  | .seq => seqOwn t off v s
  | .vec => vecOwn t off v s
  | .stats => statsOwn t off v s
  | .lane => if off = 0x14C then clearBits pg off v s else plainWrite pg off v s
  | .spad => if off = 0x178 then clearBits pg off v s else plainWrite pg off v s
  | .strm0 | .strm1 => if off = 0x118 then clearBits pg off v s else plainWrite pg off v s
  | .scale => if off = 0x10C then clearBits pg off v s else plainWrite pg off v s
  | _ => plainWrite pg off v s

/-- A write into a tile's register block; an access that is not an aligned word is refused (R37). -/
def tileBlockWrite (who : Requester) (t : TileId) (off : Nat) (v : Word) (s : State) : State :=
  match tileSlot t off with
  | some (pg, o) => if off % 4 = 0 then writeBy (fun _ => tilePageOwn) who pg o v s else recordFault pg 6 8 s
  | none => s

end Sys2Proof.Machine
end

