-- ==== Sys2Proof/Machine/CalBase.lean ====
section
/-! DEFINITION. Caldera's modes, the tiles out of service, and the microsecond clock (12, R407, R424, R427, R438 to R441). -/

namespace Sys2Proof.Machine

/-- The CAL page is ON. -/
def calOn (s : State) : Bool := pageOn s pgCal

def calMode (s : State) : Nat := fget s pgCal Fl.calStatusMode

/-- Caldera works on evidence: its page is ON and no restart or fault holds it (R407). -/
def calRuns (s : State) : Bool := calOn s && (calMode s = 1 || calMode s = 2)

def updCal (f : CalSt → CalSt) (s : State) : State := { s with cal := f s.cal }

/-- Enter a mode: SAFE_FAULT_N is high only in NORMAL (R407, R441). -/
def calEnter (m : Nat) (s : State) : State :=
  let s := fsets pgCal [(Fl.calStatusMode, m), (Fl.calStatusSafeFault, b2n (m != 1))] s
  if m = 2 ∨ m = 3 then setIrq pgCal 10 s else s

/-- Enter FAULT, which only a package reset leaves (R407). -/
def calFail (s : State) : State := calEnter 3 (updCal (fun c => { c with failed := true }) s)

/-- Enter DEGRADED from NORMAL (R407). -/
def calDegrade (s : State) : State := if calMode s = 1 then calEnter 2 s else s

/-- Record a class 0x03 fault on the CAL page (R438). -/
def calFault (det : Nat) (s : State) : State := recordFault pgCal 3 det s

/-- The SAFETY partition (R405). -/
def safetyPart (s : State) : Option PartId :=
  allParts.find? (fun p => fon s (pgPart p) Fl.partCfgValid && fon s (pgPart p) Fl.partCfgSafety)

/-- A Geyser slice is missed (R424). -/
def geyMiss (s : State) : State :=
  if !calOn s then s else
  let n := fget s pgCal Fl.calStatusGmiss
  let s := setIrq pgCal 11 (fsets pgCal [(Fl.calStatusGmiss, min 3 (n + 1)), (Fl.calGeyStatResult, 3)] s)
  if n = 2 then calDegrade (calFault 0x13 s) else s

/-- The tile is out of service (R427, R440). -/
def tileOos (s : State) (t : TileId) : Bool := s.cal.out.contains t

/-- Take a tile out of service; `again` says that a passed test returns it (R427). -/
def takeOut (t : TileId) (again : Bool) (s : State) : State :=
  updCal (fun c => { c with
    out := if c.out.contains t then c.out else c.out ++ [t]
    retry := if again then (if c.retry.contains t then c.retry else c.retry ++ [t]) else c.retry.filter (fun u => u != t)
    outAt := Tab.put c.outAt t (s.us :: Tab.get [] c.outAt t) }) s

/-- A tile a self-test slice covers (R426). -/
def inSelfTest (s : State) (t : TileId) : Bool := match s.cal.st with
  | some x => decide (x.grp = t.val / 8)
  | none => false

/-- FABRIC cycles in a microsecond under the root in force (R455). -/
def fabricPerUs (s : State) : Nat := match fget s pgClk Fl.clkStatRoot with
  | 1 => 400
  | 2 => 1600
  | _ => 16

/-- The entry of a table that is a list. -/
def tabList {κ α : Type} [DecidableEq κ] (t : Tab κ (List α)) (k : κ) : List α := Tab.get [] t k

end Sys2Proof.Machine
end

