-- ==== Sys2Proof/Machine/Jobs.lean ====
section
/-! DEFINITION. Jobs: descriptors, submission, release, placement and pre-emption, loading, the deadline monitor, frame
windows and ends (11, R381 to R403; 12, R421, R424, R430). -/

namespace Sys2Proof.Machine

/-! ## The descriptor (R381) -/

/-- Word `i` of sixteen descriptor words, as a number. -/
def jw (w : List Word) (i : Nat) : Nat := (w.getD i 0).toNat

def jwId (w : List Word) : Nat := bitsOf (jw w 0) 0 16
def jwSafe (w : List Word) : Bool := (jw w 0).testBit 16
def jwFrame (w : List Word) : Bool := (jw w 0).testBit 18
def jwTrigger (w : List Word) : Nat := bitsOf (jw w 0) 19 2
def jwTiles (w : List Word) : Nat := bitsOf (jw w 0) 24 7
def jwProg (w : List Word) : Nat := jw w 2 + 2 ^ 32 * bitsOf (jw w 3) 0 8
def jwWset (w : List Word) : Nat := bitsOf (jw w 3) 16 16
def jwFallback (w : List Word) : Nat := jw w 4 + 2 ^ 32 * bitsOf (jw w 5) 0 8
def jwBudgets (w : List Word) : Nat := jw w 6 + 2 ^ 32 * bitsOf (jw w 7) 0 8
def jwMarks (w : List Word) : Nat := bitsOf (jw w 7) 24 5
def jwBudget (w : List Word) : Nat := jw w 8
def jwStart (w : List Word) : Nat := bitsOf (jw w 10) 0 12
def jwSave (w : List Word) : Nat := jw w 11 + 2 ^ 32 * bitsOf (jw w 12) 0 8
def jwBars (w : List Word) : Nat := jw w 13 + 2 ^ 32 * jw w 14

/-- The bits each word may hold: reserved fields are 0 (R381). -/
def jwMask : List Nat :=
  [0x7F1FFFFF, 0xFFFF, 0xFFFFFFFF, 0xFFFF00FF, 0xFFFFFFFF, 0xFF, 0xFFFFFFFF, 0x1F0000FF, 0xFFFFFFFF, 0xFFFFFFFF, 0xFFFF0FFF,
    0xFFFFFFFF, 0xFF, 0xFFFFFFFF, 0xFFFFFFFF, 0]

/-- The ring a BATCH trigger names (R382). -/
def triggerRing (code : Nat) : Option RingId :=
  if code < 12 then some (.cam (portOf code))
  else if within 0x10 0x3F code then some (.tap (portOf ((code - 0x10) / 4)) ⟨(code - 0x10) % 4, Nat.mod_lt _ (by decide)⟩)
  else if within 0x40 0x4F code then some (.chan .warp (chanOf (code - 0x40)))
  else if within 0x50 0x5F code then some (.chan .codec (chanOf (code - 0x50)))
  else if within 0x60 0x6F code then some (.chan .token (chanOf (code - 0x60)))
  else none

/-- The source ring belongs to the partition (R382). -/
def ringBelongs (s : State) (p : PartId) (code : Nat) : Bool := match triggerRing code with
  | some r => decide (reqPart s (ringWho r) = p)
  | none => false

/-- Tiles in a partition's mask. -/
def maskTiles (s : State) (p : PartId) : List TileId := allTiles.filter (inTileMask s p)

/-- The submission passes R384, its reads apart. -/
def descAccepted (s : State) (p : PartId) (w : List Word) : Bool :=
  (upTo 16).all (fun i => decide (jw w i &&& jwMask.getD i 0 = jw w i))
    && (!jwSafe w || (fon s (pgPart p) Fl.partCfgSafety && jwBudget w != 0))
    && within 1 96 (jwTiles w) && decide (jwTiles w ≤ (maskTiles s p).length)
    && jwTrigger w != 3 && (jwTrigger w != 1 || (decide (bitsOf (jw w 1) 8 8 = 0) && ringBelongs s p (bitsOf (jw w 1) 0 8)))
    && decide (jwMarks w ≤ 16) && decide (jwFallback w % 64 = 0)

/-! ## Reads of the firmware cores -/

/-- What a read for the firmware gives: the value, a wait, or a failure with the error response it met. -/
inductive Fetch (α : Type) where
  | got (v : α)
  | waits (g : Grant)
  | fails (g : Option Grant)

def Fetch.bind {α β : Type} (x : Fetch α) (f : α → Fetch β) : Fetch β := match x with
  | .got v => f v
  | .waits g => .waits g
  | .fails g => .fails g

/-- `n` words as a firmware core reads them. -/
def fetchWords (s : State) (who : Requester) (a n : Nat) : Fetch (List Word) :=
  match grantRange s who false a (4 * n) with
  | .served => .got (wordsOf (peekReq s a (4 * n)))
  | .error c d => .fails (some (.error c d))
  | .errorOn pg c d x => .fails (some (.errorOn pg c d x))
  | g => .waits g

/-- A load list up to its END record (R387). -/
def fetchList (s : State) (who : Requester) : Nat → Nat → Fetch (List Word)
  | 0, _ => .fails none
  | n + 1, a => (fetchWords s who a 2).bind (fun h =>
    let k := bitsOf (jw h 0) 0 2
    if k = 3 then .got h else
    let body := if k = 2 then 2 else bitsOf (jw h 0) 12 20
    (fetchWords s who (a + 8) body).bind (fun b =>
      (fetchList s who n (a + 8 + 4 * body)).bind (fun r => .got (h ++ b ++ r))))

/-- Records of a load list the firmware follows at most; its SRAM holds no longer list (R31). -/
def listFuel : Nat := 0x20000

/-- Mark budgets from their words (R381). -/
def marksOf : List Word → List MarkBudget
  | a :: b :: r => ⟨bitsOf a.toNat 0 8, b.toNat⟩ :: marksOf r
  | _ => []

/-- A descriptor with its mark budgets. -/
def fetchDesc (s : State) (p : PartId) (who : Requester) (a : Nat) : Fetch (List Word × List MarkBudget) :=
  (fetchWords s who a 16).bind (fun w =>
    if !descAccepted s p w then .fails none else
    (fetchWords s who (jwBudgets w) (2 * jwMarks w)).bind (fun m => .got (w, marksOf m)))

/-- Everything the firmware reads for a submission: the job, and its fallback with its load list (R383). -/
def fetchJob (s : State) (p : PartId) (a jid : Nat) : Fetch JobRun :=
  let who : Requester := .fw p false
  (fetchDesc s p who a).bind (fun d =>
    let j : JobRun := { jid := jid, part := p, words := d.1, marks := d.2, trig := decide (jwTrigger d.1 = 0) }
    if jwFallback d.1 = 0 || (jw d.1 0).testBit 17 then .got j else
    (fetchDesc s p who (jwFallback d.1)).bind (fun f =>
      (fetchList s who listFuel (jwProg f.1)).bind (fun l => .got { j with fbWords := f.1, fbMarks := f.2, fbLoad := l })))

/-- Record the error response a firmware read met (R379). -/
def noteFetch (who : Requester) (g : Option Grant) (s : State) : State := match g with
  | some (.error c d) => refuseReq who c d s
  | some (.errorOn pg c d x) => recordOn pg c d x s
  | _ => s

/-! ## Submission (R383, R384) -/

/-- Jobs of a partition in its queue. -/
def queuedJobs (s : State) (p : PartId) : List JobRun := s.jobs.filter (fun j => decide (j.part = p) && j.stage = .queued && !j.isFb)

/-- The submission is refused (R384). -/
def refuseJob (p : PartId) (s : State) : State :=
  recordFault (pgPart p) 5 0x0A (fbump (pgPart p) Fl.partJobStatRefused 1 s)

/-- The firmware runs: its cores are powered, and it has been started and not stopped (R473, R501). -/
def fwRuns (s : State) : Bool := pagePowered s pgXcore && s.boot.running

/-- The firmware takes a partition's oldest submission, if it runs and its reads are served. -/
def takeSubmit (p : PartId) (s : State) : State :=
  match s.submits.find? (fun x => decide (x.1 = p)) with
  | none => s
  | some x =>
    if !fwRuns s then s else
    let rest := { s with submits := s.submits.erase x }
    if 16 ≤ (queuedJobs s p).length then refuseJob p rest
    else match fetchJob s p x.2 s.nextJid with
      | .got j => noteLines (.fw p false) false x.2 64 { rest with jobs := s.jobs ++ [j], nextJid := s.nextJid + 1 }
      | .waits g => waitEffect (.fw p false) g s
      | .fails g => refuseJob p (noteFetch (.fw p false) g (noteLines (.fw p false) false x.2 64 rest))

/-- PART_JOB_SUB_HI is written: with GO the descriptor's address is submitted, and the firmware cores are woken (R383,
R447). -/
def jobSubWrite (p : PartId) (v : Word) (s : State) : State :=
  let s := plainWrite (pgPart p) 0x214 v s
  if Fl.partJobSubHiGo.get v = 0 then s else
  let a := fgetAddr s (pgPart p) Fl.partJobSubLoAddr Fl.partJobSubHiAddr
  let s := requestWake 23 p { s with submits := s.submits ++ [(p, a)] }
  takeSubmit p s

/-! ## Release (R385, R398) -/

def partCount (s : State) (p : PartId) : Nat := (Tab.get none s.partCnt p).getD 0
def cplOf (s : State) (p : PartId) : CplRing := Tab.get {} s.cpl p
def setCpl (p : PartId) (x : CplRing) (s : State) : State := { s with cpl := Tab.put s.cpl p x }
/-- Entries of a completion ring, and those free (R390). -/
def cplSize (s : State) (p : PartId) : Nat := fget s (pgPart p) Fl.partCplCfgNentM1 + 1
def cplFree (s : State) (p : PartId) : Nat := cplSize s p - (cplOf s p).held.length
def windowOf (s : State) (p : PartId) : Option FrameWin := Tab.get none s.window p

/-- The open window's reserve has begun (R398). -/
def inReserve (s : State) (p : PartId) : Bool := match windowOf s p with
  | some w => decide (w.start + (w.len - w.rsv) ≤ partCount s p)
  | none => false

/-- A queued job can be released now (R385, R398). -/
def canRelease (s : State) (j : JobRun) : Bool :=
  j.stage = .queued && j.trig && decide (0 < cplFree s j.part)
    && !(jwFrame j.words && fget s (pgPart j.part) Fl.partWinLenCycles != 0 && (windowOf s j.part).isSome)

/-- A release with FRAME_START opens the partition's window; with no window length the SAFETY partition misses a Geyser
slice (R398, R421, R424). -/
def openWindow (p : PartId) (s : State) : State :=
  let len := fget s (pgPart p) Fl.partWinLenCycles
  let rsv := fget s (pgPart p) Fl.partWinRsvCycles
  let safety := decide (safetyPart s = some p)
  let n := Tab.get 0 s.winNo p
  if len = 0 then (if safety then geyMiss s else s)
  else { s with
    window := Tab.put s.window p (some ⟨partCount s p, len, if safety then max rsv (ceilDiv len 50) else rsv, false⟩)
    winNo := Tab.put s.winNo p (n + 1) }

/-- Release a job: its entry is reserved and START is the counter (R385, R388). -/
def releaseJob (j : JobRun) (s : State) : State :=
  let p := j.part
  let r := cplOf s p
  let s := if jwFrame j.words then openWindow p s else s
  let s := setCpl p { next := (r.next + 1) % cplSize s p, held := r.held ++ [(r.next, false)] } s
  let s := { s with nextRel := s.nextRel + 1 }
  updJob j.jid (fun x => { x with
    stage := .released
    relNo := s.nextRel
    start := partCount s p
    entry := r.next
    winNo := Tab.get 0 s.winNo p - 1 }) s

/-- The firmware's turn for a partition: submissions that wait are taken, and one job that can be is released. -/
def doRelease (p : PartId) (s : State) : State :=
  let s := takeSubmit p s
  match s.jobs.find? (fun j => decide (j.part = p) && canRelease s j) with
  | some j => releaseJob j s
  | none => s

/-- Entries are released, oldest first; only written ones are held by software (R390). -/
def releaseCpl : Nat → List (Nat × Bool) → List (Nat × Bool)
  | n + 1, (_, true) :: r => releaseCpl n r
  | _, l => l

def cplRelease (p : PartId) (n : Nat) (s : State) : State :=
  let r := cplOf s p
  setCpl p { r with held := releaseCpl n r.held } s

/-! ## Placement (R386) and pre-emption (R391, R392) -/

/-- A job that holds the tiles and barriers it was placed with. -/
def holdsTiles (j : JobRun) : Bool := j.stage = .loading || j.stage = .running || j.stage = .restoring || j.stage = .ending

/-- A tile no job, slice or save holds. -/
def tileIdle (s : State) (p : PartId) (t : TileId) : Bool :=
  let x := tile s t
  inTileMask s p t && !tileOos s t && !inSelfTest s t && x.job.isNone && x.kill.isNone && !ctxBusy s t
    && !s.jobs.any (fun j => holdsTiles j && j.tiles.contains t && !j.left.contains t)

/-- Two jobs use a common barrier. -/
def barsMeet (a b : List Word) : Bool := decide (jwBars a &&& jwBars b ≠ 0)

/-- Jobs of the partition that hold a barrier of a job's mask, other than itself. -/
def barHolders (s : State) (p : PartId) (w : List Word) : List JobRun :=
  s.jobs.filter (fun j => decide (j.part = p) && holdsTiles j && barsMeet j.words w)

/-- The group of R386 a tile falls into. -/
def wsetGroup (s : State) (w : List Word) (t : TileId) : Nat :=
  let v := fget s (pgTile t) Fl.tileWsetWset
  if v = jwWset w ∧ v ≠ 0 then 0 else if v = 0 then 1 else 2

/-- Tiles in the order of the three groups, ascending within each (R386). -/
def byGroup (s : State) (w : List Word) (l : List TileId) : List TileId :=
  (upTo 3).flatMap (fun g => l.filter (fun t => decide (wsetGroup s w t = g)))

/-- Ascending order of tile id. -/
def ascending (l : List TileId) : List TileId := allTiles.filter l.contains

/-- The released job placement looks at: SAFE before QM, then the order of release (R385). -/
def placeHead (s : State) (p : PartId) : Option JobRun :=
  (s.jobs.filter (fun j => decide (j.part = p) && j.stage = .released)).foldl (fun b j => match b with
    | none => some j
    | some k => if jwSafe j.words && !jwSafe k.words then some j
        else if jwSafe j.words = jwSafe k.words && decide (j.relNo < k.relNo) then some j else some k) none

/-- Of a list of QM jobs the one that started last. -/
def lastStarted (l : List JobRun) : Option JobRun :=
  l.foldl (fun b j => match b with
    | none => some j
    | some k => if k.startNo < j.startNo then some j else some k) none

/-- Tiles of jobs that would come free, in service. -/
def freedBy (s : State) (vs : List JobRun) : List TileId := vs.flatMap (fun v => v.tiles.filter (fun t => !tileOos s t))

/-- Choose further QM jobs in reverse order of start until enough tiles are free (R391). -/
def chooseMore (s : State) (need : Nat) : Nat → List JobRun → List JobRun → Option (List JobRun)
  | 0, chosen, _ => if need ≤ (freedBy s chosen).length then some chosen else none
  | n + 1, chosen, rest =>
    if need ≤ (freedBy s chosen).length then some chosen else
    match lastStarted rest with
    | none => none
    | some v => chooseMore s need n (chosen ++ [v]) (rest.filter (fun j => j.jid != v.jid))

/-- The QM jobs a SAFE job pre-empts, if it can run by that (R391). -/
def victims (s : State) (j : JobRun) (idle : Nat) : Option (List JobRun) :=
  let holders := barHolders s j.part j.words
  let qm := s.jobs.filter (fun v => decide (v.part = j.part) && v.stage = .running && !jwSafe v.words)
  let first := qm.filter (fun v => barsMeet v.words j.words)
  if first.length != holders.length || first.any (fun v => jwSave v.words = 0) then none else
  let more := qm.filter (fun v => !barsMeet v.words j.words && jwSave v.words != 0)
  chooseMore s (jwTiles j.words - idle) more.length first more

/-- Set the control registers of a tile whose job is pre-empted, freeze it and kill its spans (R392). -/
def freezeTile (t : TileId) (addr banks : Nat) (s : State) : State :=
  let s := fsets (pgTile t) [(Fl.tileCtxAddrLoAddr, addr / 64), (Fl.tileCtxAddrHiAddr, addr / 2 ^ 32)] s
  startKill t allEngines false (ctxSet t banks true s)

/-- The barriers of a mask. -/
def barList (w : List Word) : List Nat := (upTo 64).filter (fun b => (jwBars w).testBit b)

/-- Bytes of one tile's save area (R392). -/
def areaSize (j : JobRun) : Nat := ctxBlock + 0x10000 * (banksIn (jobBanks j)).length

/-- A QM job is pre-empted whole: its tiles are frozen and killed, its barrier counts saved (R391, R392, R267, R403). -/
def preempt (by' : JobRun) (s : State) (v : JobRun) : State :=
  let s := (upTo v.tiles.length).foldl (fun s i => match v.tiles[i]? with
    | some t => freezeTile t (jwSave v.words + i * areaSize v) (jobBanks v &&& jobBanks by') s
    | none => s) s
  let s := updJob v.jid (fun x => { x with
    stage := .preempted
    wasPreempted := true
    bars := (barList v.words).map (fun b => (b, Tab.get 0 s.barriers (v.part, b))) }) s
  setIrq (pgPart v.part) 13 s

/-- The pages of a tile that a job uses, TILE first (R105). -/
def jobPages (t : TileId) : List PageKey := [pgTile t, pgSeq t, pgLane t, pgVec t, pgSpad t, pgStrm t 0, pgStrm t 1]

/-- The job takes its tiles and the firmware enables their pages (R105, R386, R387). -/
def placeOn (j : JobRun) (l : List TileId) (s : State) : State :=
  let tiles := ascending l
  let s := updJob j.jid (fun x => { x with
    stage := .loading
    tiles := tiles
    resident := tiles.filter (fun t => decide (wsetGroup s j.words t = 0)) }) s
  tiles.foldl (fun s t => (jobPages t).foldl (fun s pg => if fon s pg Fl.ctrlEn then s else enablePage pg j.part s) s) s

/-- Placement of the partition's next released job; one that cannot be placed holds back every job behind it (R385, R386,
R391, R398). -/
def doPlacement (p : PartId) (s : State) : State :=
  match placeHead s p with
  | none => s
  | some j =>
    if inReserve s p then s else
    let idle := (maskTiles s p).filter (tileIdle s p)
    let pref := j.prefer.filter idle.contains
    let order := pref ++ (byGroup s j.words idle).filter (fun t => !pref.contains t)
    let need := jwTiles j.words
    if (barHolders s p j.words).isEmpty && decide (need ≤ idle.length) then placeOn j (order.take need) s
    else if !jwSafe j.words then s
    else match victims s j idle.length with
      | none => s
      | some vs =>
        let more := byGroup s j.words (ascending (freedBy s vs))
        placeOn j ((order ++ more).take need) (vs.foldl (preempt j) s)

/-! ## Loading (R387, R388) -/

/-- A write of the firmware into a scratchpad through port C, line by line; the first refused line ends it. -/
def spadStore (who : Requester) (a : Nat) (d : List Byte) (s : State) : State × Option (Nat × Nat) :=
  (lineCuts a d.length).foldl (fun r c => match r.2 with
    | some _ => r
    | none =>
      match grantOf r.1 who true c.1 with
      | .served => (noteLine who true c.1 (poke (physAddr r.1 c.1) ((d.drop (c.1 - a)).take c.2) r.1), none)
      | .error cl det => (refuseReq who cl det r.1, some (cl, det))
      | .errorOn pg cl det x => (recordOn pg cl det x r.1, some (cl, det))
      | _ => r) (s, none)

/-- What the COPY records of a load list read. -/
def copySources : Nat → List Word → List (Nat × Nat)
  | n + 1, a :: _ :: r =>
    let k := bitsOf a.toNat 0 2
    let cnt := bitsOf a.toNat 12 20
    if k = 3 then []
    else if k = 2 then (jw r 0 + 2 ^ 32 * bitsOf (jw r 1) 0 8, 64 * cnt) :: copySources n (r.drop 2)
    else copySources n (r.drop cnt)
  | _, _ => []

/-- One record on one tile: REG through the register rules, SPAD and COPY through port C (R387). -/
def loadOne (who : Requester) (t : TileId) (kind off : Nat) (body : List Word) (cnt : Nat) (s : State) : State × Option (Nat × Nat) :=
  match kind with
  | 0 => ((upTo cnt).foldl (fun s i => tileBlockWrite who t (off + 4 * i) (body.getD i 0) s) s, none)
  | 1 => spadStore who (spadBase t + off) (body.flatMap wordBytes) s
  | _ =>
    let src := jw body 0 + 2 ^ 32 * bitsOf (jw body 1) 0 8
    match grantRange s who false src (64 * cnt) with
    | .error c d => (refuseReq who c d s, some (c, d))
    | .errorOn pg c d x => (recordOn pg c d x s, some (c, d))
    | _ => spadStore who (spadBase t + off) (peekReq s src (64 * cnt)) (noteLines who false src (64 * cnt) s)

/-- The load list, record by record, on the tiles each names; `only` names those that are
loaded, `skip` those of them that skip RESIDENT records, and after one is loaded TILE_WSET is set (R387). -/
def runList (who : Requester) (tiles only skip : List TileId) (wset : Nat) : Nat → List Word → State → State × Option (Nat × Nat)
  | n + 1, a :: b :: r, s =>
    let kind := bitsOf a.toNat 0 2
    let res := a.toNat.testBit 2
    let rel := bitsOf a.toNat 3 8
    let cnt := bitsOf a.toNat 12 20
    let off := bitsOf b.toNat 0 20
    let len := if kind = 2 then 2 else cnt
    if kind = 3 then (s, none) else
    let on := (if rel = 0xFF then tiles else (tiles[rel]?).toList).filter (fun t => only.contains t && !(res && skip.contains t))
    let x := on.foldl (fun (x : State × Option (Nat × Nat)) t => match x.2 with
      | some _ => x
      | none =>
        let y := loadOne who t kind off (r.take len) cnt x.1
        (if res && y.2.isNone then fset (pgTile t) Fl.tileWsetWset wset y.1 else y.1, y.2)) (s, none)
    match x.2 with
    | some _ => x
    | none => runList who tiles only skip wset n (r.drop len) x.1
  | _, _, s => (s, none)

/-- Every tile of a placed job is free of other contexts and its pages are ON. -/
def tilesReady (s : State) (j : JobRun) : Bool :=
  j.tiles.all (fun t => (tile s t).job.isNone && (tile s t).kill.isNone && !ctxBusy s t && (jobPages t).all (pageOn s))

/-- The tiles of a job become the job's. -/
def giveTiles (j : JobRun) (s : State) : State :=
  j.tiles.foldl (fun s t => updTile t (fun x => { x with
    job := some ⟨some j.jid, jwId j.words, j.part, jwSafe j.words, jwBars j.words, false⟩
    hbAt := s.us
    resSent := 0 }) (dropStopped t s)) s

/-- A job ends other than normally: nothing of it dispatches further, its spans are killed (R389, R396). -/
def abortJob (j : JobRun) (status : Nat) (s : State) : State :=
  let on := j.tiles.filter (fun t => decide ((tile s t).job.bind TileJob.jid = some j.jid))
  endingJob j.jid status none (on.foldl (fun s t => stopTile t s) s)

/-- A job of a partition by the model's number. -/
def findJob (s : State) (p : PartId) (jid : Nat) : Option JobRun := s.jobs.find? (fun j => decide (j.part = p ∧ j.jid = jid))

/-- The first of some ranges that must wait. -/
def firstWait (s : State) (who : Requester) (l : List (Nat × Nat)) : Option Grant :=
  l.findSome? (fun r => match grantRange s who false r.1 r.2 with
    | .served => none
    | .error _ _ => none
    | .errorOn _ _ _ _ => none
    | g => some g)

/-- The firmware loads a placed job's tiles and starts their sequencers (R387, R388). What it reads may have to wait; an
error response ends the job by a fault of no tile (R384). -/
def doStart (p : PartId) (jid : Nat) (s : State) : State :=
  match findJob s p jid with
  | none => s
  | some j =>
    if j.stage != .loading || !tilesReady s j then s else
    let who : Requester := .fw p (jwSafe j.words)
    match routeOf s .xd .cd with
    | .held k => waitEffect who (.atLink k) s
    | .noRoute => abortJob j 1 (updJob jid (fun x => { x with cause := some 0xF03 }) (refuseReq who 0x0F 3 s))
    | .path _ =>
    match (if j.isFb then Fetch.got j.load else fetchList s who listFuel (jwProg j.words)) with
    | .waits g => waitEffect who g s
    | .fails g =>
      let cause := match g with
        | some (.error c d) => 256 * c + d
        | some (.errorOn _ c d _) => 256 * c + d
        | _ => 0xF05
      abortJob j 1 (updJob jid (fun x => { x with cause := some cause }) (noteFetch who g s))
    | .got l =>
      match firstWait s who (copySources l.length l) with
      | some g => waitEffect who g s
      | none =>
        let s := giveTiles j s
        let r := runList who j.tiles j.tiles j.resident (jwWset j.words) l.length l s
        match r.2 with
        | some (c, d) => abortJob j 1 (updJob jid (fun x => { x with cause := some (256 * c + d) }) r.1)
        | none =>
          let s := (barList j.words).foldl (fun s b => setBarrier p b 0 s) r.1
          let s := j.tiles.foldl (fun s t =>
            let s := ctxSet t (fget s (pgTile t) Fl.tileCtxCtlBanks) false s
            writeBy (fun _ => tilePageOwn) who (pgSeq t) 0x10C (BitVec.ofNat 32 (jwStart j.words + 2 ^ 31)) s) s
          let s := { s with nextRel := s.nextRel + 1 }
          let s := updCal (fun c => { c with hb := j.tiles.foldl (fun h t => Tab.put h t s.us) c.hb }) s
          updJob jid (fun x => { x with stage := .running, startNo := s.nextRel }) s

/-! ## Resuming (R393) -/

/-- Every tile of a pre-empted job is free again, and no running job holds a barrier of its mask (R393). -/
def canResume (s : State) (j : JobRun) : Bool :=
  j.stage = .preempted && !inReserve s j.part && j.tiles.all (tileIdle s j.part) && (barHolders s j.part j.words).isEmpty
    && j.tiles.all (fun t => (jobPages t).all (pageOn s))

/-- A pre-empted job's restore starts once it may, and the job runs once every tile is restored (R393). -/
def doResume (p : PartId) (jid : Nat) (s : State) : State :=
  match findJob s p jid with
  | none => s
  | some j =>
    if canResume s j then
      let s := giveTiles j s
      let s := (upTo j.tiles.length).foldl (fun s i => match j.tiles[i]? with
        | some t =>
          let addr := jwSave j.words + i * areaSize j
          let banks := ((s.saved.find? (fun c => c.addr = addr)).map SavedCtx.banks).getD 0
          let s := fsets (pgTile t) [(Fl.tileCtxAddrLoAddr, addr / 64), (Fl.tileCtxAddrHiAddr, addr / 2 ^ 32)] s
          startCtx t false (ctxSet t banks true s)
        | none => s) s
      updJob jid (fun x => { x with stage := .restoring }) s
    else if j.stage = .restoring && j.tiles.all (fun t => !ctxBusy s t) then
      let s := j.bars.foldl (fun s b => setBarrier p b.1 b.2 s) s
      let s := j.tiles.foldl (fun s t => ctxSet t (fget s (pgTile t) Fl.tileCtxCtlBanks) false s) s
      updJob jid (fun x => { x with stage := .running, bars := [] }) s
    else s

/-! ## The deadline monitor (R395 to R399) -/

/-- The monitor watches the job: from its release to its end, and one that a fault is ending (R395, R396). -/
def watched (j : JobRun) : Bool := j.stage != .queued && (j.stage != .ending || j.status = 1)

/-- A miss is recorded and aborts the job; a fallback that misses has a detail of its own (R396, R397, R399). -/
def missJob (j : JobRun) (det mark status missed : Nat) (s : State) : State :=
  let pg := pgPart j.part
  let s := recordFault pg 0x0C det s
  let s := setIrq pg 10 (fsets pg [(Fl.partDlLastJobId, jwId j.words), (Fl.partDlLastMark, mark)] s)
  abortJob j status (updJob j.jid (fun x => { x with
    missed := missed
    cause := x.cause.orElse (fun _ => some (0xC00 + det))
    noFallback := x.noFallback || x.isFb || decide (det = 3) }) s)

/-- Mark `m` of the job's table has been reached on every tile. -/
def markReached (j : JobRun) (m : MarkBudget) : Bool := !j.tiles.isEmpty && j.tiles.all (fun t => j.reached.contains (m.mark, t))

/-- The counter value of entry `m` of the job's mark budgets has come and its mark has not been reached (R395). -/
def doMarkMissed (p : PartId) (jid m : Nat) (s : State) : State :=
  match findJob s p jid with
  | none => s
  | some j => match j.marks[m]? with
    | none => s
    | some b =>
      if watched j && !markReached j b && decide (j.start + b.deadline ≤ partCount s p)
      then missJob j (if j.isFb then 4 else 1) b.mark 2 b.mark s else s

/-- The counter value START + JOB_BUDGET has come and the job has not ended (R395). -/
def doBudgetMissed (p : PartId) (jid : Nat) (s : State) : State :=
  match findJob s p jid with
  | none => s
  | some j =>
    if watched j && jwBudget j.words != 0 && decide (j.start + jwBudget j.words ≤ partCount s p)
    then missJob j (if j.isFb then 4 else 2) 0xFF 2 0xFF s else s

/-- The reserve of the partition's open window begins: every job still running is aborted, and no fallback follows
(R398). -/
def doReserve (p : PartId) (s : State) : State :=
  match windowOf s p with
  | none => s
  | some w =>
    if w.reserved || !inReserve s p then s else
    let runs := s.jobs.filter (fun j => decide (j.part = p) && (j.stage = .loading || j.stage = .running || j.stage = .restoring))
    runs.foldl (fun s j => missJob j 3 0xFF 3 0 s) { s with window := Tab.put s.window p (some { w with reserved := true }) }

/-- The partition's window ends (R398). -/
def doWindowClose (p : PartId) (s : State) : State :=
  match windowOf s p with
  | some w => if w.start + w.len ≤ partCount s p then { s with window := Tab.put s.window p none } else s
  | none => s

/-! ## Ends (R389, R390, R397) -/

/-- Every tile has been left: all of a job that runs, or those that still held one that is ending. -/
def hasEnded (s : State) (j : JobRun) : Bool :=
  match j.stage with
  | .running => j.tiles.all j.left.contains
  | .ending => !s.tiles.any (fun e => decide (e.2.job.bind TileJob.jid = some j.jid))
  | _ => false

/-- The completion record of a job (R390). -/
def cplWords (j : JobRun) (fin : Nat) : List Word :=
  let st := if j.stage = .running then 0 else j.status
  [jwId j.words + 2 ^ 16 * st + 2 ^ 20 * b2n j.isFb + 2 ^ 21 * b2n j.wide + 2 ^ 22 * b2n j.wasPreempted + 2 ^ 24 * j.missed,
    j.cause.getD 0 + 2 ^ 16 * j.causeTile, j.start, j.start / 2 ^ 32, fin, fin / 2 ^ 32, jw j.words 9, j.tiles.length].map
      (fun v => BitVec.ofNat 32 v)

/-- Redirect entries to a job's tiles are cleared at its JOB_END (R430). -/
def clearRedirects (tiles : List TileId) (s : State) : State :=
  (upTo 4).foldl (fun s k =>
    if fon s pgCal (Fl.calRedirEn k) && tiles.any (fun t => decide (fget s pgCal (Fl.calRedirTo k) = t.val))
    then fset pgCal (Fl.calRedirEn k) 0 s else s) s

/-- A fallback as a job of its own (R397). -/
def fallbackOf (j : JobRun) (jid : Nat) : JobRun :=
  { jid := jid, part := j.part, words := j.fbWords, marks := j.fbMarks, load := j.fbLoad, isFb := true, trig := true, prefer := j.tiles }

/-- The job's completion record is written at `a` and the job leaves its partition's jobs (R389, R390). -/
def writeCpl (p : PartId) (j : JobRun) (a : Nat) (s : State) : State :=
  let fin := partCount s p
  let s := pokeReq (.fw p (jwSafe j.words)) a ((cplWords j fin).flatMap wordBytes) s
  let r := cplOf s p
  let s := setCpl p { r with held := r.held.map (fun e => if e.1 = j.entry then (e.1, true) else e) } s
  let s := setIrq (pgPart p) (if j.stage = .running then 8 else 9) s
  clearRedirects j.tiles { s with jobs := s.jobs.filter (fun x => x.jid != j.jid) }

/-- What a JOB_END sets off: Caldera takes a SAFE job, groups bound to JOB_END commit, no later group replaces
what the job's frame steps adapted, and the jobs that wait for this JOB_ID
are triggered (R58, R141, R385, R405). -/
def endSequel (p : PartId) (j : JobRun) (s : State) : State :=
  let s := if jwSafe j.words && decide (safetyPart s = some p)
    then updCal (fun c => { c with ended := c.ended ++ [⟨j, s.us, false⟩] }) s else s
  let s := j.tiles.foldl (fun s t => if (tile s t).frameStep then s else settleAdapted t s) (commitEvent p 2 0 .xd s)
  { s with jobs := s.jobs.map (fun x =>
    if decide (x.part = p) && x.stage = .queued && jwTrigger x.words = 2 && decide (bitsOf (jw x.words 1) 0 16 = jwId j.words)
    then { x with trig := true } else x) }

/-- The fallback of an aborted job is released at once (R397). -/
def startFallback (j : JobRun) (s : State) : State :=
  if j.stage = .running || decide (j.status = 1) || j.noFallback || j.isFb || j.fbWords.isEmpty then s else
  let f := fallbackOf j s.nextJid
  let s := { s with jobs := s.jobs ++ [f], nextJid := s.nextJid + 1 }
  if canRelease s f then releaseJob f s else s

/-- The job's JOB_END (R58, R385, R389, R390, R397, R405). -/
def doJobEnd (p : PartId) (jid : Nat) (s : State) : State :=
  match findJob s p jid with
  | none => s
  | some j =>
    if !hasEnded s j then s else
    let a := fgetAddr s (pgPart p) Fl.partCplBaseLoBase Fl.partCplBaseHiBase + 32 * j.entry
    match firstWait s (.fw p (jwSafe j.words)) [(a, 32)] with
    | some g => waitEffect (.fw p (jwSafe j.words)) g s
    | none => startFallback j (endSequel p j (writeCpl p j a s))

/-- PART_JOB_CANCEL with GO: the oldest job of that JOB_ID leaves the queue or is aborted (R389). -/
def jobCancel (p : PartId) (v : Word) (s : State) : State :=
  if Fl.partJobCancelGo.get v = 0 then s else
  match s.jobs.find? (fun j => decide (j.part = p) && j.stage != .ending && decide (jwId j.words = Fl.partJobCancelJobId.get v)) with
  | none => s
  | some j => if j.stage = .queued then { s with jobs := s.jobs.filter (fun x => x.jid != j.jid) } else abortJob j 4 s

/-! ## Time (R400, R401) -/

/-- SYNC tokens of a partition (R401). -/
def syncTokens (p : PartId) (v : Word) (s : State) : State :=
  (upTo 16).foldl (fun s k => if bitAt v k then commitEvent p 3 k .xd s else s) s

/-- A read of PART_CNT_LO latches the high half (R402). -/
def latchCount (p : PartId) (s : State) : State := fset (pgPart p) Fl.partCntHiCount (partCount s p / 2 ^ 32) s

/-! ## The meanings -/

def execJobRelease (p : PartId) (s : State) : Host.Outcome State Fault Refusal := ok (doRelease p s)
def execJobPlacement (p : PartId) (s : State) : Host.Outcome State Fault Refusal := ok (doPlacement p s)
def execJobStart (p : PartId) (j : Nat) (s : State) : Host.Outcome State Fault Refusal := ok (whenB (fwRuns s) s (doStart p j s))
def execJobEnd (p : PartId) (j : Nat) (s : State) : Host.Outcome State Fault Refusal := ok (doJobEnd p j s)
def execJobResume (p : PartId) (j : Nat) (s : State) : Host.Outcome State Fault Refusal := ok (whenB (fwRuns s) s (doResume p j s))
def execMarkMissed (p : PartId) (j m : Nat) (s : State) : Host.Outcome State Fault Refusal := ok (doMarkMissed p j m s)
def execJobBudgetMissed (p : PartId) (j : Nat) (s : State) : Host.Outcome State Fault Refusal := ok (doBudgetMissed p j s)
def execWindowReserve (p : PartId) (s : State) : Host.Outcome State Fault Refusal := ok (doReserve p s)
def execWindowClose (p : PartId) (s : State) : Host.Outcome State Fault Refusal := ok (doWindowClose p s)
def execPartCntRead (who : Requester) (p : PartId) (s : State) : Host.Outcome State Fault Refusal :=
  ok (whenB (partReaches s (reqPart s who) (pgPart p) && mayReadBy s (reqPart s who) (pgPart p) 0x200) s (latchCount p s))

end Sys2Proof.Machine
end

