-- ==== Sys2Proof/Machine/Caldera.lean ====
section
/-! DEFINITION. Caldera: its evidence intake, verdicts, modes and restarts, Geyser slices, rotating self-tests, and the
remap of a faulty tile (12). -/

namespace Sys2Proof.Machine

/-! ## What Caldera has of a job (R409 to R417) -/

def calJob (s : State) (jid : Nat) : CalJob := (s.cal.jobs.find? (fun c => decide (c.jid = jid))).getD { jid := jid }

/-- Change what Caldera has of a job. -/
def updCalJob (jid : Nat) (f : CalJob → CalJob) (s : State) : State :=
  let c := f (calJob s jid)
  updCal (fun k => { k with jobs := k.jobs.filter (fun d => d.jid != jid) ++ [c] }) s

/-- The first fault of a job that Caldera learns of. -/
def firstFault (cd : Nat) (t : TileId) (c : CalJob) : CalJob := if c.first.isSome then c else { c with first := some (cd, t) }

/-- A residue record of a SAFE job (R90, R411, R415, R416). A killed one that shows a failure marks the tile, as halted where the
tile is halted; a committed record of a tile so marked is that of the re-run, which makes the job RECOVERED. -/
def takeResidue (e : Evidence) (jid : Nat) (s : State) : State :=
  let n := fun i => nth 0 e.data i
  let bad := n 1 != 0 || n 3 != 0
  let killed := n 6 != 0
  let s := if bad && !killed then calFault 0x10 s else s
  updCalJob jid (fun c =>
    let c := { c with recv := Tab.put c.recv e.tile ((Tab.get 0 c.recv e.tile + 1) % 2 ^ 16) }
    let c := if bad then firstFault (if n 1 != 0 then 0x301 else 0x302) e.tile c else c
    let c := if !bad || !killed then c else if n 9 != 0 then { c with halted := (c.halted ++ [e.tile]).eraseDups }
      else { c with killed := (c.killed ++ [e.tile]).eraseDups }
    let c := if !killed && (c.halted ++ c.killed).contains e.tile then { c with recovered := true, killed := c.killed.filter (fun t => t != e.tile) } else c
    { c with residue := c.residue || (bad && !killed), range := c.range || (!killed && (n 7 != 0 || n 8 != 0)) }) s

/-- An output notice (R412, R416, R417). -/
def takeNotice (e : Evidence) (jid : Nat) (s : State) : State :=
  let n := fun i => nth 0 e.data i
  updCalJob jid (fun c =>
    let c := { c with range := c.range || n 3 != 0 }
    if c.bufs.any (fun b => b.handle = n 0) then
      { c with bufs := c.bufs.map (fun b => if b.handle = n 0 then { b with inv := b.inv + n 2 } else b) }
    else if 64 ≤ c.bufs.length then { c with tooMany := true }
    else { c with bufs := c.bufs ++ [⟨n 0, n 1, n 2⟩] }) s

/-- A heartbeat: a count of records that differs from what has been received is a residue failure (R410, R415); after a
restart nothing is compared. -/
def takeHeartbeat (e : Evidence) (jid : Nat) (s : State) : State :=
  let s := updCal (fun c => { c with hb := Tab.put c.hb e.tile s.us }) s
  let differs := !s.cal.cut.contains jid && decide (Tab.get 0 (calJob s jid).recv e.tile ≠ nth 0 e.data 0)
  let s := if differs then calFault 0x10 s else s
  updCalJob jid (fun c =>
    let c := if differs then firstFault 0x310 e.tile { c with residue := true } else c
    if nth 0 e.data 2 = 1 && !c.finals.contains e.tile then { c with finals := c.finals ++ [e.tile] } else c) s

/-- The oldest record reaches the intake (R409, R413): records of jobs that Caldera does not judge have no effect, and a
restart or a fault discards them (R405, R408). -/
def doEvidence (s : State) : State :=
  match s.evidenceIn with
  | [] => s
  | e :: r =>
    let s := { s with evidenceIn := r }
    if !calRuns s then s else
    let s := updCal (fun c => { c with taken := c.taken + 1 }) s
    if !e.safe || decide (safetyPart s ≠ some e.part) then s else
    match e.jid with
    | none =>
      if e.kind = .residue && (nth 0 e.data 1 != 0 || nth 0 e.data 3 != 0) then
        updCal (fun c => { c with gey := c.gey.map (fun g => { g with bad := g.bad ++ [e.tile] }) }) s
      else s
    | some n =>
      match e.kind with
      | .residue => takeResidue e n s
      | .adapt => if nth 0 e.data 3 = 2 then updCalJob n (fun c => { c with range := true }) s else s
      | .notice => takeNotice e n s
      | .heartbeat => takeHeartbeat e n s

/-- A tile belongs to a running SAFE job. -/
def runsSafe (s : State) (t : TileId) : Bool := match (tile s t).job with
  | some j => j.safe && j.jid.isSome
  | none => false

/-- A tile's periodic heartbeat is due: 10 us after the one before (R410). -/
def doHeartbeat (t : TileId) (s : State) : State :=
  if runsSafe s t && decide ((tile s t).hbAt + 10 ≤ s.us) then heartbeat t false s else s

/-- No heartbeat of a tile has arrived within CAL_HB_LIMIT: it is lost (R410). -/
def doTileLost (t : TileId) (s : State) : State :=
  let part := match (tile s t).job with
    | some j => decide (safetyPart s = some j.part)
    | none => false
  if calRuns s && runsSafe s t && part && !s.cal.lost.contains t
      && decide (Tab.get 0 s.cal.hb t + fget s pgCal Fl.calHbLimitUs < s.us) then
    let s := calFault 0x11 (updCal (fun c => { c with lost := c.lost ++ [t] }) s)
    match (tile s t).job.bind TileJob.jid with
    | some n => updCalJob n (fun c => firstFault 0x311 t { c with lost := c.lost ++ [t] }) s
    | none => s
  else s

/-! ## Verdicts (R414 to R420) -/

/-- All evidence of an ended job has arrived: the last heartbeat of each of its tiles. -/
def evidenceDone (s : State) (j : JobRun) : Bool := j.tiles.all (calJob s j.jid).finals.contains

/-- A job's evidence is incomplete CAL_EVID_LIMIT after its JOB_END (R417). -/
def doEvidTimeout (jid : Nat) (s : State) : State :=
  updCal (fun c => { c with ended := c.ended.map (fun e =>
    if e.job.jid = jid && !evidenceDone s e.job && decide (e.us + fget s pgCal Fl.calEvidLimitUs ≤ s.us) then { e with late := true } else e) }) s

/-- Entries of the verdict ring. -/
def vringSize (s : State) : Nat := fget s pgCal Fl.calVringCfgNentM1 + 1
def vringFree (s : State) : Nat := vringSize s - s.cal.used

/-- The word of a verdict record that carries VERDICT. -/
def verdictOf (w : List Word) : Nat := bitsOf (w.getD 0 0).toNat 16 3

/-- A record goes into the ring (R418, R419). A write the firewall or memory refuses is recorded on the CAL page. -/
def ringVerdict (p : PartId) (v : VerdictRec) (s : State) : State :=
  let next := fget s pgCal Fl.calVringStatNext
  let a := fgetAddr s pgCal Fl.calVringBaseLoBase Fl.calVringBaseHiBase + 32 * next
  let s := match grantRange s (.fw p true) true a 32 with
    | .error c d => recordFault pgCal c d s
    | .errorOn pg c d x => recordOn pg c d x s
    | _ => noteLines (.fw p true) true a 32 (pokeWords (physAddr s a) v.words s)
  let s := fset pgCal Fl.calVringStatNext ((next + 1) % vringSize s) (updCal (fun c => { c with used := c.used + 1 }) s)
  let s := fbump pgCal (Fl.calVcntCount (verdictOf v.words)) 1 s
  let s := setIrq pgCal 8 s
  let s := if verdictOf v.words = 0 then s else setIrq pgCal 9 s
  updCal (fun c => { c with log := c.log.filter (fun w => decide (w.win = v.win)) ++ [v] }) s

/-- What keeps the next entry of the ring from being written now: a link, a subchannel or a way (R23, R26, R296, R315). -/
def vringWait (s : State) (p : PartId) : Option Grant :=
  firstWait s (.fw p true) [(fgetAddr s pgCal Fl.calVringBaseLoBase Fl.calVringBaseHiBase + 32 * fget s pgCal Fl.calVringStatNext, 32)]

/-- A record is written, or held in SRAM while the ring is full or its memory is not in service; the 257th held one puts Caldera
in DEGRADED (R419). -/
def putVerdict (p : PartId) (s : State) (v : VerdictRec) : State :=
  if s.cal.held.isEmpty && decide (0 < vringFree s) && (vringWait s p).isNone then ringVerdict p v s
  else
    let s := updCal (fun c => { c with held := c.held ++ [v] }) s
    if s.cal.held.length = 257 then calDegrade s else s

/-- The job ended by abort or fault. -/
def badEnd (j : JobRun) : Bool := j.stage = .ending

/-- The conditions that hold for an ended job: residue, golden (never here), range, late (R414 to R417). -/
def reasons (s : State) (e : EndedJob) : Nat :=
  let c := calJob s e.job.jid
  let abnormal := badEnd e.job
  let residue := c.residue || !c.lost.isEmpty || !c.halted.isEmpty || !c.killed.isEmpty
  let late := e.late || c.tooMany || abnormal || s.cal.cut.contains e.job.jid
  b2n residue + 4 * b2n c.range + 8 * b2n late

/-- VERDICT of a set of conditions, in the order of R414. -/
def verdictBy (r : Nat) : Nat := if r.testBit 0 then 1 else if r.testBit 1 then 3 else if r.testBit 2 then 2 else if r.testBit 3 then 4 else 0

/-- The words of a verdict record (R418). -/
def verdictWords (s : State) (p : PartId) (e : EndedJob) (verdict r handle base inv : Nat) : List Word :=
  let c := calJob s e.job.jid
  let time := partCount s p
  let cause := match c.first with
    | some (cd, t) => (cd, t.val)
    | none => (e.job.cause.getD 0, if e.job.cause.isSome then e.job.causeTile else 0x7F)
  [jwId e.job.words + 2 ^ 16 * verdict + 2 ^ 19 * b2n e.job.isFb + 2 ^ 20 * b2n (inv != 0) + 2 ^ 21 * b2n c.recovered
      + 2 ^ 23 * b2n (calMode s = 2) + 2 ^ 24 * r,
    handle + 2 ^ 16 * (e.job.winNo % 2 ^ 16), base, base / 2 ^ 32 % 256 + 2 ^ 16 * min 0xFFFF inv, time, time / 2 ^ 32, jw e.job.words 9,
    cause.1 + 2 ^ 16 * cause.2].map (fun v => BitVec.ofNat 32 v)

/-- The records of an ended job: one for each output buffer, or one for the whole job when it ended by abort or fault
(R414, R420), or when a restart has discarded the names of its buffers (log 50). -/
def verdictsFor (s : State) (p : PartId) (e : EndedJob) : List VerdictRec :=
  let c := calJob s e.job.jid
  let r := reasons s e
  let mk := fun w => (⟨e.job.winNo, e.job.tiles, w⟩ : VerdictRec)
  if badEnd e.job then
    let v := if r.testBit 0 then 1 else 4
    [mk (verdictWords s p e v r 0xFFFF 0 0)]
  else if c.bufs.isEmpty && s.cal.cut.contains e.job.jid then [mk (verdictWords s p e (verdictBy r) r 0xFFFF 0 0)]
  else c.bufs.map (fun b => mk (verdictWords s p e (verdictBy r) r b.handle b.base b.inv))

/-- An amendment of a verdict record (R423). -/
def amend (s : State) (p : PartId) (v : VerdictRec) : VerdictRec :=
  let w0 := v.words.getD 0 0
  let w0 := (w0 &&& ~~~ maskOf 16 3) ||| BitVec.ofNat 32 (3 * 2 ^ 16 + 2 ^ 22 + 2 ^ 25 + b2n (calMode s = 2) * 2 ^ 23)
  let time := partCount s p
  { v with words := ((v.words.set 0 w0).set 4 (BitVec.ofNat 32 time)).set 5 (BitVec.ofNat 32 (time / 2 ^ 32)) }

/-- The tiles of a group. -/
def groupTiles (g : Nat) : List TileId := (upTo 8).map (fun x => tileOf (8 * (g % 12) + x))

/-- The amendments of records whose window's Geyser slice has already failed (R423). -/
def lateAmends (s : State) (p : PartId) (l : List VerdictRec) : List VerdictRec :=
  match s.cal.geyFail with
  | some (win, g) => (l.filter (fun v => decide (v.win = win) && v.tiles.any (groupTiles g).contains)).map (amend s p)
  | none => []

/-- The verdicts of one ended job are formed and it is forgotten. -/
def giveVerdicts (p : PartId) (e : EndedJob) (s : State) : State :=
  let vs := verdictsFor s p e
  let s := (vs ++ lateAmends s p vs).foldl (putVerdict p) s
  updCal (fun c => { c with
    ended := c.ended.filter (fun d => d.job.jid != e.job.jid)
    jobs := c.jobs.filter (fun d => d.jid != e.job.jid)
    cut := c.cut.filter (fun n => n != e.job.jid) }) s

/-- Caldera writes the oldest held record, or else the verdicts of the job whose JOB_END came first, once its evidence is
complete or it is late (R414, R417, R419). -/
def doVerdict (s : State) : State :=
  match safetyPart s with
  | none => s
  | some p =>
    if !calRuns s then s else
    match s.cal.held with
    | v :: r =>
      if vringFree s = 0 then s else
      match vringWait s p with
      | some g => waitEffect (.fw p true) g s
      | none => ringVerdict p v (updCal (fun c => { c with held := r }) s)
    | [] => match s.cal.ended with
      | [] => s
      | e :: _ => if e.late || s.cal.cut.contains e.job.jid || evidenceDone s e.job then giveVerdicts p e s else s

/-- Every pending verdict is written with LATE: TURNING_OFF of the CAL page (R439). -/
def flushVerdicts (s : State) : State :=
  match safetyPart s with
  | none => s
  | some p => s.cal.ended.foldl (fun s e => giveVerdicts p { e with late := true } s) s

/-! ## Modes and restarts (R407, R408) -/

/-- Jobs of the SAFETY partition that Caldera has or will have evidence of. -/
def judgedJobs (s : State) : List Nat :=
  (s.jobs.filter (fun j => jwSafe j.words && decide (safetyPart s = some j.part) && j.stage != .queued && j.stage != .released)).map JobRun.jid
    ++ s.cal.ended.map (fun e => e.job.jid)

/-- The two cores or intake units disagree (R408): all evidence in progress is discarded and Caldera restarts; a second
mismatch within 1 s is a fault. -/
def doLockstep (s : State) : State :=
  if !(calRuns s || (calOn s && fon s pgCal Fl.calStatusRestart)) then s else
  let second := match s.cal.lockAt with
    | some u => decide (s.us < u + 1000000)
    | none => false
  let s := calFault 0x15 s
  let cut := judgedJobs s
  let s := updCal (fun c => { c with lockAt := some s.us, jobs := [], cut := cut, gey := c.gey.map (fun g => { g with bad := [] }) }) { s with evidenceIn := [] }
  if second then calFail s
  else setIrq pgCal 14 (fbump pgCal Fl.calStatusRestarts 1 (fset pgCal Fl.calStatusRestart 1 (calEnter 0 s)))

/-- The restart's self-test ends (R408): jobs whose JOB_END has come are LATE. -/
def doRestartDone (pass : Bool) (s : State) : State :=
  if !calOn s || !fon s pgCal Fl.calStatusRestart then s else
  let s := fset pgCal Fl.calStatusRestart 0 s
  if !pass then calFail (setIrq pgCal 13 (fbump pgCal Fl.calStStatFailed 1 (calFault 0x14 s)))
  else calEnter 1 (updCal (fun c => { c with ended := c.ended.map (fun e => { e with late := true }) }) s)

/-- CAL_FW_HB (R409). -/
def fwBeat (v : Word) (s : State) : State :=
  if bitAt v 0 then fset pgCal Fl.calStatusFwHbLost 0 (updCal (fun c => { c with fwAt := s.us }) s) else s

/-- No firmware heartbeat within CAL_FW_HB_LIMIT (R407, R409). -/
def doFwLost (s : State) : State :=
  if calRuns s && !fon s pgCal Fl.calStatusFwHbLost && decide (s.cal.fwAt + fget s pgCal Fl.calFwHbLimitUs < s.us) then
    calDegrade (calFault 0x17 (fset pgCal Fl.calStatusFwHbLost 1 s))
  else s

/-- CLR_DEGRADED (R407): the last Geyser slice passed and the firmware heartbeat is present. -/
def clrDegraded (s : State) : State :=
  if calOn s && calMode s = 2 && fget s pgCal Fl.calGeyStatResult = 1 && !fon s pgCal Fl.calStatusFwHbLost then calEnter 1 s else s

/-- An uncorrectable error in Caldera's SRAM (R407, R438). -/
def doCalEcc (s : State) : State := if calOn s then calFail (calFault 0x16 s) else s

/-- CAL_VRING_REL (R419): a release of more entries than are written frees all of them. -/
def vringRelease (n : Nat) (s : State) : State := updCal (fun c => { c with used := c.used - n }) s

/-- CAL_TILE_FORCE (R440); the tile returns by R427. -/
def tileForce (v : Word) (s : State) : State :=
  let n := Fl.calTileForceTile.get v
  if bitAt v 8 && decide (n < 96) then takeOut (tileOf n) true s else s

/-- A 1 ms interval has ended: the fraction of its intake cycles that held a record (R413). -/
def doCalLoad (s : State) : State :=
  if s.us / 1000 ≤ s.cal.loadAt then s else
  let room := 1000 * (fabricPerUs s * 6 / 16)
  fset pgCal Fl.calLoadLoad (min 1024 (s.cal.taken * 1024 / room)) (updCal (fun c => { c with taken := 0, loadAt := s.us / 1000 }) s)

/-! ## Geyser (R421 to R424) -/

/-- Tiles of a group that a Geyser slice tests: in the SAFETY partition's mask and in service (R422). -/
def geyTiles (s : State) (p : PartId) (g : Nat) : List TileId := (groupTiles g).filter (fun t => inTileMask s p t && !tileOos s t)

/-- The group the next slice selects (R422). -/
def nextGroup (s : State) (p : PartId) : Option Nat :=
  ((upTo 12).map (fun i => (fget s pgCal Fl.calGeyStatLastTg + 1 + i) % 12)).find? (fun g => !(geyTiles s p g).isEmpty)

/-- The golden patch runs on a tile. -/
def onPatch (s : State) (t : TileId) : Bool := match (tile s t).job with
  | some j => j.jid.isNone
  | none => false

/-- The firmware loads the golden patch on every tile of the slice that is ready and starts it (R422); a load list it
cannot read leaves the slice to be missed. -/
def loadPatch (p : PartId) (g : GeySlice) (s : State) : State :=
  let who : Requester := .fw p true
  let s := g.tiles.foldl (fun s t => (jobPages t).foldl (fun s pg => if fon s pg Fl.ctrlEn then s else enablePage pg p s) s) s
  let ready := g.tiles.filter (fun t => tileIdle s p t && (jobPages t).all (pageOn s) && fget s (pgSeq t) Fl.seqStatusState != 2)
  match fetchList s who listFuel (fgetAddr s pgCal Fl.calGeyListLoAddr Fl.calGeyListHiAddr) with
  | .waits w => waitEffect who w s
  | .fails w => noteFetch who w s
  | .got l =>
    let s := ready.foldl (fun s t => updTile t (fun x => { x with job := some ⟨none, 0, p, true, 0, false⟩, hbAt := s.us, resSent := 0 }) (dropStopped t s)) s
    let s := (runList who (groupTiles g.tg) ready [] 0 l.length l s).1
    ready.foldl (fun s t =>
      let s := ctxSet t (fget s (pgTile t) Fl.tileCtxCtlBanks) false s
      writeBy (fun _ => tilePageOwn) who (pgSeq t) 0x10C (BitVec.ofNat 32 (fget s pgCal Fl.calGeyPcPc + 2 ^ 31)) s) s

/-- The Geyser slice of the open window: the first cycles of its reserve (R421, R422). A sequencer that shows DONE from
an earlier program is set back when its tile is selected. -/
def doGeyStart (s : State) : State :=
  match safetyPart s with
  | none => s
  | some p => match windowOf s p with
    | none => s
    | some w =>
      if !calRuns s || !inReserve s p then s else
      match s.cal.gey with
      | some g => loadPatch p g s
      | none =>
        let win := Tab.get 0 s.winNo p - 1
        if s.cal.geyWin = some win then s else
        let s := updCal (fun c => { c with geyWin := some win, geyFail := none }) s
        match nextGroup s p with
        | none => geyMiss s
        | some g =>
          let ts := geyTiles s p g
          let sl : GeySlice := ⟨win, g, ts, [], w.start + (w.len - w.rsv) + ceilDiv w.len 50⟩
          let s := ts.foldl (fun s t => if fget s (pgSeq t) Fl.seqStatusState = 2 then fset (pgSeq t) Fl.seqStatusState 0 s else s) s
          loadPatch p sl (updCal (fun c => { c with gey := some sl }) s)

/-- One bit step of the signature's CRC. -/
def crc64Bit (c : BitVec 64) : BitVec 64 := if c.getLsbD 63 then (c <<< 1) ^^^ 0x42F0E1EBA9EA3693 else c <<< 1

/-- CRC-64 with initial value 0 and no reflection (R423). -/
def crc64 (l : List Byte) : BitVec 64 :=
  l.foldl (fun c b => (upTo 8).foldl (fun c _ => crc64Bit c) (c ^^^ (BitVec.setWidth 64 b <<< 56))) 0

/-- The output region of a tile of the group: first address and bytes (R422). -/
def geyRegion (s : State) (t : TileId) : Nat × Nat :=
  let n := 64 * fget s pgCal Fl.calGeyOutLenLines
  (fgetAddr s pgCal Fl.calGeyOutLoAddr Fl.calGeyOutHiAddr + t.val % 8 * n, n)

/-- The signature of a tile's output region; none where Caldera cannot read it (R423). -/
def geySignature (s : State) (p : PartId) (t : TileId) : Option (BitVec 64) :=
  let r := geyRegion s t
  match grantRange s (.fw p true) false r.1 r.2 with
  | .served => some (crc64 (peekReq s r.1 r.2))
  | _ => none

/-- The records of a window that have been written or are held, latest for each job and buffer, and no amendments. -/
def windowVerdicts (s : State) (win : Nat) : List VerdictRec :=
  (s.cal.log ++ s.cal.held).filter (fun v => decide (v.win = win) && !((v.words.getD 0 0).getLsbD 22))

/-- The slice's result is known: every tile has reached DONE, or the slice has ended (R423, R424). -/
def doGeyResult (s : State) : State :=
  match safetyPart s, s.cal.gey with
  | some p, some g =>
    let done := g.tiles.all (fun t => fget s (pgSeq t) Fl.seqStatusState = 2)
    if !(done || decide (g.endAt ≤ partCount s p)) then s else
    let regions := g.tiles.map (geyRegion s)
    match (if done then firstWait s (.fw p true) regions else none) with
    | some w => waitEffect (.fw p true) w s
    | none =>
    let s := if done then regions.foldl (fun s r => noteLines (.fw p true) false r.1 r.2 s) s else s
    let s := updCal (fun c => { c with gey := none }) s
    if !done then geyMiss ((g.tiles.filter (onPatch s)).foldl (fun s t => stopTile t s) s) else
    let sig := BitVec.ofNat 64 (fget s pgCal Fl.calGeySigLoSig + 2 ^ 32 * fget s pgCal Fl.calGeySigHiSig)
    let fails := g.tiles.filter (fun t => g.bad.contains t || decide (geySignature s p t ≠ some sig))
    let s := fails.foldl (fun s t => takeOut t false (calFault 0x12 s)) s
    let s := fsets pgCal [(Fl.calGeyStatLastTg, g.tg), (Fl.calGeyStatResult, if fails.isEmpty then 1 else 2),
      (Fl.calGeyStatFailTiles, fails.foldl (fun m t => m ||| 2 ^ (t.val % 8)) 0), (Fl.calStatusGmiss, 0)] s
    let s := if fails.isEmpty then fbump pgCal Fl.calGeyStatPasses 1 s else
      let s := updCal (fun c => { c with geyFail := some (g.win, g.tg) }) s
      ((windowVerdicts s g.win).filter (fun v => v.tiles.any (groupTiles g.tg).contains)).foldl (fun s v => putVerdict p s (amend s p v)) s
    setIrq pgCal 11 s
  | _, _ => s

/-! ## Rotating self-tests (R425 to R427) -/

/-- Length of a slice in microseconds (R425). -/
def stLength (grp : Nat) : Nat := if grp < 12 then 45 else 40

/-- The group whose test is due: one with a tile that waits for its test, else the one tested longest ago (R426, R427). -/
def dueGroup (s : State) : Nat :=
  match (upTo 12).find? (fun g => s.cal.retry.any (fun t => t.val / 8 = g)) with
  | some g => g
  | none => (upTo 12).foldl (fun b g => if Tab.get 0 s.cal.tested g < Tab.get 0 s.cal.tested b then g else b) 0

/-- No job, kill or save is on a tile. -/
def tileFree (s : State) (t : TileId) : Bool :=
  (tile s t).job.isNone && (tile s t).kill.isNone && !ctxBusy s t && !s.jobs.any (fun j => holdsTiles j && j.tiles.contains t && !j.left.contains t)

/-- The time lies in the SAFETY partition's reserve after the Geyser slice, with room for a slice (R426). -/
def stRoom (s : State) (p : PartId) (grp : Nat) : Bool := match windowOf s p with
  | some w =>
    s.cal.gey.isNone && decide (w.start + (w.len - w.rsv) + ceilDiv w.len 50 ≤ partCount s p)
      && decide (partCount s p + stLength grp * fabricPerUs s ≤ w.start + w.len)
  | none => false

/-- A slice may start (R426). -/
def stMay (s : State) (grp : Nat) : Bool :=
  fon s pgCal Fl.calCtrlAutoSt && s.cal.st.isNone && (grp = 12 || (groupTiles grp).all (tileFree s))
    && (grp != 12 || (s.cal.ended.isEmpty && s.cal.held.isEmpty))
    && (match safetyPart s with
      | some p => if grp = 12 || (groupTiles grp).any (inTileMask s p) then stRoom s p grp else true
      | none => grp != 12)

/-- The next slice of a kind starts, or is deferred (R426). -/
def doStStart (caldera : Bool) (s : State) : State :=
  if !calRuns s then s else
  let grp := if caldera then 12 else dueGroup s
  if stMay s grp then updCal (fun c => { c with st := some ⟨grp, s.us⟩ }) s else fbump pgCal Fl.calStDeferCount 1 s

/-- What a tile-group slice leaves in a tile: accumulators, planes and queues as R84 gives (R425). -/
def afterTest (t : TileId) (s : State) : State :=
  updTile t (entriesLeave (fun x => { x with
    lane := []
    vec := []
    s0 := []
    s1 := []
    str0 := {}
    str1 := {}
    mc0 := []
    mc1 := []
    acc := []
    undo := []
    planes0 := {}
    planes1 := {}
    active := 0
    committedActive := 0
    loads := []
    laneRuns := []
    vecRun := none })) s

/-- A tile that was taken out and has now passed returns, unless it had also been taken out in the 10 s before (R427). -/
def judgeRetry (t : TileId) (s : State) : State :=
  if !s.cal.retry.contains t then s else
  let again := match tabList s.cal.outAt t with
    | a :: b :: _ => decide (a < b + 10000000)
    | _ => false
  updCal (fun c => { c with
    retry := c.retry.filter (fun u => u != t)
    lost := c.lost.filter (fun u => u != t)
    out := if again then c.out else c.out.filter (fun u => u != t) }) s

/-- The slice in progress ends; bit x of `fails` says that the tile in column x, or Caldera, failed (R427). -/
def doStDone (fails : BitVec 8) (s : State) : State :=
  match s.cal.st with
  | none => s
  | some x =>
    if s.us < x.since + stLength x.grp then s else
    let s := updCal (fun c => { c with st := none, tested := Tab.put c.tested x.grp s.us, covAt := Tab.put c.covAt x.grp s.us }) s
    let bad := if x.grp = 12 then fails.getLsbD 0 else decide (fails ≠ 0)
    let s := if bad then setIrq pgCal 13 (fbump pgCal Fl.calStStatFailed 1 s) else s
    if x.grp = 12 then (if bad then calFail (calFault 0x14 s) else s) else
    let s := fset pgCal Fl.calStStatLastTg x.grp s
    (groupTiles x.grp).foldl (fun s t =>
      let s := afterTest t s
      if fails.getLsbD (t.val % 8) then takeOut t false (calFault 0x14 s) else judgeRetry t s) s

/-- A coverage interval has passed without its slice (R425, R426). -/
def doCoverage (grp : Fin 13) (s : State) : State :=
  let len := if grp.val = 12 then 100000 else 1000000
  if !calOn s || decide (s.us < Tab.get 0 s.cal.covAt grp.val + len) then s else
  let s := updCal (fun c => { c with covAt := Tab.put c.covAt grp.val s.us }) s
  let s := recordEvent 0x1009 pgCal (BitVec.ofNat 32 grp.val) 0 0 (setIrq pgCal 12 s)
  if grp.val = 12 then fbump pgCal Fl.calStStatCalMissed 1 s else fbump pgCal Fl.calStStatTgMissed 1 s

/-! ## The remap of a faulty tile (R429, R430) -/

/-- Requests held at FROM's port N go to TO when an entry is enabled (R430). -/
def redirectHeld (k : Nat) (s : State) : State :=
  if !fon s pgCal (Fl.calRedirEn k) then s else
  let from' := fget s pgCal (Fl.calRedirFrom k)
  let to' := tileOf (fget s pgCal (Fl.calRedirTo k))
  { s with remoteSteps := s.remoteSteps.map (fun r => if r.ringTile.val = from' && r.got.isNone then { r with ringTile := to' } else r) }

/-- A write of CAL_REDIRk (R430). -/
def redirectWrite (k : Nat) (v : Word) (s : State) : State := redirectHeld k (plainWrite pgCal (Fl.calRedirEn k).off v s)

/-- The RESIDENT records of a load list that name a relative tile, with its END. -/
def residentOnly (rel : Nat) : Nat → List Word → List Word
  | n + 1, a :: b :: r =>
    let kind := bitsOf a.toNat 0 2
    let len := if kind = 2 then 2 else bitsOf a.toNat 12 20
    let to' := bitsOf a.toNat 3 8
    if kind = 3 then [a, b]
    else if a.toNat.testBit 2 && (to' = rel || to' = 0xFF) then a :: b :: r.take len ++ residentOnly rel n (r.drop len)
    else residentOnly rel n (r.drop len)
  | _, _ => []

/-- Banks that the records of a list fill. -/
def filledBanks : Nat → List Word → Nat
  | n + 1, a :: b :: r =>
    let kind := bitsOf a.toNat 0 2
    let cnt := bitsOf a.toNat 12 20
    let len := if kind = 2 then 2 else cnt
    let bytes := if kind = 2 then 64 * cnt else 4 * cnt
    let off := bitsOf b.toNat 0 20
    if kind = 3 then 0 else
    let here := if kind = 0 || bytes = 0 then 0
      else (upTo 16).foldl (fun m i => if off / 0x10000 ≤ i ∧ i ≤ (off + bytes - 1) / 0x10000 then m ||| 2 ^ i else m) 0
    here ||| filledBanks n (r.drop len)
  | _, _ => 0

/-- A tile is left to the deadline monitor for want of a spare or an entry (R429, R438). -/
def noSpare (t : TileId) (s : State) : State := calFault 0x18 (updCal (fun c => { c with given := c.given ++ [t] }) s)

/-- The QM job whose tiles a remap takes when none is idle: the last started that can be pre-empted (R391, R429). -/
def remapVictim (s : State) (p : PartId) : Option JobRun :=
  lastStarted (s.jobs.filter (fun v => decide (v.part = p) && v.stage = .running && !jwSafe v.words && jwSave v.words != 0
    && v.tiles.any (fun t => !tileOos s t)))

/-- A pre-empted job's tiles are still being saved. -/
def savePending (s : State) (p : PartId) : Bool :=
  s.jobs.any (fun v => decide (v.part = p) && v.stage = .preempted && v.tiles.any (fun t => (tile s t).job.isSome))

/-- Steps 3 to 6 of R429: tile `t` of job `j` is replaced by `u`. -/
def moveTile (j : JobRun) (t u : TileId) (k : Nat) (l : List Word) (bad : Bool) (s : State) : State :=
  let who : Requester := .fw j.part true
  let s := ctxSet t (fget s (pgTile t) Fl.tileCtxCtlBanks) true s
  let s := takeOut t true s
  let s := redirectHeld k (fsets pgCal [(Fl.calRedirFrom k, t.val), (Fl.calRedirTo k, u.val), (Fl.calRedirEn k, 1)] s)
  let rel := j.tiles.idxOf t
  let rl := residentOnly rel l.length l
  let area := fgetAddr s pgCal Fl.calRemapLoAddr Fl.calRemapHiAddr
  let banks := jobBanks j &&& (0xFFFF - filledBanks rl.length rl)
  let refused := match grantRanges s who true (ctxRanges area (jobBanks j) banks) with
    | .served => false
    | _ => true
  if bad || refused then
    (tilePages t).foldl (fun s pg => softRstPage pg s) (updCal (fun c => { c with given := c.given ++ [t] }) (fset pgCal (Fl.calRedirEn k) 0 s))
  else
    let c := captureCtx s t area banks
    let job := (tile s t).job
    let s := saveBanks t area (jobBanks j) banks ({ poke area (blockBytes s area) s with freeCtr := s.freeCtr + 1 })
    let tiles := j.tiles.map (fun v => if v = t then u else v)
    let s := updTile u (fun x => { x with job := job, hbAt := s.us }) (vacate t s)
    let s := (runList who tiles [u] [] (jwWset j.words) rl.length rl s).1
    let s := applyCtx u c (loadBanks u area (jobBanks j) banks s)
    let s := fset (pgTile u) Fl.tileWsetWset (jwWset j.words) s
    let s := updJob j.jid (fun x => { x with tiles := tiles, reached := x.reached.map (fun e => if e.2 = t then (e.1, u) else e) }) s
    let s := updCalJob j.jid (fun d => { d with
      recovered := true
      recv := (u, Tab.get 0 d.recv t) :: d.recv
      halted := d.halted.filter (fun v => v != t)
      killed := d.killed.filter (fun v => v != t)
      lost := d.lost.filter (fun v => v != t) }) s
    let s := updCal (fun d => { d with hb := Tab.put d.hb u s.us, lostKill := d.lostKill.filter (fun v => v != t) }) s
    let s := fset (pgTile t) Fl.tileRunHalted 0 (ctxSet t (fget s (pgTile t) Fl.tileCtxCtlBanks) false s)
    let s := (tilePages t).foldl (fun s pg => softRstPage pg s) s
    ctxSet u (fget s (pgTile u) Fl.tileCtxCtlBanks) false s

/-- The firmware's reaction to a halted or lost tile of a SAFE job, one step nearer its end each time (R429): a lost tile
is killed first, a spare may have to be pre-empted or enabled; `bad` says that the save meets an uncorrectable line. -/
def doRemap (t : TileId) (bad : Bool) (s : State) : State :=
  match jobOfTile s t with
  | none => s
  | some j =>
    let x := tile s t
    let halted := fon s (pgTile t) Fl.tileRunHalted
    let lost := s.cal.lost.contains t
    if !(fon s pgCal Fl.calCtrlRemapEn && pageOn s pgCal && jwSafe j.words && j.stage = .running && (halted || lost)
        && x.kill.isNone && !s.cal.given.contains t) then s
    else if lost && !halted && !s.cal.lostKill.contains t then
      startKill t allEngines false (updCal (fun c => { c with lostKill := c.lostKill ++ [t] }) s)
    else match (upTo 4).find? (fun k => !fon s pgCal (Fl.calRedirEn k)) with
    | none => noSpare t s
    | some k =>
      match byGroup s j.words ((maskTiles s j.part).filter (tileIdle s j.part)) with
      | [] =>
        if savePending s j.part then s
        else match remapVictim s j.part with
          | some v => preempt j s v
          | none => noSpare t s
      | u :: _ =>
        let s := (jobPages u).foldl (fun s pg => if fon s pg Fl.ctrlEn then s else enablePage pg j.part s) s
        if !(jobPages u).all (pageOn s) then s else
        let who : Requester := .fw j.part true
        match (if j.isFb then Fetch.got j.load else fetchList s who listFuel (jwProg j.words)) with
        | .waits g => waitEffect who g s
        | .fails g => updCal (fun c => { c with given := c.given ++ [t] }) (noteFetch who g s)
        | .got l => moveTile j t u k l bad s

/-! ## The meanings -/

def execEvidenceRecord (s : State) : Host.Outcome State Fault Refusal := ok (doEvidence s)
def execTileHeartbeat (t : TileId) (s : State) : Host.Outcome State Fault Refusal := ok (doHeartbeat t s)
def execTileLost (t : TileId) (s : State) : Host.Outcome State Fault Refusal := ok (doTileLost t s)
def execEvidenceTimeout (j : Nat) (s : State) : Host.Outcome State Fault Refusal := ok (doEvidTimeout j s)
def execVerdictWrite (s : State) : Host.Outcome State Fault Refusal := ok (doVerdict s)
def execCalVringRel (who : Requester) (v : Word) (s : State) : Host.Outcome State Fault Refusal :=
  ok (guarded who pgCal 0x12C (vringRelease (Fl.calVringRelCount.get v)) s)
def execLockstep (s : State) : Host.Outcome State Fault Refusal := ok (doLockstep s)
def execCalderaRestartDone (pass : Bool) (s : State) : Host.Outcome State Fault Refusal := ok (doRestartDone pass s)
def execCalFwHb (who : Requester) (v : Word) (s : State) : Host.Outcome State Fault Refusal :=
  ok (guarded who pgCal 0x114 (fwBeat v) s)
def execFwLost (s : State) : Host.Outcome State Fault Refusal := ok (doFwLost s)
def execClrDegraded (who : Requester) (s : State) : Host.Outcome State Fault Refusal := ok (guarded who pgCal 0x100 clrDegraded s)
def execCalEcc (s : State) : Host.Outcome State Fault Refusal := ok (doCalEcc s)
def execCalTileForce (who : Requester) (v : Word) (s : State) : Host.Outcome State Fault Refusal :=
  ok (guarded who pgCal 0x19C (tileForce v) s)
def execCalClrVcnt (who : Requester) (s : State) : Host.Outcome State Fault Refusal :=
  ok (guarded who pgCal 0x1C4 (zeroRegs pgCal [0x1B0, 0x1B4, 0x1B8, 0x1BC, 0x1C0]) s)
/-- CAL_CNT_CLR.ST clears the counts of CAL_ST_STAT and CAL_ST_DEFER (R440). -/
def stClear (s : State) : State :=
  wr pgCal 0x1A4 0 (fsets pgCal [(Fl.calStStatTgMissed, 0), (Fl.calStStatCalMissed, 0), (Fl.calStStatFailed, 0)] s)
def execCalClrSt (who : Requester) (s : State) : Host.Outcome State Fault Refusal := ok (guarded who pgCal 0x1C4 stClear s)
def execGeyserSliceStart (s : State) : Host.Outcome State Fault Refusal := ok (whenB (fwRuns s) s (doGeyStart s))
def execGeyserResult (s : State) : Host.Outcome State Fault Refusal := ok (doGeyResult s)
def execSelftestSliceStart (caldera : Bool) (s : State) : Host.Outcome State Fault Refusal := ok (doStStart caldera s)
def execSelftestSliceDone (fails : BitVec 8) (s : State) : Host.Outcome State Fault Refusal := ok (doStDone fails s)
def execCoverage (grp : Fin 13) (s : State) : Host.Outcome State Fault Refusal := ok (doCoverage grp s)
def execTileRemap (t : TileId) (bad : Bool) (s : State) : Host.Outcome State Fault Refusal := ok (whenB (fwRuns s) s (doRemap t bad s))
def execRedirectEnable (who : Requester) (k : Fin 4) (v : Word) (s : State) : Host.Outcome State Fault Refusal :=
  ok (guarded who pgCal (Fl.calRedirEn k.val).off (redirectWrite k.val v) s)
def execCalLoadInterval (s : State) : Host.Outcome State Fault Refusal := ok (doCalLoad s)

end Sys2Proof.Machine
end

