-- ==== Sys2Proof/Machine/Records.lean ====
section
/-! DEFINITION. Fumarole: records, rate limits, the buffer and its flush into Sinter (14, R491 to R495, R499). -/

namespace Sys2Proof.Machine

def updFum (f : FumSt → FumSt) (s : State) : State := { s with fum := f s.fum }
def updSnt (f : SinterSt → SinterSt) (s : State) : State := { s with snt := f s.snt }
def updBoot (f : BootSt → BootSt) (s : State) : State := { s with boot := f s.boot }

/-! ## The flush (R493) -/

/-- A flush starts; one that is asked for while another runs starts when that one ends (log 61). -/
def startFlush (s : State) : State :=
  if fon s pgFum Fl.fumStatFlushing then updFum (fun f => { f with again := true }) s
  else fset pgFum Fl.fumStatFlushing 1 (updFum (fun f => { f with writing := f.buf.length, again := false }) s)

/-- A record is written to Sinter: the founding area first, then the ring (R493). -/
def storeRec (x : SinterSt) (r : FumRec) : SinterSt :=
  if x.founding.length < 256 then { x with founding := x.founding ++ [r] }
  else { x with
    ring := Tab.put x.ring x.next r
    next := (x.next + 1) % 1024
    wrapped := x.wrapped || decide (x.next = 1023) }

/-- The flush in progress ends: the records it found are in Sinter, with OPTIME and CYCLE (R493, R494). Before boot has
loaded the two counts from the flag block (R473) they are below what it holds, and it keeps its own (log 61). -/
def endFlush (s : State) : State :=
  let out := s.fum.buf.take s.fum.writing
  let s := updSnt (fun x => { out.foldl storeRec x with optime := max x.optime s.fum.optime, cycles := max x.cycles s.fum.cycle }) s
  let again := s.fum.again
  let s := updFum (fun f => { f with buf := f.buf.drop f.writing, writing := 0, again := false }) s
  let s := setIrq pgFum 8 (fset pgFum Fl.fumStatFlushing 0 s)
  if again then startFlush s else s

/-! ## Rate limits (R495) -/

/-- BURST and RATE in force (R499). -/
def fumBurst (s : State) : Nat := max 1 (fget s pgFum Fl.fumRateBurst)
def fumRate (s : State) : Nat := max 1 (fget s pgFum Fl.fumRateRate)

/-- A bucket gains the tokens due by now: one each 1/RATE seconds since it fell below BURST (R495). -/
def refill (s : State) (b : Bucket) : Bucket :=
  let burst := fumBurst s
  if burst ≤ b.tokens then { b with tokens := burst } else
  let due := (s.us - b.from') * fumRate s / 1000000
  { b with tokens := min burst (b.tokens + (due - b.gained)), gained := due }

/-- A bucket that is full again with nothing to report is free (R495). -/
def bucketFree (s : State) (b : Bucket) : Bool := decide (fumBurst s ≤ b.tokens) && b.count == 0

/-- Refill every bucket and free those that are full (R495). -/
def refillAll (s : State) : State :=
  updFum (fun f => { f with
    buckets := (f.buckets.map (refill s)).filter (fun b => !bucketFree s b)
    shared := (f.shared.map (refill s)).filter (fun b => !bucketFree s b) }) s

/-- A record of code `c` asks a bucket for a token: the bucket afterwards and whether it had one (R495). -/
def takeToken (s : State) (c : Nat) (b : Bucket) : Bucket × Bool :=
  if 0 < b.tokens then
    (if b.tokens = fumBurst s then { b with tokens := b.tokens - 1, from' := s.us, gained := 0 } else { b with tokens := b.tokens - 1 }, true)
  else ({ b with count := b.count + 1, lastAt := s.us, last := c, first := if b.count = 0 then c else b.first }, false)

/-- A record of code `c` passes the rate limit, or is suppressed and counted; SUPPRESSED records are not limited (R495). -/
def rateLimit (c : Nat) (s : State) : Bool × State :=
  if c = 0x1004 then (true, s) else
  let s := refillAll s
  let f := s.fum
  let put := fun (s : State) (yes : Bool) => (yes, if yes then s else fbump pgFum Fl.fumSupprCount 1 s)
  match f.buckets.find? (fun b => b.code = c) with
  | some b =>
    let r := takeToken s c b
    put (updFum (fun f => { f with buckets := f.buckets.map (fun x => if x.code = c then r.1 else x) }) s) r.2
  | none =>
    let new : Bucket := { code := c, tokens := fumBurst s }
    if f.buckets.length < 32 then
      let r := takeToken s c new
      put (updFum (fun f => { f with buckets := f.buckets ++ [r.1] }) s) r.2
    else
      let r := takeToken s c (f.shared.getD { new with code := 0 })
      put (updFum (fun f => { f with shared := some r.1 }) s) r.2

/-- The oldest record on its way arrives at Fumarole (R491, R493, R495). -/
def doFumRecord (s : State) : State :=
  match s.fumIn with
  | [] => s
  | r :: rest =>
    let s := { s with fumIn := rest }
    let (yes, s) := rateLimit r.code s
    if !yes then s
    else if 64 ≤ s.fum.buf.length then setIrq pgFum 9 (fbump pgFum Fl.fumLostCount 1 s)
    else
      let r := { r with optime := s.fum.optime, cycle := s.fum.cycle, seq := fget s pgFum Fl.fumSeqSeq }
      let s := fwrap pgFum Fl.fumSeqSeq 1 (updFum (fun f => { f with buf := f.buf ++ [r] }) s)
      if r.code < 0x1000 || decide (48 ≤ s.fum.buf.length) then startFlush s else s

/-- One second has passed with no suppression in a bucket whose count is not zero (R495). -/
def reportDue (s : State) (b : Bucket) : Bool := b.count != 0 && decide (b.lastAt + 1000000 ≤ s.us)

/-- The SUPPRESSED records that are due are written (R495). -/
def doSuppressed (s : State) : State :=
  let s := refillAll s
  let all := s.fum.buckets ++ s.fum.shared.toList
  let out := all.filter (reportDue s)
  let clear := fun b => if reportDue s b then { b with count := 0 } else b
  let s' := updFum (fun f => { f with buckets := f.buckets.map clear, shared := f.shared.map clear }) s
  out.foldl (fun s b => recordEvent 0x1004 pgFum (BitVec.ofNat 32 b.first) (BitVec.ofNat 32 b.count) (BitVec.ofNat 32 b.last) s) s'

/-- FUM_CTRL.CLR_RING (R493). -/
def clearRing (s : State) : State := updSnt (fun x => { x with ring := [], next := 0, wrapped := false }) s

/-! ## What FUM_RD shows (R499) -/

/-- The eight words of a record (R491). -/
def recWords (r : FumRec) : List Word :=
  [BitVec.ofNat 32 (r.code + 0x10000 * r.source), BitVec.ofNat 32 r.optime, BitVec.ofNat 32 r.cycle, BitVec.ofNat 32 r.seq,
    r.d0, r.d1, r.d2, r.d3]

/-- The record FUM_RD_SEL names (R499). -/
def fumSelected (s : State) : Option FumRec :=
  let i := fget s pgFum Fl.fumRdSelIndex
  match fget s pgFum Fl.fumRdSelArea with
  | 0 => s.snt.founding[i]?
  | 1 => (s.snt.ring.find? (fun e => e.1 = i)).map (fun e => e.2)
  | 2 => s.fum.buf[i]?
  | _ => none

/-! ## The meanings -/

/-- FUMAROLE_RECORD (R493). -/
def execFumaroleRecord (s : State) : Host.Outcome State Fault Refusal := ok (doFumRecord s)
/-- FLUSH (R493, R499). -/
def execFlush (who : Requester) (s : State) : Host.Outcome State Fault Refusal := ok (guarded who pgFum 0x100 startFlush s)
/-- CLR_RING (R493, R499). -/
def execClrRing (who : Requester) (s : State) : Host.Outcome State Fault Refusal := ok (guarded who pgFum 0x100 clearRing s)
/-- TOKEN_REFILL (R495). -/
def execTokenRefill (s : State) : Host.Outcome State Fault Refusal := ok (refillAll s)
/-- SUPPRESSED (R495). -/
def execSuppressed (s : State) : Host.Outcome State Fault Refusal := ok (doSuppressed s)

end Sys2Proof.Machine
end

