-- ==== Sys2Proof/Machine/Power.lean ====
section
/-! DEFINITION. Switched domains, the wake sequencer, PWR_ALERT_N and VAON (13, R445 to R450, R463, R466; 01, R26). -/

namespace Sys2Proof.Machine

def updPwr (f : PwrSt → PwrSt) (s : State) : State := { s with pwr := f s.pwr }

/-! ## ARITH performance states (R459, R460, R465, R466) -/

/-- The request, the thermal floor, the cap floor and the alert floor (R460, R468). -/
def pstateFloors (s : State) : List Nat :=
  [min 5 (fget s pgClk Fl.clkArithPstate), fget s pgThm Fl.thmMaxFloor, fget s pgPwr Fl.pwrCapStatCompute, if s.pwr.alertFloor then 5 else 0]

/-- The state that is due: the highest-numbered of the four (R460). -/
def pstateTarget (s : State) : Nat := (pstateFloors s).foldl max 0

/-- FLOOR_SRC: which of the four gives the state that is due, the highest code on a tie (R460, R468). -/
def floorSrc (s : State) : Nat :=
  ([3, 2, 1].find? (fun i => nth 0 (pstateFloors s) i = pstateTarget s)).getD 0

/-- A faster change that waits on its voltage is abandoned once a slower state is required (R460). -/
def abandonRise (s : State) : State :=
  match s.pwr.rise with
  | some r => if r.target < pstateTarget s then updPwr (fun p => { p with rise := none }) s else s
  | none => s

/-! ## Domains (R446) -/

/-- The domain a domain requires (R446). -/
def requires (d : Nat) : Option Nat := if d ≤ 11 then some 12 else if d = 12 then some 13 else none

/-- On ramp, in microseconds (R446). -/
def onRamp (d : Nat) : Nat := if d ≤ 17 then 10 else if d ≤ 19 then 8 else if d ≤ 23 then 5 else if d = 24 then 3 else 5

/-- Weight of a domain in force (R449, R469). -/
def wakeWeight (s : State) (d : Nat) : Nat := bitsOf (rd s pgPwr (Fl.pwrWakeWtWt (d / 8)).off).toNat (4 * (d % 8)) 4

/-- The pages of a domain (R446). -/
def domainPages (d : Nat) : List PageKey :=
  if d ≤ 11 then (upTo 8).flatMap (fun i => tilePages (tileOf (8 * d + i)))
  else if d = 18 ∨ d = 19 then (upTo 6).flatMap (fun i => camPages (portOf (6 * (d - 18) + i)))
  else match d with
    | 14 => ⟨.hub, 0⟩ :: (upTo 4).map (fun i => ⟨.hubDdr, i⟩)
    | 15 => [⟨.hubLlc, 0⟩]
    | 16 => ⟨.hub, 1⟩ :: (upTo 4).map (fun i => ⟨.hubDdr, 4 + i⟩)
    | 17 => [⟨.hubLlc, 1⟩]
    | 20 => [pgEng .warp]
    | 21 => [pgEng .codec]
    | 22 => [pgEng .token]
    | 23 => [pgXcore]
    | 24 => allParts.map pgSdio
    | 25 => [pgCal]
    | _ => []

/-- The page has a function to switch of its own (R50, R105, R500). -/
def switchable (pg : PageKey) : Bool := !fixedOn pg && !followsTile pg

/-! ## Links and domains (R26) -/

/-- Links in OFF whose endpoints are both powered start to train (R26); out of reset the register already reads TRAINING
(R27). -/
def startTraining (d : Nat) (s : State) : State :=
  allLinks.foldl (fun s k =>
    if (linkDomains k).contains d && linkPowered s k && decide (linkState s k ≤ 1) && !s.pwr.vaonLow then
      setLink k 1 (setLinkSt k { linkSt s k with trainAt := s.us } s)
    else s) s

/-- Links with an endpoint in a domain that turns off enter OFF, unless they are DOWN (R22, R26). -/
def linksOff (d : Nat) (s : State) : State :=
  allLinks.foldl (fun s k =>
    if (linkDomains k).contains d && linkState s k != 4 then
      fset (pgHub 0) (Fl.hubLinkStatDetour k.val) 0 (setLink k 0 s)
    else s) s

/-! ## Admission (R449, R450) -/

/-- THERMTRIP_N has been driven low (R463). -/
def tripped (s : State) : Bool := fon s pgThm Fl.thmTripTripped

/-- Nothing is admitted: the alert, VAON_LOW or a trip holds admission (R450, R463). -/
def admissionHeld (s : State) : Bool :=
  fon s pgPwr Fl.pwrWakeQFrozen || fon s pgPwr Fl.pwrAlertAsserted || s.pwr.vaonLow || tripped s

/-- A domain starts to ramp on. -/
def beginRamp (d : Nat) (s : State) : State :=
  fsetBit pgPwr Fl.pwrDomBusyRamp d true (updPwr (fun p => { p with ramps := Tab.put p.ramps d s.us })
    { s with wakeQ := s.wakeQ.filter (fun w => w.1.val != d) })

/-- Requests in the order of admission: the SAFETY partition's first, then by arrival (R449). -/
def wakeOrder (s : State) : List (Domain × PartId) :=
  let safe := fun (w : Domain × PartId) => fon s (pgPart w.2) Fl.partCfgSafety
  s.wakeQ.filter safe ++ s.wakeQ.filter (fun w => !safe w)

/-- May a request be admitted in what remains of the window? A weight of 0 is free, and a weight above the budget goes
only as the first admission (R449). -/
def fits (s : State) (d : Nat) : Bool :=
  let w := wakeWeight s d
  let b := fget s pgPwr Fl.pwrWakeBudgetUnits
  decide (w = 0) || decide (s.pwr.used + w ≤ b) || (decide (b < w) && decide (s.pwr.admitted = 0))

/-- Admit one request and charge its weight; WINDOWS counts windows with an admission (R449, R469). -/
def admitOne (d : Nat) (s : State) : State :=
  let s := if s.pwr.admitted = 0 then fwrap pgPwr Fl.pwrWakeQWindows 1 s else s
  beginRamp d (updPwr (fun p => { p with used := p.used + wakeWeight s d, admitted := p.admitted + 1 }) s)

/-- Admit requests in order until one does not fit; one whose prerequisite is not on is held and does not bar others
(R447, R449). -/
def admitList : List (Domain × PartId) → State → State
  | [], s => s
  | (d, _) :: r, s =>
    if (match requires d.val with
        | some q => !domainOn s q
        | none => false) then admitList r s
    else if fits s d.val then admitList r (admitOne d.val s)
    else s

/-- The sequencer admits what it can (R449, R450). -/
def admitWakes (s : State) : State :=
  if s.pwr.winAt.isNone || admissionHeld s then s else admitList (wakeOrder s) s

/-- A window begins: its budget is whole, and admission resumes once PWR_ALERT_N is high (R449, R450). -/
def openWakeWindow (s : State) : State :=
  let s := updPwr (fun p => { p with winAt := some s.us, used := 0, admitted := 0 }) s
  let s := if !fon s pgPwr Fl.pwrAlertAsserted && !s.pwr.vaonLow then fset pgPwr Fl.pwrWakeQFrozen 0 s else s
  admitWakes s

/-- The window grid starts when the root has been switched to a PLL (R449). -/
def startGrid (s : State) : State := if s.pwr.winAt.isNone then openWakeWindow s else s

/-- A window boundary, every 10 us of the grid (R449). -/
def doWakeWindow (s : State) : State :=
  match s.pwr.winAt with
  | some w => if w + 10 ≤ s.us then
      updPwr (fun p => { p with winAt := some (s.us - (s.us - w) % 10) }) (openWakeWindow s)
    else s
  | none => s

/-! ## Wake requests (R447) -/

/-- The firmware cores have something to wake for: a submission, a mailbox message, a page interrupt (R447, R448). -/
def coresCalled (s : State) : Bool :=
  !s.submits.isEmpty || s.sdio.any (fun e => !e.2.toFw.isEmpty) || allPages.any (fun pg => irqStat s pg != 0)

/-- Every firmware core waits for an interrupt: the firmware runs and has nothing to do (R448, log 62). -/
def coresWait (s : State) : Bool := s.boot.running && !coresCalled s && s.jobs.isEmpty

/-- A cause of R447 for a wake request of domain `d` holds: its FORCE bit, a page that is TURNING_ON, work for the firmware
cores, a domain that requires it and is requested. -/
def wakeCause (s : State) (d : Nat) : Bool :=
  fbit s pgPwr Fl.pwrDomForceForce d || (domainPages d).any (fun pg => switchable pg && fget s pg Fl.state = 1)
    || (decide (d = 23) && coresCalled s) || s.wakeQ.any (fun w => requires w.1.val = some d)

/-- The partition a wake request is for: the owner of a page that is TURNING_ON, else PART0 (R449). -/
def wakePart (s : State) (d : Nat) : PartId :=
  match (domainPages d).find? (fun pg => switchable pg && fget s pg Fl.state = 1) with
  | some pg => ownerOf s pg
  | none => 0

/-- WAKE_REQUEST (R447). -/
def doWakeRequest (d : Nat) (s : State) : State :=
  if wakeCause s d then admitWakes (requestWake d (wakePart s d) s) else s

/-- Power a domain outside the grid and the budget, as the always-on domain does after a reset (R449). -/
def powerNow (d : Nat) (s : State) : State :=
  if domainOn s d || fbit s pgPwr Fl.pwrDomBusyRamp d then s else beginRamp d s

/-! ## On and off (R446, R448, R450) -/

/-- The boot sequence is at step 1 (R473). -/
def bootPhase (s : State) : Nat := fget s pgSec Fl.secBootStatPhase

/-- An admitted domain's ramp completes: its registers take their reset values, pages that are TURNING_ON go on, links
train (R26, R52, R446, R449). -/
def doPowerGood (d : Nat) (s : State) : State :=
  match (s.pwr.ramps.find? (fun e => e.1 = d)).map (fun e => e.2) with
  | none => s
  | some a =>
    if s.us < a + onRamp d then s else
    let s := updPwr (fun p => { p with ramps := Tab.drop p.ramps (fun k => decide (k = d)) }) s
    let s := fsetBit pgPwr Fl.pwrDomStatOn d true (fsetBit pgPwr Fl.pwrDomBusyRamp d false s)
    let s := (domainPages d).foldl freshPage s
    let s := (domainPages d).foldl (fun s pg => if fget s pg Fl.state = 1 then startPage pg s else s) s
    let s := if d = 24 then allParts.foldl (fun s p => fset (pgSdio p) Fl.sdioStatusV18 (b2n (Config.vddioSd18 p.val)) s) s else s
    let s := if d = 23 && s.boot.running then fset pgXcore Fl.xcoreRunRun 0xF s else s
    let s := startTraining d s
    let s := if d = 23 && bootPhase s = 1 then powerNow 24 s else s
    admitWakes s

/-- The groups, shadow groups and staged values of a page are lost with its power (R63). -/
def pageLost (pg : PageKey) (s : State) : State :=
  (if pg.kind = .cam then abortShadow pg 6 else id) (abortOf pg { s with staged := s.staged.filter (fun x => !decide (x.pg = pg)) })

/-- A domain is off: its links are OFF, its pages' groups abort, its state is lost (R26, R52, R63, R448). -/
def domainDown (d : Nat) (s : State) : State :=
  let was := domainOn s d
  let s := updPwr (fun p => { p with ramps := Tab.drop p.ramps (fun k => decide (k = d)), idleAt := Tab.drop p.idleAt (fun k => decide (k = d)) }) s
  let s := fsetBit pgPwr Fl.pwrDomStatOn d false (fsetBit pgPwr Fl.pwrDomBusyRamp d false s)
  let s := if was then (domainPages d).foldl (fun s pg => pageLost pg s) s else s
  let s := linksOff d s
  if d ≤ 11 then (upTo 8).foldl (fun s i => setTile (tileOf (8 * d + i)) {} s) s else s

/-- A domain is dropped with no drain: its pages read OFF (R451, R463). -/
def dropDomain (d : Nat) (s : State) : State :=
  let s := (domainPages d).foldl (fun s pg =>
    if switchable pg then
      if fget s pg Fl.state = 0 then s
      else
        let s := enterState pg 0 (fset pg Fl.ctrlEn 0 s)
        if pg.kind = .hubDdr then subIsOff pg.inst s else s
    else s) s
  domainDown d s

/-- A ramp misses power-good within 50 us of admission (R450). -/
def doWakeTimeout (d : Nat) (s : State) : State :=
  match (s.pwr.ramps.find? (fun e => e.1 = d)).map (fun e => e.2) with
  | none => s
  | some a =>
    if s.us < a + 50 then s else
    let s := domainDown d s
    let s := (domainPages d).foldl (fun s pg => if switchable pg then failOn pg s else s) s
    recordFault pgPwr 8 4 s

/-- A request waits on a domain, or is outstanding across a link with an endpoint in it (R448). -/
def domainInUse (s : State) (d : Nat) : Bool :=
  s.wakeQ.any (fun w => w.1.val = d) || s.outstanding.any (fun o =>
    o.path.any (fun k => (linkDomains k).contains d) || (match o.place with
      | .held k => (linkDomains k).contains d
      | _ => false))

/-- A domain that requires `d` is on, ramping or queued (R448). -/
def neededBy (s : State) (d : Nat) : Bool :=
  (upTo 13).any (fun e => requires e = some d &&
    (domainOn s e || fbit s pgPwr Fl.pwrDomBusyRamp e || s.wakeQ.any (fun w => w.1.val = e)))

/-- The conditions of R448 hold for domain `d`; HA_MEM, HB_MEM and SDIO never meet them. -/
def offOk (s : State) (d : Nat) : Bool :=
  domainOn s d && d != 14 && d != 16 && d != 24
    && (domainPages d).all (fun pg => !switchable pg || fget s pg Fl.state = 0)
    && !domainInUse s d && !fbit s pgPwr Fl.pwrDomForceForce d && !neededBy s d && (d != 23 || coresWait s)

/-- Note since when each domain has met the conditions of R448. -/
def trackIdle (s : State) : State :=
  updPwr (fun p => { p with idleAt := (upTo 26).filterMap (fun d =>
    if offOk s d then some (d, Tab.get s.us p.idleAt d) else none) }) s

/-- DOMAIN_OFF (R448). -/
def doDomainOff (d : Nat) (s : State) : State :=
  match (s.pwr.idleAt.find? (fun e => e.1 = d)).map (fun e => e.2) with
  | none => s
  | some a => if offOk s d && decide (a + fget s pgPwr Fl.pwrOffDelayUs ≤ s.us) then domainDown d s else s

/-! ## PWR_ALERT_N and VAON (R445, R450, R466, R512) -/

/-- PWR_ALERT_N falls (R450, R466). -/
def doAlert (s : State) : State :=
  if fon s pgPwr Fl.pwrAlertAsserted then s else
  let s := fsets pgPwr [(Fl.pwrAlertAsserted, 1), (Fl.pwrWakeQFrozen, 1)] (fbump pgPwr Fl.pwrAlertCount 1 s)
  let s := updPwr (fun p => { p with alertFloor := true, alertHigh := none }) s
  abandonRise (recordFault pgPwr 8 1 (setIrq pgPwr 8 s))

/-- PWR_ALERT_N rises (R450, R466). -/
def doAlertRelease (s : State) : State :=
  if fon s pgPwr Fl.pwrAlertAsserted then updPwr (fun p => { p with alertHigh := some s.us }) (fset pgPwr Fl.pwrAlertAsserted 0 s) else s

/-- PWR_ALERT_N has been high for HOLD_US (R466). -/
def doAlertHold (s : State) : State :=
  match s.pwr.alertHigh with
  | some a => if a + fget s pgPwr Fl.pwrAlertHoldUs ≤ s.us then updPwr (fun p => { p with alertFloor := false, alertHigh := none }) s else s
  | none => s

/-- VAON falls below 0.74 V for 1 us: the flush starts, admission stops, the XD link ports and the crystals stop (R445,
R512). -/
def doVaonLow (s : State) : State :=
  let s := startFlush (recordFault pgPwr 8 6 (setIrq pgPwr 11 s))
  let s := updPwr (fun p => { p with vaonLow := true, xtalA := false }) (fset pgPwr Fl.pwrWakeQFrozen 1 s)
  let s := fsetBit pgClk Fl.clkSrcRdyRdy 2 false (fsetBit pgClk Fl.clkSrcRdyRdy 3 false s)
  allLinks.foldl (fun s k => if linkAtXd k && linkState s k != 4 then setLink k 0 s else s) s

/-! ## The thermal trip (R463) -/

/-- DDR subchannels in service enter self-refresh with their settings held (R315, R457, R463). -/
def selfRefresh (close : Bool) (s : State) : State :=
  (upTo 8).foldl (fun s i =>
    let pg : PageKey := ⟨.hubDdr, i⟩
    if fget s pg Fl.state = 2 then
      let s := fset pg Fl.hubDdrStatusPhase 4 (setSub i { subSt s i with selfRef := some (settings s i) } s)
      if close then subIsOff i (enterState pg 0 (fset pg Fl.ctrlEn 0 s)) else s
    else s) s

/-- Lines of an LLC that are dirty when its power goes without a drain hold values the spec does not give (R316, R463). -/
def loseDirty (s : State) : State :=
  s.hubs.foldl (fun s e => (e.2.lines.filter (fun l => l.dirty)).foldl (fun s l =>
    let (v, s) := fresh s
    poke (l.line * 64) (leBytes 64 v) s) s) s

/-- Every switched domain is off at once, and nothing waits any more (R451, R463). -/
def dropAll (s : State) : State :=
  let s := (upTo 26).foldl (fun s d => if domainOn s d || fbit s pgPwr Fl.pwrDomBusyRamp d then dropDomain d s else s) s
  { s with wakeQ := [], outstanding := [], memCfg := none, hubs := s.hubs.map (fun e => (e.1, { e.2 with lines := [], reqs := [] })) }

/-- A reading at or above CRIT (R463): a trip happens once, until a POR clears it. -/
def thermTrip (sensor : Nat) (s : State) : State :=
  if tripped s then s else
  let s := fsets pgThm [(Fl.thmTripSensor, sensor), (Fl.thmTripTripped, 1)] s
  let s := startFlush (recordFault pgThm 9 2 s)
  dropAll (loseDirty (selfRefresh false s))

/-! ## The meanings -/

/-- WAKE_REQUEST (R447). -/
def execWakeRequest (d : Domain) (s : State) : Host.Outcome State Fault Refusal := ok (doWakeRequest d.val s)
/-- WAKE_WINDOW (R449). -/
def execWakeWindow (s : State) : Host.Outcome State Fault Refusal := ok (doWakeWindow s)
/-- DOMAIN_POWER_GOOD (R446). -/
def execDomainPowerGood (d : Domain) (s : State) : Host.Outcome State Fault Refusal := ok (doPowerGood d.val s)
/-- WAKE_TIMEOUT (R450). -/
def execWakeTimeout (d : Domain) (s : State) : Host.Outcome State Fault Refusal := ok (doWakeTimeout d.val s)
/-- DOMAIN_OFF (R448). -/
def execDomainOff (d : Domain) (s : State) : Host.Outcome State Fault Refusal := ok (doDomainOff d.val s)
/-- ALERT (R466). -/
def execAlert (s : State) : Host.Outcome State Fault Refusal := ok (doAlert s)
/-- ALERT_RELEASE (R450). -/
def execAlertRelease (s : State) : Host.Outcome State Fault Refusal := ok (doAlertRelease s)
/-- ALERT_HOLD_EXPIRY (R466). -/
def execAlertHoldExpiry (s : State) : Host.Outcome State Fault Refusal := ok (doAlertHold s)
/-- VAON_LOW (R445). -/
def execVaonLow (s : State) : Host.Outcome State Fault Refusal := ok (doVaonLow s)

end Sys2Proof.Machine
end

