-- ==== Sys2Proof/Machine/Clocks.lean ====
section
/-! DEFINITION. PMBus, the clock sources and the root, ARITH performance states, the power cap, deep idle (13, R443,
R444, R451, R452, R454 to R460, R464, R465). -/

namespace Sys2Proof.Machine

/-! ## Clock sources and the root (R454 to R457) -/

/-- The source is ready (CLK_SRC_RDY; bit order of R468). -/
def srcReady (s : State) (src : Nat) : Bool := fbit s pgClk Fl.clkSrcRdyRdy src
def setReady (src : Nat) (b : Bool) (s : State) : State := fsetBit pgClk Fl.clkSrcRdyRdy src b s

/-- The ready bit of the root that CLK_ROOT.SRC codes (R468). -/
def rootSource (src : Nat) : Nat := match src with
  | 1 => 5
  | 2 => 4
  | _ => 0

/-- Every HUB_DDR page is OFF or in PHASE SELF_REFRESH (R456). -/
def ddrQuiet (s : State) : Bool :=
  (upTo 8).all (fun i => fget s ⟨.hubDdr, i⟩ Fl.state = 0 || fget s ⟨.hubDdr, i⟩ Fl.hubDdrStatusPhase = 4)

/-- A write of CLK_ROOT.SRC that R456 carries out. -/
def rootOk (s : State) (src : Nat) : Bool := src != 3 && srcReady s (rootSource src) && (decide (src = 2) || ddrQuiet s)

/-- A switch to a root starts; an accepted switch clears FALLBACK (R456, R468). -/
def switchTo (src : Nat) (s : State) : State :=
  let s := fset pgClk Fl.clkRootSrc src (updPwr (fun p => { p with rootTo := src }) s)
  fsets pgClk [(Fl.clkStatFallback, 0), (Fl.clkStatSwitching, 1)] s

/-- A write of CLK_ROOT.SRC (R456). -/
def rootWrite (src : Nat) (s : State) : State :=
  if rootOk s src then switchTo src s
  else recordFault pgClk 7 1 (setIrq pgClk 8 (fset pgClk Fl.clkStatRefused 1 s))

/-- Subchannels that self-refresh only because of the root serve again once it is ROOT_PLL (R315, R457, log 63). -/
def leaveSelfRefresh (s : State) : State :=
  (upTo 8).foldl (fun s i =>
    let pg : PageKey := ⟨.hubDdr, i⟩
    if fget s pg Fl.state = 2 && fget s pg Fl.hubDdrStatusPhase = 4 then
      fset pg Fl.hubDdrStatusPhase 3 (setSub i { subSt s i with selfRef := none } s)
    else s) s

/-- A write of CLK_PLL_CTRL: a PLL that is disabled is no longer ready, but for the root's, whose loss the monitor finds
(R454, R457; log 118). -/
def pllWrite (v : Word) (s : State) : State :=
  let s := fsets pgClk [(Fl.clkPllCtrlRootEn, Fl.clkPllCtrlRootEn.get v), (Fl.clkPllCtrlAuxEn, Fl.clkPllCtrlAuxEn.get v)] s
  let root := fget s pgClk Fl.clkStatRoot
  let s := if bitAt v 0 || root = 2 then s else setReady 4 false s
  if bitAt v 1 || root = 1 then s else setReady 5 false s

/-! ## Deep idle: the way out (R452) -/

/-- A VOUT or OPERATION command waits for the bus. -/
def askRegulator (c : PmbCmd) (s : State) : State := updPwr (fun p => { p with pmb := p.pmb ++ [{ cmd := c }] }) s

/-- The domains requested when deep idle ends, in order (R452). -/
def wakeDomains : List Nat := [23, 13, 14, 16, 15, 17, 24]

/-- Deep idle's exit goes as far as it can: VDD_CD, ROOT_PLL, the root, the requests (R452). -/
def wakeAdvance (s : State) : State :=
  if fget s pgPwr Fl.pwrIdleState != 3 || !srcReady s 0 then s
  else if s.pwr.vcdOff then
    (if s.pwr.pmb.any (fun t => decide (t.cmd = .operation true)) then s else askRegulator (.operation true) s)
  else if !fon s pgClk Fl.clkPllCtrlRootEn || !s.pwr.xtalA then
    fset pgClk Fl.clkPllCtrlRootEn 1 (updPwr (fun p => { p with xtalA := true }) s)
  else if fon s pgClk Fl.clkStatSwitching then s
  else if fget s pgClk Fl.clkStatRoot != 2 then (if srcReady s 4 then switchTo 2 s else s)
  else
    let s := wakeDomains.foldl (fun s d => requestWake d 0 s) s
    admitWakes (setIrq pgPwr 10 (fset pgPwr Fl.pwrIdleState 0 s))

/-- Timers that stopped with FOSC restart from zero (R458). -/
def restartTimers (s : State) : State :=
  let s := updPwr (fun p => { p with
    idleAt := []
    alertHigh := p.alertHigh.map (fun _ => s.us)
    capLow := p.capLow.map (fun _ => s.us)
    rise := p.rise.map (fun r => { r with since := r.since.map (fun _ => s.us) }) }) s
  let s := { s with thm := { s.thm with riseAt := s.thm.riseAt.map (fun _ => s.us), coolAt := s.thm.coolAt.map (fun _ => s.us) } }
  updBoot (fun b => { b with kickAt := b.kickAt.map (fun _ => s.us) }) s

/-- An event ends deep idle, or cancels its entry; its cause is latched (R452). -/
def wakeUp (cause : Nat) (s : State) : State :=
  let s := fsets pgPwr [(Fl.pwrIdleState, 3), (Fl.pwrWakeSrcSrc, 2 ^ cause)] s
  wakeAdvance (restartTimers (updPwr (fun p => { p with idleStep := 0 }) s))

/-- Deep idle has been reached, or its entry has turned the SDIO domain off (R452). -/
def sleeping (s : State) : Bool :=
  fget s pgPwr Fl.pwrIdleState = 2 || (fget s pgPwr Fl.pwrIdleState = 1 && decide (2 < s.pwr.idleStep))

/-- A host's PART page write while entry has not reached step 2 cancels it (R452). -/
def cancelEntry (s : State) : State :=
  if fget s pgPwr Fl.pwrIdleState = 1 && decide (s.pwr.idleStep = 2) then wakeUp 3 s else s

/-! ## Deep idle: the way in (R451) -/

/-- PWR_IDLE.ENTER is accepted (R451). -/
def idleOk (s : State) : Bool :=
  s.jobs.isEmpty && s.submits.isEmpty && !allPorts.any (fun n => fget s (pgCam n) Fl.state = 2)
    && fget s pgPwr Fl.pwrIdleState = 0

/-- PWR_IDLE.ENTER: refused, or step 1 of entry, the subchannels' self-refresh (R315, R451). -/
def enterIdle (s : State) : State :=
  if !idleOk s then fset pgPwr Fl.pwrIdleRefused 1 s
  else updPwr (fun p => { p with idleStep := 2 }) (fset pgPwr Fl.pwrIdleState 1 (selfRefresh true s))

/-- The next step of entry, 2 to 6 (R451). -/
def idleAdvance (s : State) : State :=
  let next := fun (s : State) => updPwr (fun p => { p with idleStep := p.idleStep + 1 }) s
  match s.pwr.idleStep with
  | 2 => next (dropAll s)
  | 3 =>
    let s := fsets pgClk [(Fl.clkRootSrc, 0), (Fl.clkStatRoot, 0), (Fl.clkStatSwitching, 0), (Fl.clkPllCtrlRootEn, 0), (Fl.clkPllCtrlAuxEn, 0)] s
    next (updPwr (fun p => { p with winAt := none }) (setReady 4 false (setReady 5 false s)))
  | 4 => next (if fon s pgPwr Fl.pwrIdleVcdOff then updPwr (fun p => { p with vcdOff := true }) (askRegulator (.operation false) s) else s)
  | 5 => next (setReady 0 false s)
  | 6 =>
    let s := if fon s pgPwr Fl.pwrIdleXtalKeep then s else setReady 2 false (updPwr (fun p => { p with xtalA := false }) s)
    fset pgPwr Fl.pwrIdleState 2 (updPwr (fun p => { p with idleStep := 0, aon := 0 }) s)
  | _ => s

/-! ## Switching and monitoring (R454, R456, R457) -/

/-- What a source needs to become ready (R454, R517). -/
def sourceRuns (s : State) (src : Nat) : Bool := match src with
  | 0 => fget s pgPwr Fl.pwrIdleState != 2 && decide (s.pwr.idleStep < 6)
  | 2 => s.pwr.xtalA && !s.pwr.vaonLow
  | 3 => !s.pwr.vaonLow
  | 4 => fon s pgClk Fl.clkPllCtrlRootEn && srcReady s 2
  | 5 => fon s pgClk Fl.clkPllCtrlAuxEn && srcReady s 0
  | _ => true

/-- SOURCE_READY (R454). -/
def doSourceReady (src : Nat) (s : State) : State := if sourceRuns s src then wakeAdvance (setReady src true s) else s

/-- The root falls back to FOSC (R457). -/
def fallBack (s : State) : State :=
  let s := selfRefresh false s
  let s := fsets pgClk [(Fl.clkStatRoot, 0), (Fl.clkStatFallback, 1), (Fl.clkStatSwitching, 0)] s
  recordFault pgClk 7 4 (setIrq pgClk 9 s)

/-- The switch completes (R449, R456); a root whose source has failed meanwhile falls back at once (R457). -/
def doRootDone (s : State) : State :=
  if !fon s pgClk Fl.clkStatSwitching then s else
  let s := fsets pgClk [(Fl.clkStatSwitching, 0), (Fl.clkStatRoot, s.pwr.rootTo)] s
  let s := if s.pwr.rootTo = 2 then leaveSelfRefresh s else s
  let s := if s.pwr.rootTo = 0 then s else startGrid s
  wakeAdvance (if s.pwr.rootTo != 0 && !srcReady s (rootSource s.pwr.rootTo) then fallBack s else s)

/-- A monitored source is found failed: XTAL_A, or a PLL that lost lock or is off frequency (R457, R467). -/
def doMonitor (src : Nat) (lost : Bool) (s : State) : State :=
  if !(decide (src = 2 ∨ src = 4 ∨ src = 5) && srcReady s src) then s else
  let s := fsetBit pgClk Fl.clkMonFail src true (setReady src false s)
  let s := recordFault pgClk 7 (if src = 2 then 3 else if lost then 2 else 5) s
  if fget s pgClk Fl.clkStatRoot != 0 && decide (rootSource (fget s pgClk Fl.clkStatRoot) = src) then fallBack s else s

/-! ## PMBus (R443, R444) -/

/-- A transaction succeeds. -/
def pmbDone (c : PmbCmd) (s : State) : State :=
  match c with
  | .vout mv =>
    updPwr (fun p => { p with
      cmdMv := some mv
      rise := p.rise.map (fun r => if r.mv = mv ∧ r.since = none then { r with since := some s.us } else r) }) s
  | .operation on => wakeAdvance (updPwr (fun p => { p with vcdOff := !on }) s)
  | .read => s

/-- A transaction has failed twice: the change that needed it is not made (R443). -/
def pmbLost (c : PmbCmd) (s : State) : State :=
  let s := recordFault pgPwr 8 2 s
  match c with
  | .vout mv => match s.pwr.rise with
    | some r => if r.mv = mv ∧ r.since = none then updPwr (fun p => { p with rise := none, barred := some r.target }) s else s
    | none => s
  | .operation on => wakeAdvance (if on then s else updPwr (fun p => { p with vcdOff := false }) s)
  | .read => s

/-- A transaction ends: acknowledged in time, or retried once and then faulted (R443). With none waiting it is one of the
reads of R444. -/
def doPmbus (acked : Bool) (s : State) : State :=
  match s.pwr.pmb with
  | [] => if acked then s else updPwr (fun p => { p with pmb := [{ cmd := .read, retried := true }] }) s
  | t :: r =>
    let drop := fun (s : State) => updPwr (fun p => { p with pmb := r }) s
    if acked then pmbDone t.cmd (drop s)
    else if t.retried then pmbLost t.cmd (drop s)
    else updPwr (fun p => { p with pmb := { t with retried := true } :: r }) s

/-- A LINEAR16 reading times 1000 as a fraction: numerator and denominator (R443). -/
def linear16 (s : State) (vout : Nat) : Nat × Nat :=
  let e := signed 5 (fget s pgPwr Fl.pwrPmbCfgVexp)
  if e < 0 then (vout * 1000, 2 ^ (-e).toNat) else (vout * 1000 * 2 ^ e.toNat, 1)

/-- READ_VOUT of VDD_CD, every 1 ms: two consecutive readings more than 3 % off the command are recorded (R444, log 64). -/
def doPoll (vout : Nat) (s : State) : State :=
  if s.us / 1000 ≤ s.pwr.pollAt then s else
  let (n, d) := linear16 s vout
  let s := updPwr (fun p => { p with pollAt := s.us / 1000 }) s
  let s := fset pgPwr Fl.pwrVcdMvMv (n / d) s
  let off := match s.pwr.cmdMv with
    | some c => decide (3 * c * d < 100 * (n - c * d) ∨ 3 * c * d < 100 * (c * d - n))
    | none => false
  if !off then updPwr (fun p => { p with vBad := 0 }) s
  else if s.pwr.vBad = 0 then updPwr (fun p => { p with vBad := 1 }) s
  else recordFault pgPwr 8 3 (updPwr (fun p => { p with vBad := 0 }) s)

/-! ## ARITH performance states (R459, R460) -/

/-- The divisor switches: the state in force, the count, the event (R460, R468). -/
def enterPstate (k : Nat) (s : State) : State :=
  setIrq pgClk 10 (fwrap pgClk Fl.clkArithChanges 1 (fset pgClk Fl.clkArithEffective k s))

/-- VDD_CD voltage of a state (R459). -/
def pstateMv (s : State) (k : Nat) : Nat := fget s pgPwr (Fl.pwrVfPMv k)

/-- The change that is due begins: slower at once, then the voltage; faster, the voltage first (R460). -/
def doPstate (s : State) : State :=
  let t := pstateTarget s
  let e := fget s pgClk Fl.clkArithEffective
  let s := abandonRise (updPwr (fun p => { p with barred := if p.barred = some t then p.barred else none }) s)
  if e < t then askRegulator (.vout (pstateMv s t)) (enterPstate t (updPwr (fun p => { p with rise := none }) s))
  else if t < e && decide (s.pwr.barred ≠ some t) && !(match s.pwr.rise with
      | some r => r.target = t
      | none => false) then
    askRegulator (.vout (pstateMv s t)) (updPwr (fun p => { p with rise := some { target := t, mv := pstateMv s t } }) s)
  else s

/-- READ_VOUT is within 10 mV of the command, or 200 us have passed: the faster divisor is switched in (R460). -/
def doSettled (mv : Nat) (s : State) : State :=
  let s := fset pgPwr Fl.pwrVcdMvMv mv s
  match s.pwr.rise with
  | some r => match r.since with
    | some a =>
      if (decide (mv ≤ r.mv + 10) && decide (r.mv ≤ mv + 10)) || decide (a + 200 ≤ s.us) then
        enterPstate r.target (updPwr (fun p => { p with rise := none }) s)
      else s
    | none => s
  | none => s

/-! ## Package power (R464, R465) -/

/-- The estimate of the last 10 us, and its average over the last 100 ms, as far as there are that many (R464, log 65). -/
def doEstimate (mw : Nat) (s : State) : State :=
  if s.us / 10 ≤ s.pwr.estAt then s else
  let est := (mw :: s.pwr.est).take 10000
  let avg := est.foldl (fun a b => a + b) 0 / est.length
  let s := fsets pgPwr [(Fl.pwrPkgNowMw, mw), (Fl.pwrPkgAvgMw, avg)] (updPwr (fun p => { p with est := est, estAt := s.us / 10 }) s)
  let low := decide (100 * mw < 95 * fget s pgPwr Fl.pwrPkgPeakMw ∧ 100 * avg < 95 * fget s pgPwr Fl.pwrPkgCapMw)
  updPwr (fun p => { p with capLow := if low then some (p.capLow.getD s.us) else none }) s

/-- The classes from most to least protected; a register that does not name each class once acts as its reset value
(R469). -/
def capOrder (s : State) : List Nat :=
  let l := [fget s pgPwr Fl.pwrCapOrderFirst, fget s pgPwr Fl.pwrCapOrderSecond, fget s pgPwr Fl.pwrCapOrderThird]
  if [0, 1, 2].all l.contains then l else [2, 1, 0]

/-- The field of a class in PWR_CAP_STAT, and its steps (R465). -/
def capField (c : Nat) : Fld × Nat := match c with
  | 0 => (Fl.pwrCapStatCompute, 5)
  | 1 => (Fl.pwrCapStatMem, 4)
  | _ => (Fl.pwrCapStatLinks, 1)

/-- The cap controller acts, once every 10 us (R465, log 118). -/
def doCap (s : State) : State :=
  if s.us / 10 ≤ s.pwr.capAt then s else
  let s := updPwr (fun p => { p with capAt := s.us / 10 }) s
  let overCap := fget s pgPwr Fl.pwrPkgPeakMw < fget s pgPwr Fl.pwrPkgNowMw || fget s pgPwr Fl.pwrPkgCapMw < fget s pgPwr Fl.pwrPkgAvgMw
  if overCap then
    match (capOrder s).reverse.find? (fun c => decide (fget s pgPwr (capField c).1 < (capField c).2)) with
    | some c =>
      let s := setIrq pgPwr 9 (fset pgPwr (capField c).1 (fget s pgPwr (capField c).1 + 1) s)
      abandonRise (if c = 0 then s else recordFault pgPwr 8 5 s)
    | none => s
  else match s.pwr.capLow with
    | some a =>
      if a + 1000 ≤ s.us then
        match (capOrder s).find? (fun c => fget s pgPwr (capField c).1 != 0) with
        | some c => fset pgPwr (capField c).1 (fget s pgPwr (capField c).1 - 1) s
        | none => s
      else s
    | none => s

/-- The estimate's factors are set anew; the spec gives no values for them (R464). -/
def doRecalibrate (s : State) : State :=
  if s.us / 1000 ≤ s.pwr.factorAt then s else
  let (v, s) := fresh s
  updPwr (fun p => { p with factor := v, factorAt := s.us / 1000 }) s

/-! ## The meanings -/

/-- PMBUS_TRANSACTION (R443). -/
def execPmbusTransaction (acked : Bool) (s : State) : Host.Outcome State Fault Refusal := ok (doPmbus acked s)
/-- PMBUS_POLL (R444). -/
def execPmbusPoll (vout : BitVec 16) (s : State) : Host.Outcome State Fault Refusal := ok (doPoll vout.toNat s)
/-- ROOT_SWITCH (R456). -/
def execRootSwitch (who : Requester) (v : Word) (s : State) : Host.Outcome State Fault Refusal :=
  ok (guarded who pgClk 0x100 (unlocked pgClk (rootWrite (v.toNat % 4))) s)
/-- ROOT_SWITCH_DONE (R456). -/
def execRootSwitchDone (s : State) : Host.Outcome State Fault Refusal := ok (doRootDone s)
/-- SOURCE_READY (R454). -/
def execSourceReady (src : Fin 6) (s : State) : Host.Outcome State Fault Refusal := ok (doSourceReady src.val s)
/-- CLOCK_MONITOR (R457). -/
def execClockMonitor (src : Fin 6) (lost : Bool) (s : State) : Host.Outcome State Fault Refusal := ok (doMonitor src.val lost s)
/-- PSTATE_CHANGE (R460). -/
def execPstateChange (s : State) : Host.Outcome State Fault Refusal := ok (doPstate s)
/-- VOLTAGE_SETTLED (R460). -/
def execVoltageSettled (mv : Nat) (s : State) : Host.Outcome State Fault Refusal := ok (doSettled mv s)
/-- POWER_ESTIMATE (R464). -/
def execPowerEstimate (mw : BitVec 17) (s : State) : Host.Outcome State Fault Refusal := ok (doEstimate mw.toNat s)
/-- POWER_RECALIBRATE (R464). -/
def execPowerRecalibrate (s : State) : Host.Outcome State Fault Refusal := ok (doRecalibrate s)
/-- CAP_THROTTLE (R465). -/
def execCapThrottle (s : State) : Host.Outcome State Fault Refusal := ok (doCap s)
/-- DEEP_IDLE_ENTER (R451). -/
def execDeepIdleEnter (who : Requester) (s : State) : Host.Outcome State Fault Refusal := ok (guarded who pgPwr 0x130 enterIdle s)
/-- WAKE_N (R452); with RESET_N low at the same time it is no wake (R516). -/
def execWakeN (s : State) : Host.Outcome State Fault Refusal := ok (whenB (sleeping s && decide (s.boot.rst ≠ some .pin)) s (wakeUp 0 s))
/-- SDIO_START_BIT (R452). -/
def execSdioStartBit (_p : PartId) (s : State) : Host.Outcome State Fault Refusal := ok (whenB (sleeping s) s (wakeUp 1 s))
/-- PWR_WAKE_TIMER (R452). -/
def execPwrWakeTimer (s : State) : Host.Outcome State Fault Refusal :=
  let n := fget s pgPwr Fl.pwrWakeTimerTicks
  ok (whenB (fget s pgPwr Fl.pwrIdleState = 2 && n != 0 && decide (n ≤ s.pwr.aon)) s (wakeUp 2 s))

end Sys2Proof.Machine
end

