-- ==== Sys2Proof/Machine/Thermal.lean ====
section
/-! DEFINITION. Temperature sensors, the thermal floor and the trip (13, R461 to R463, R470). -/

namespace Sys2Proof.Machine

def updThm (f : ThmSt → ThmSt) (s : State) : State := { s with thm := f s.thm }

/-- The sensor is valid (R461). -/
def senValid (s : State) (n : Nat) : Bool := fon s pgThm (Fl.thmTValid n)
/-- Its latest reading, in units of 0.25 degrees. -/
def senTemp (s : State) (n : Nat) : Int := signed 12 (fget s pgThm (Fl.thmTTemp n))

/-- The grade's CRIT default, above which no threshold acts (R461, R470). -/
def critDefault (s : State) : Int := if fget s pgSec Fl.secIdPartGrade = 1 then 0x1CC else 0x208

/-- A threshold in force (R461). -/
def threshold (s : State) (f : Fld) : Int := min (signed 12 (fget s pgThm f)) (critDefault s)
def warnAt (s : State) (n : Nat) : Int := threshold s (Fl.thmTWarnTemp n)
def limitAt (s : State) (n : Nat) : Int := threshold s (Fl.thmTLimitTemp n)
def critAt (s : State) (n : Nat) : Int := threshold s (Fl.thmTCritTemp n)

/-- Some valid sensor is at or above its LIMIT (R462). -/
def thermHot (s : State) : Bool := (upTo 32).any (fun n => senValid s n && decide (limitAt s n ≤ senTemp s n))

/-- Every valid sensor is below its LIMIT less HYST (R462). -/
def thermCool (s : State) : Bool :=
  (upTo 32).all (fun n => !senValid s n || decide (senTemp s n < limitAt s n - (fget s pgThm Fl.thmCtrlHyst : Nat)))

/-- The thermal floor rises one state, up to P5; the first rise of an episode is recorded (R462). -/
def floorRise (s : State) : State :=
  let f := fget s pgThm Fl.thmMaxFloor
  let s := updThm (fun t => { t with riseAt := some s.us }) s
  if 5 ≤ f then s else
  let s := fset pgThm Fl.thmMaxFloor (f + 1) s
  abandonRise (if f = 0 then recordFault pgThm 9 1 s else s)

/-- A sample is good: in the range, and at most 20 degrees from the one before, if there is one (R461). -/
def goodSample (prev : Option Int) (r : Int) : Bool :=
  decide (-220 ≤ r ∧ r ≤ 600) && (match prev with
    | some q => decide (r - q ≤ 80 ∧ q - r ≤ 80)
    | none => true)

/-- The sensor's validity after a sample (R461). -/
def judgeSensor (n : Nat) (prev : Option Int) (r : Int) (s : State) : State :=
  if !goodSample prev r then
    let s := fset pgThm (Fl.thmTValid n) 0 (updThm (fun t => { t with good := Tab.put t.good n 0 }) s)
    recordFault pgThm 9 3 (setIrq pgThm 10 s)
  else if senValid s n then s
  else if prev.isNone then fset pgThm (Fl.thmTValid n) 1 s
  else
    let g := Tab.get 0 s.thm.good n + 1
    let s := updThm (fun t => { t with good := Tab.put t.good n g }) s
    if 16 ≤ g then fset pgThm (Fl.thmTValid n) 1 s else s

/-- The WARN, LIMIT and CRIT bits of a sensor; an invalid one is ignored (R461, R470). -/
def sensorBits (n : Nat) (s : State) : State :=
  let v := senValid s n
  let r := senTemp s n
  fsets pgThm [(Fl.thmTWarn n, b2n (v && decide (warnAt s n ≤ r))), (Fl.thmTLimit n, b2n (v && decide (limitAt s n ≤ r))),
    (Fl.thmTCrit n, b2n (v && decide (critAt s n ≤ r)))] s

/-- THM_MAX: the hottest valid reading and its sensor, the lowest-numbered on a tie (R470). -/
def showMax (s : State) : State :=
  match (upTo 32).foldl (fun (b : Option Nat) n =>
      if !senValid s n then b else match b with
        | none => some n
        | some m => if senTemp s m < senTemp s n then some n else b) none with
  | some n => fsets pgThm [(Fl.thmMaxTemp, fget s pgThm (Fl.thmTTemp n)), (Fl.thmMaxSensor, n)] s
  | none => s

/-- SENSOR_SAMPLE, once every 20 us for each sensor (R461 to R463, log 118). -/
def doSample (n : Nat) (r : Int) (s : State) : State :=
  if s.us / 20 ≤ Tab.get 0 s.thm.sampled n then s else
  let prev := Tab.get none s.thm.prev n
  let s := fset pgThm (Fl.thmTTemp n) (unsignedOf 12 r) (updThm (fun t => { t with prev := Tab.put t.prev n (some r), sampled := Tab.put t.sampled n (s.us / 20) }) s)
  let s := showMax (sensorBits n (judgeSensor n prev r s))
  let s := if fon s pgThm (Fl.thmTWarn n) then setIrq pgThm 8 s else s
  let s := if fon s pgThm (Fl.thmTLimit n) then setIrq pgThm 9 s else s
  let s := if fon s pgThm (Fl.thmTCrit n) then thermTrip n s else s
  let s := if thermHot s then (if s.thm.riseAt.isNone then floorRise s else s) else updThm (fun t => { t with riseAt := none }) s
  updThm (fun t => { t with coolAt := if thermCool s then some (t.coolAt.getD s.us) else none }) s

/-- STEP_US has passed since the last rise with a sensor at LIMIT (R462). -/
def doThermStep (s : State) : State :=
  match s.thm.riseAt with
  | some a => if thermHot s && decide (a + fget s pgThm Fl.thmCtrlStepUs ≤ s.us) then floorRise s else s
  | none => s

/-- THM_RELAX has passed with every valid sensor below LIMIT less HYST: the floor falls one state (R462). -/
def doThermRelax (s : State) : State :=
  match s.thm.coolAt with
  | some a =>
    let f := fget s pgThm Fl.thmMaxFloor
    if f ≠ 0 ∧ a + fget s pgThm Fl.thmRelaxUs ≤ s.us then
      fset pgThm Fl.thmMaxFloor (f - 1) (updThm (fun t => { t with coolAt := some s.us }) s)
    else s
  | none => s

/-! ## The meanings -/

/-- SENSOR_SAMPLE (R461). -/
def execSensorSample (i : Sensor) (reading : Int) (s : State) : Host.Outcome State Fault Refusal := ok (doSample i.val reading s)
/-- THERMAL_STEP (R462). -/
def execThermalStep (s : State) : Host.Outcome State Fault Refusal := ok (doThermStep s)
/-- THERMAL_RELAX (R462). -/
def execThermalRelax (s : State) : Host.Outcome State Fault Refusal := ok (doThermRelax s)

end Sys2Proof.Machine
end

