-- ==== Sys2Proof/Machine/Boot.lean ====
section
/-! DEFINITION. Package resets, the boot sequence and the firmware image (14, R471 to R479, R485 to R489, R496, R500). -/

namespace Sys2Proof.Machine

/-! ## Mailbox queues (R370) -/

def sdioSt (s : State) (p : PartId) : SdioSt := Tab.get {} s.sdio p
def setSdio (p : PartId) (x : SdioSt) (s : State) : State := { s with sdio := Tab.put s.sdio p x }
def updSdio (p : PartId) (f : SdioSt → SdioSt) (s : State) : State := setSdio p (f (sdioSt s p)) s

/-- SDIO_MBOX_STAT shows the queues (R372). -/
def showMbox (p : PartId) (s : State) : State :=
  fsets (pgSdio p) [(Fl.sdioMboxStatToFw, (sdioSt s p).toFw.length), (Fl.sdioMboxStatToHost, (sdioSt s p).toHost.length)] s

/-! ## Package resets (R471, R472) -/

/-- CAUSE of SEC_RST_CAUSE (R497). -/
def causeBit : RstCause → Nat
  | .por => 1
  | .pin => 2
  | .soft => 4
  | .wdog => 8

/-- The registers that show what the fuses hold (R478, R497). -/
def showFuses (s : State) : State := s.boot.fuses.foldl (fun s e => wr pgSec e.1 e.2 s) s

/-- Every page takes its reset values and every state is lost; a PIN, SOFT or WDOG reset keeps what R471 lists, and Sinter,
the fuses, the levels of the pins and a full retraining that is owed outlive any (R311, R471, R478, R483; log 119). -/
def packageReset (c : RstCause) (s : State) : State :=
  let s := loseDirty s
  let keep := decide (c ≠ .por)
  let low := fon s pgPwr Fl.pwrAlertAsserted
  let n : State := { State.reset with
    pending := s.pending, now := s.now, us := s.us, usPhase := s.usPhase, freeCtr := s.freeCtr, mem := s.mem, snt := s.snt
    boot := { fuses := s.boot.fuses, opTicks := if keep then s.boot.opTicks else 0 }
    fum := if keep then { buf := s.fum.buf, optime := s.fum.optime, cycle := s.fum.cycle } else {}
    subs := s.subs.map (fun e => (e.1, { selfRef := if keep then e.2.selfRef else none, retrain := e.2.retrain }))
    devs := s.devs }
  let n := gradeThresholds (showFuses n)
  let n := fset pgSec Fl.secRstCauseCause (causeBit c) n
  let n := if keep then
      fsets pgThm [(Fl.thmTripSensor, fget s pgThm Fl.thmTripSensor), (Fl.thmTripTripped, fget s pgThm Fl.thmTripTripped)]
        (fsets pgFum [(Fl.fumSeqSeq, fget s pgFum Fl.fumSeqSeq), (Fl.fumLostCount, fget s pgFum Fl.fumLostCount),
          (Fl.fumSupprCount, fget s pgFum Fl.fumSupprCount)] n) else n
  if low then updPwr (fun p => { p with alertFloor := true }) (fsets pgPwr [(Fl.pwrAlertAsserted, 1), (Fl.pwrWakeQFrozen, 1)] n) else n

/-- Every record on its way has arrived at Fumarole. -/
def takeRecords (s : State) : State := s.fumIn.foldl (fun s _ => doFumRecord s) s

/-- A PIN, SOFT or WDOG reset has its cause: every record made so far is in the buffer, the flush starts, and the reset
takes effect at its end (R472, R493). -/
def askReset (c : RstCause) (s : State) : State :=
  if s.boot.rst.isSome then s else startFlush (takeRecords (updBoot (fun b => { b with rst := some c }) s))

/-- A flush ends (R493); a reset that waited for it takes effect, and the buffer keeps what arrived meanwhile (R471, R472). -/
def doFlushed (s : State) : State :=
  if !fon s pgFum Fl.fumStatFlushing then s else
  let s := endFlush s
  if fon s pgFum Fl.fumStatFlushing then s else
  match s.boot.rst with
  | some c => packageReset c (takeRecords s)
  | none => s

/-- SEC_RST_CTL (R472): GO against an ARM at most 1 ms old resets; ARM arms afresh. -/
def rstCtlWrite (v : Word) (s : State) : State :=
  let armed := match s.boot.armAt with
    | some a => decide (s.us ≤ a + 1000)
    | none => false
  let s := if bitAt v 0 then updBoot (fun b => { b with armAt := some s.us }) s else s
  if bitAt v 1 && armed then askReset .soft s else s

/-- SEC_WDOG.KICK (R471). -/
def kickWdog (s : State) : State := updBoot (fun b => { b with kickAt := some s.us }) s

/-- The watchdog expires (R471, R496). -/
def doWdog (s : State) : State :=
  match s.boot.kickAt with
  | some k =>
    if k + 1000 * fget s pgSec Fl.secWdogLimitMs ≤ s.us && s.boot.rst.isNone then askReset .wdog (recordFault pgSec 0x0D 0x0B s) else s
  | none => s

/-! ## Fuses (R478, R479) -/

/-- The word of SEC that a fuse word shows. -/
def fuseWord (s : State) (off : Nat) : Word := rd s pgSec off

/-- Blow bits of a fuse word. Fuses only go from 0 to 1; which of them have gone when programming fails is open. -/
def blow (good : Bool) (off : Nat) (bits : Word) (s : State) : State :=
  let (v, s) := if good then (0, s) else fresh s
  let bits := if good then bits else bits &&& BitVec.ofNat 32 v
  let w := rd s pgSec off ||| bits
  wr pgSec off w (updBoot (fun b => { b with fuses := Tab.put b.fuses off w }) s)

/-- The offsets of SEC_ARB_FUSE and SEC_FUSE_FLAGS (R497). -/
def arbOff : Nat := Fl.secArbFuseCount.off
def flagsOff : Nat := Fl.secFuseFlagsCustValid.off

/-- A write of `n` to SEC_ARB_ADV: bits are blown until the count is min(n, SEC_FW_VER); it never falls (R479). -/
def arbAdvance (good : Bool) (n : Nat) (s : State) : State :=
  let old := fget s pgSec Fl.secArbFuseCount
  let goal := min n (fget s pgSec Fl.secFwVerRollback)
  if goal ≤ old then s else
  let (v, s) := if good then (goal - old, s) else fresh s
  let w := Fl.secArbFuseCount.put (rd s pgSec arbOff) (old + v % (goal - old + 1))
  wr pgSec arbOff w (updBoot (fun b => { b with fuses := Tab.put b.fuses arbOff w }) s)

/-! ## The image (R475 to R477) -/

/-- A little-endian field of a header. -/
def hdr (l : List Byte) (off n : Nat) : Nat := leNat ((l.drop off).take n)
/-- Part of a byte string. -/
def slice (l : List Byte) (off n : Nat) : List Byte := (l.drop off).take n

def firmwareSram : Nat := 0x1C00000000

/-- IMG_FORMAT: the header's fields are in range (R475, R477). -/
def formatOk (h : List Byte) : Bool :=
  decide (hdr h 0 4 = 0x57465A4F ∧ hdr h 4 4 = 1) && within 1 1048576 (hdr h 8 4) && decide (hdr h 0xC 4 < 1048576)
    && decide (hdr h 0x18 4 ≤ 1)

/-- The PUBKEY field of an image (R475, log 67). -/
def imageKey (h : List Byte) : List Byte := slice h 0x100 0x800

/-- The fuse digest that KEY_SEL names. -/
def fuseDigest (s : State) (cust : Bool) : List Byte :=
  (upTo 16).flatMap (fun w => wordBytes (rd s pgSec (if cust then (Fl.secCkeyDDigest w).off else (Fl.secVkeyDDigest w).off)))

/-- KEY_DIGEST (R477). -/
def keyOk (s : State) (h : List Byte) : Bool :=
  let cust := hdr h 0x18 4 = 1
  (if cust then fon s pgSec Fl.secFuseFlagsCustValid else !fon s pgSec Fl.secFuseFlagsVendorRevoked)
    && decide (Config.shake256 (imageKey h) = fuseDigest s cust)

/-- SIG_INVALID: the signature over H_IMG verifies (R475, R477). -/
def sigOk (h : List Byte) : Bool :=
  decide (hdr h 0x900 2 ≤ 1280)
    && Config.falconVerify (slice h 0x100 1793) (slice h 0x902 (hdr h 0x900 2)) (Config.shake256 (slice h 0 0x900))

/-- The checks of R477 in their order: the detail of the first that fails. -/
def imageFault (s : State) (h body : List Byte) : Option Nat :=
  if !formatOk h then some 3
  else if !keyOk s h then some 4
  else if !sigOk h then some 5
  else if Config.shake256 body ≠ slice h 0x40 64 then some 6
  else if hdr h 0x10 8 < fget s pgSec Fl.secArbFuseCount ∨ 64 < hdr h 0x10 8 then some 7
  else none

/-- A detail of class 0x0D that boot records (R473, R496). -/
def bootNote (det : Nat) (s : State) : State := recordFault pgSec 0x0D det (fset pgSec Fl.secBootStatDetail det s)

/-- The boot ends (R473). -/
def bootEnd (det : Nat) (s : State) : State := fset pgSec Fl.secBootStatFailed 1 (bootNote det s)

/-- The ROM places SDIO0's bulk ring over the firmware SRAM and rewinds it (R476). -/
def rewindRing (s : State) : State :=
  let pg := pgSdio 0
  let s := updSdio 0 (fun x => { x with used := 0, bulk := none }) (updBoot (fun b => { b with header := [] }) s)
  fsets pg [(Fl.sdioBulkWrOffset, 0), (Fl.sdioBulkRdOffset, 0)] s

/-- The ROM waits for a pushed image, unless SDIO_BOOT_DIS is set (R476). -/
def awaitPush (s : State) : State :=
  if fon s pgSec Fl.secFuseFlagsSdioBootDis then fset pgSec Fl.secBootStatFailed 1 s else
  let pg := pgSdio 0
  let s := fset pgSec Fl.secBootStatSource 1 (updBoot (fun b => { b with push := true }) s)
  let s := wr pg Fl.sdioBulkBaseLoBase.off (BitVec.ofNat 32 firmwareSram)
    (wr pg Fl.sdioBulkBaseHiBase.off (BitVec.ofNat 32 (firmwareSram / 2 ^ 32)) s)
  rewindRing (wr pg Fl.sdioBulkSizeSize.off 0x100000 s)

/-- Step 7: the checked image starts (R473). -/
def startImage (h : List Byte) (s : State) : State :=
  let s := fsets pgSec [(Fl.secFwVerRollback, hdr h 0x10 8), (Fl.secBootStatKey, hdr h 0x18 4), (Fl.secBootStatPhase, 7)] s
  let s := recordEvent 0x1002 pgSec (BitVec.ofNat 32 (hdr h 0x10 8)) 0 0 s
  let s := updBoot (fun b => { b with push := false, running := true, kickAt := some s.us, hImg := Config.shake256 (slice h 0 0x900) }) s
  fset pgXcore Fl.xcoreRunRun 0xF s

/-- An image is checked: it starts, or its failure is recorded (R477, R497). -/
def tryImage (h body : List Byte) (fails : State → State) (s : State) : State :=
  let s := fbump pgSec Fl.secBootStatAttempts 1 s
  match imageFault s h body with
  | none => startImage h s
  | some d => fails (bootNote d s)

/-- Step 6 with an image from SPI NOR; its body is read once, into SRAM, after the signature is checked (R476, R477). -/
def spiBoot (image : List Byte) (s : State) : State :=
  if fon s pgSec Fl.secFuseFlagsSpiBootDis then awaitPush s
  else if hdr image 0 4 ≠ 0x57465A4F then awaitPush (bootNote 2 s)
  else
    let h := image.take 0x2000
    let body := slice image 0x2000 (hdr h 8 4)
    let s := if formatOk h && keyOk s h && sigOk h then poke firmwareSram body s else s
    tryImage h body awaitPush s

/-- The image the host has pushed: the header store and the body in SRAM (R476). -/
def pushedImage (s : State) : List Byte × List Byte :=
  (s.boot.header ++ List.replicate (0x2000 - s.boot.header.length) 0, peek s firmwareSram (min 1048576 (hdr s.boot.header 8 4)))

/-! ## Sinter at boot (R487 to R489, R498) -/

/-- The always-on pages (R446). -/
def alwaysOnPages : List PageKey := allParts.map pgPart ++ [pgClk, pgPwr, pgThm, pgSnt, pgFum, pgSec]

/-- The bits of a register that Sinter retains: IRQ_MASK of every page (R41), and what the table gives (R11). -/
def sntMask (k : RegKey) : Word :=
  if k.off = 0x014 then 0xFFFFFFFF
  else match regSpec k.pg.kind k.off with
    | some (r, _) => BitVec.ofNat 32 r.snt
    | none => 0

/-- The retained registers of a page take their values from the retained copy (R473, R487). -/
def restorePage (s : State) (pg : PageKey) : State :=
  (s.retained.filter (fun e => decide (e.1.pg = pg))).foldl (fun s e =>
    wr pg e.1.off ((rd s pg e.1.off &&& ~~~ sntMask e.1) ||| (e.2 &&& sntMask e.1)) s) s

/-- IRQ_MASK of every page takes its value from the retained copy; the header of a page whose domain is off is held in the
always-on domain (R41, R52, R487). -/
def restoreMasks (s : State) : State :=
  (s.retained.filter (fun e => decide (e.1.off = 0x014))).foldl (fun s e => wr e.1.pg 0x014 e.2 s) s

/-- The restored configuration gives pages their owners and starts the partitions' counters, as its commit would (R376,
R377, log 66). -/
def restoreParts (s : State) : State :=
  allParts.foldl (fun s p =>
    if !partValid s p then s else
    let s := (allTiles.filter (hasTile s p)).foldl (fun s t => (tilePages t).foldl (fun s pg => fset pg Fl.ownerPart p.val s) s) s
    let s := (allPorts.filter (hasCam s p)).foldl (fun s n => (camPages n).foldl (fun s pg => fset pg Fl.ownerPart p.val s) s) s
    if (Tab.get none s.partCnt p).isNone then { s with partCnt := Tab.put s.partCnt p (some 0) } else s) s

/-- Select the last snapshot and check it (R489). -/
def selectSnapshot (digestOk : Bool) (s : State) : State :=
  if s.snt.ignore then fset pgSnt Fl.sntStatIgnored 1 s
  else match s.snt.last with
    | none => fset pgSnt Fl.sntStatNone 1 s
    | some x =>
      if !digestOk then recordFault pgSnt 0x0D 9 (fset pgSnt Fl.sntStatDigestFail 1 s)
      else restoreParts (restoreMasks (alwaysOnPages.foldl restorePage (fset pgSnt Fl.sntStatRestored 1 { s with retained := x.vals, trained := x.trained })))

/-- What the ROM loads from the flag block and the tag area (R488, R490, R498). -/
def loadSnt (s : State) : State :=
  let s := fsets pgSnt [(Fl.sntCtrlIgnore, b2n s.snt.ignore), (Fl.sntOptimeTime, s.fum.optime), (Fl.sntCyclesCount, s.fum.cycle),
    (Fl.sntTagLockLock, s.snt.tagLock), (Fl.sntSnapSeqSeq, (s.snt.last.map Snap.seq).getD 0)] s
  s.snt.tags.foldl (fun s e => wr pgSnt (Fl.sntTagData e.1).off e.2 s) s

/-- Step 3: the flag block, the power-cycle count, the snapshot (R473, R491, R492). -/
def bootSinter (digestOk : Bool) (s : State) : State :=
  let cause := fget s pgSec Fl.secRstCauseCause
  let por := cause = 1
  let s := if por then updSnt (fun x => { x with cycles := x.cycles + 1 }) s else s
  let s := updFum (fun f => { f with cycle := s.snt.cycles, optime := if por then s.snt.optime + f.optime else f.optime }) s
  let s := selectSnapshot digestOk (loadSnt s)
  recordEvent 0x1001 pgSec (BitVec.ofNat 32 cause) 0 0 s

/-! ## The boot sequence (R473) -/

/-- A die has a path of UP links from XD (R473 step 5). -/
def dieReached (s : State) (d : Die) : Bool :=
  decide (d = .xd) || (match directLink .xd d with
    | some k => decide (linkState s k = 2)
    | none => false) || (detours .xd d).any (fun p => p.all (fun k => decide (linkState s k = 2)))

def setPhaseNo (n : Nat) (s : State) : State := fset pgSec Fl.secBootStatPhase n s

/-- Step 4 goes on: the root is switched once its PLL is ready; without a crystal in 2 ms, AUX_PLL takes its place (R473). -/
def bootClocks (s : State) : State :=
  if fon s pgClk Fl.clkStatSwitching then s
  else if s.boot.auxPath then
    (if fget s pgClk Fl.clkStatRoot = 1 then
      setPhaseNo 5 (admitWakes ([13, 14, 16].foldl (fun s d => requestWake d 0 s) s))
    else if srcReady s 5 then rootWrite 1 s else s)
  else if fget s pgClk Fl.clkStatRoot = 2 then setPhaseNo 5 (admitWakes ([13, 14, 16].foldl (fun s d => requestWake d 0 s) s))
  else if srcReady s 4 then rootWrite 2 s
  else if !srcReady s 2 && decide (s.boot.xtalAt + 2000 ≤ s.us) then
    recordFault pgClk 7 3 (fset pgClk Fl.clkPllCtrlAuxEn 1 (updBoot (fun b => { b with auxPath := true }) s))
  else s

/-- The boot sequence does what it can do next (R473). -/
def doBoot (o : BootObs) (s : State) : State :=
  if fon s pgSec Fl.secBootStatFailed || s.boot.rst.isSome then s else
  match bootPhase s with
  | 0 => if tripped s || fon s pgPwr Fl.pwrAlertAsserted then s else powerNow 23 (setPhaseNo 1 s)
  | 1 => if !domainOn s 23 then s else
    let s := setPhaseNo 2 s
    if o.fuseOk then s else bootEnd 1 s
  | 2 => bootSinter o.digestOk (setPhaseNo 3 s)
  | 3 => setPhaseNo 4 (fset pgClk Fl.clkPllCtrlRootEn 1 (updPwr (fun p => { p with xtalA := true }) (updBoot (fun b => { b with xtalAt := s.us }) s)))
  | 4 => bootClocks s
  | 5 => if allLinks.any (fun k => linkState s k != 2 && linkState s k != 4) then s
    else if !allDies.all (dieReached s) then bootEnd 8 s
    else spiBoot o.image (setPhaseNo 6 s)
  | _ => s

/-! ## Errors of the firmware SRAM (R501) -/

/-- A single-bit error is corrected and counted; an uncorrectable one stops every core (R501). -/
def doSramEcc (corrected : Bool) (s : State) : State :=
  if !domainOn s 23 then s
  else if corrected then setIrq pgXcore 8 (fbump pgXcore Fl.xcoreEccCorrected 1 s)
  else
    let s := fbump pgXcore Fl.xcoreEccUncorr 1 s
    let s := fset pgXcore Fl.xcoreRunRun 0 (updBoot (fun b => { b with running := false }) s)
    recordFault pgXcore 0x0D 0x0C s

/-! ## The meanings -/

/-- POR (R471). -/
def execPor (s : State) : Host.Outcome State Fault Refusal := ok (packageReset .por s)
/-- PIN (R471, R472). -/
def execPin (s : State) : Host.Outcome State Fault Refusal := ok (askReset .pin s)
/-- SEC_RST_ARM (R472). -/
def execSecRstArm (who : Requester) (s : State) : Host.Outcome State Fault Refusal := ok (guarded who pgSec 0x124 (rstCtlWrite 1) s)
/-- SOFT (R472): a write of SEC_RST_CTL with GO. -/
def execSoft (who : Requester) (v : Word) (s : State) : Host.Outcome State Fault Refusal :=
  ok (guarded who pgSec 0x124 (rstCtlWrite (v ||| 2)) s)
/-- WDOG_KICK (R471). -/
def execWdogKick (who : Requester) (s : State) : Host.Outcome State Fault Refusal := ok (guarded who pgSec 0x128 kickWdog s)
/-- WDOG (R471). -/
def execWdog (s : State) : Host.Outcome State Fault Refusal := ok (doWdog s)
/-- BOOT_SEQUENCE (R473). -/
def execBootSequence (o : BootObs) (s : State) : Host.Outcome State Fault Refusal := ok (doBoot o s)
/-- FLUSHED (R493). -/
def execFlushed (s : State) : Host.Outcome State Fault Refusal := ok (doFlushed s)
/-- FW_SRAM_ECC (R501). -/
def execFwSramEcc (corrected : Bool) (s : State) : Host.Outcome State Fault Refusal := ok (doSramEcc corrected s)
/-- SEC_ARB_ADV (R479). -/
def execSecArbAdv (who : Requester) (v : Word) (good : Bool) (s : State) : Host.Outcome State Fault Refusal :=
  ok (guarded who pgSec 0x144 (arbAdvance good (v.toNat % 128)) s)

end Sys2Proof.Machine
end

