-- ==== Sys2Proof/Machine/Services.lean ====
section
/-! DEFINITION. The firmware's mailbox services, and Sinter: snapshots, IGNORE, the user tag area (14, R476, R479 to R490,
R497, R498, R500). -/

namespace Sys2Proof.Machine

/-! ## Mailbox services (R370, R480) -/

/-- SERVICE and TAG of a message (R370). -/
def msgService (m : List Byte) : Nat := (m.getD 0 0).toNat
def msgTag (m : List Byte) : Nat := leNat (slice m 2 2)

/-- A message of 64 bytes with its words 1 and up. -/
def replyMsg (service tag : Nat) (ws : List Word) : List Byte :=
  let b := wordBytes (BitVec.ofNat 32 (service + 0x10000 * tag)) ++ ws.flatMap wordBytes
  b ++ List.replicate (64 - b.length) 0

/-- What a service comes to: a wait for memory, or an answer. -/
inductive Answer where
  | wait (s : State)
  | done (words : List Word) (s : State)

/-- Serve the oldest message of port `p` if `want` accepts it and the reply has room (R370, R480). -/
def serve (p : PartId) (want : List Byte → Bool) (code : List Byte → Nat) (act : List Word → State → Answer) (s : State) : State :=
  match (sdioSt s p).toFw with
  | [] => s
  | m :: rest =>
    if !want m || decide (8 ≤ (sdioSt s p).toHost.length) then s else
    match act (wordsOf m) s with
    | .wait s => s
    | .done ws s => showMbox p (updSdio p (fun x => { x with toFw := rest, toHost := x.toHost ++ [replyMsg (code m) (msgTag m) ws] }) s)

/-- A service of the running firmware. -/
def service (p : PartId) (code : Nat) (act : List Word → State → Answer) (s : State) : State :=
  if fwRuns s then serve p (fun m => msgService m = code) (fun _ => code) act s else s

/-- An answer with a status alone. -/
def status (n : Nat) (s : State) : Answer := .done [BitVec.ofNat 32 n] s

/-- A 40-bit address in two request words. -/
def reqAddr (w : List Word) (i : Nat) : Nat := jw w i + 2 ^ 32 * (jw w (i + 1) % 256)

/-- The firmware writes a result with the partition's tag; `refused` is the status when a firewall or a target refuses it
(R480, R482). -/
def writeResult (p : PartId) (a : Nat) (d : List Byte) (refused : Nat) (s : State) : Answer :=
  let who : Requester := .fw p false
  match grantRange s who true a d.length with
  | .served => status 0 (pokeReq who a d s)
  | .error c e => status refused (refuseReq who c e s)
  | .errorOn pg c e x => status refused (recordOn pg c e x s)
  | g => .wait (waitEffect who g s)

/-- BOOT_IMAGE (R476, R480): only while the ROM waits, and only for PART0; word 1 holds SEC_BOOT_STAT. -/
def bootImageSvc (p : PartId) (s : State) : Answer :=
  if !s.boot.push || p.val != 0 then status 1 s else
  let i := pushedImage s
  let s := tryImage i.1 i.2 rewindRing s
  .done [rd s pgSec 0x130] s

/-- The committed configuration of the four PART pages (R482). -/
def cfgBytes (s : State) : List Byte := allParts.flatMap (fun p => (upTo 64).flatMap (fun i => wordBytes (rd s (pgPart p) (0x100 + 4 * i))))

/-- ATTEST (R482). -/
def attestSvc (p : PartId) (w : List Word) (s : State) : Answer :=
  let nonce := ((w.drop 1).take 8).flatMap wordBytes
  let d := Config.shake256 (s.boot.hImg ++ cfgBytes s ++ nonce)
  let sig := Config.deviceSign d
  let out := d.take 64 ++ List.replicate (64 - d.length) 0 ++ leBytes 64 sig.length ++ sig.take 2048
  writeResult p (reqAddr w 9) (out ++ List.replicate (2176 - out.length) 0) 1 s

/-- The unit's certificate (R481): its fields that registers show as they show them, the rest as the factory stored it. -/
def certBytes (s : State) : List Byte :=
  leBytes 4 0x54435A4F ++ wordBytes (rd s pgSec (Fl.secUnitIdId 0).off) ++ wordBytes (rd s pgSec (Fl.secUnitIdId 1).off)
    ++ leBytes 4 (fget s pgSec Fl.secIdPartGrade) ++ (upTo 512).flatMap (fun i => wordBytes (rd s pgSec (Fl.secDevkeyKey i).off))
    ++ (upTo (4178 - 0x810)).map (fun i => Config.certificate (0x810 + i))

/-- A fuse service (R480): PART0 alone, with its confirmation word. -/
def fuseSvc (p : PartId) (confirm : Option Nat) (w : List Word) (act : State → Answer) (s : State) : Answer :=
  if p.val != 0 then status 1 s
  else if (match confirm with
      | some c => decide (jw w 3 ≠ c)
      | none => false) then status 3 s
  else act s

/-- FUSE_CUSTKEY (R480). -/
def custKeySvc (good : Bool) (w : List Word) (s : State) : Answer :=
  if fon s pgSec Fl.secFuseFlagsCustValid then status 2 s else
  match fetchWords s (.fw 0 false) (reqAddr w 1) 16 with
  | .waits g => .wait (waitEffect (.fw 0 false) g s)
  | .fails g => status 4 (noteFetch (.fw 0 false) g s)
  | .got d =>
    let s := (upTo 16).foldl (fun s i => blow good (Fl.secCkeyDDigest i).off (nth 0 d i) s) s
    if good then status 0 (blow true flagsOff 1 s) else status 5 s

/-- FUSE_REVOKE (R480). -/
def revokeSvc (good : Bool) (s : State) : Answer :=
  if !fon s pgSec Fl.secFuseFlagsCustValid then status 3 s
  else if fon s pgSec Fl.secFuseFlagsVendorRevoked then status 2 s
  else status (if good then 0 else 5) (blow good flagsOff 2 s)

/-- ARB_ADVANCE (R479, R480). -/
def arbSvc (good : Bool) (w : List Word) (s : State) : Answer :=
  let s := arbAdvance good (jw w 1 % 128) s
  .done [if good then 0 else 5, BitVec.ofNat 32 (fget s pgSec Fl.secArbFuseCount)] s

/-- BOOT_DISABLE (R478, R480). -/
def disableSvc (good : Bool) (w : List Word) (s : State) : Answer :=
  let bits := 4 * (jw w 1 % 4)
  if (bits ||| (rd s pgSec flagsOff).toNat) &&& 0xC = 0xC then status 3 s
  else status (if good then 0 else 5) (blow good flagsOff (BitVec.ofNat 32 bits) s)

/-- The services the table names (R480). -/
def knownService (n : Nat) : Bool := within 1 7 n

/-! ## Snapshots (R484 to R487) -/

/-- The S fields of a register as a snapshot keeps them, or none where it keeps none. -/
def keepS (k : RegKey) (w : Word) : Option (RegKey × Word) :=
  if sntMask k = 0 then none else some (k, (w &&& sntMask k) ||| (resetWord k.pg k.off &&& ~~~ sntMask k))

/-- The committed values of a page's S fields; above its header, a page whose domain is off gives those of the retained
copy (R52, R484). -/
def pageValues (s : State) (pg : PageKey) : List (RegKey × Word) :=
  (s.regs.filter (fun e => decide (e.1.pg = pg) && (pagePowered s pg || decide (e.1.off < 0x100)))).filterMap (fun e => keepS e.1 e.2)
    ++ s.retained.filter (fun e => decide (e.1.pg = pg) && !pagePowered s pg && decide (0x100 ≤ e.1.off))

/-- What a snapshot holds once the pages it has not read yet are read (R485). -/
def snapValues (s : State) : List (RegKey × Word) :=
  s.boot.readVals ++ (allPages.drop s.boot.readPages).flatMap (pageValues s)

/-- A snapshot that is collecting reads its next page, whole, in one cycle (R485, log 73). -/
def collectPage (s : State) : State :=
  if fget s pgSnt Fl.sntStatSnap != 1 then s else
  match allPages[s.boot.readPages]? with
  | none => s
  | some pg => updBoot (fun b => { b with readPages := b.readPages + 1, readVals := b.readVals ++ pageValues s pg }) s

/-- The training record of a subchannel in service, or the one the retained copy holds (R314, R484). -/
def snapTraining (s : State) : List TrainRec :=
  (upTo 8).filterMap (fun i =>
    let pg : PageKey := ⟨.hubDdr, i⟩
    if fget s pg Fl.state = 2 then
      some { settings s i with cfg := memConfig s }
    else s.trained.find? (fun r => r.page = i))

/-- SNT_SNAP.GO: a snapshot starts, or waits behind the one in progress (R485). -/
def snapGo (s : State) : State :=
  if fget s pgSnt Fl.sntStatSnap = 0 then fset pgSnt Fl.sntStatSnap 1 (updBoot (fun b => { b with readPages := 0, readVals := [] }) s)
  else fset pgSnt Fl.sntStatPending 1 s

/-- The pages not read yet are read and the values have been collected: the slot is written (R485). -/
def doCollected (s : State) : State :=
  if fget s pgSnt Fl.sntStatSnap != 1 then s else
  let seq := ((s.snt.last.map Snap.seq).getD 0 + 1) % 2 ^ 32
  fset pgSnt Fl.sntStatSnap 2 (updBoot (fun b => { b with snap := some ⟨seq, snapValues s, snapTraining s⟩, readPages := 0, readVals := [] }) s)

/-- The marker is written: the snapshot is complete and becomes the retained copy. A flush pauses the write (R485 to R487). -/
def doSnapshot (s : State) : State :=
  match s.boot.snap with
  | none => s
  | some x =>
    if fget s pgSnt Fl.sntStatSnap != 2 || fon s pgFum Fl.fumStatFlushing then s else
    let s := { updSnt (fun y => { y with last := some x }) (updBoot (fun b => { b with snap := none }) s) with retained := x.vals, trained := x.trained }
    let s := setIrq pgSnt 8 (fsets pgSnt [(Fl.sntSnapSeqSeq, x.seq), (Fl.sntStatSnap, 0)] s)
    let s := recordEvent 0x1003 pgSnt (BitVec.ofNat 32 x.seq) 0 0 s
    if fon s pgSnt Fl.sntStatPending then snapGo (fset pgSnt Fl.sntStatPending 0 s) else s

/-! ## IGNORE and the tag area (R488, R490) -/

/-- SNT_CTRL.IGNORE is stored at once (R488). -/
def ignoreWrite (v : Word) (s : State) : State :=
  fset pgSnt Fl.sntCtrlIgnore (Fl.sntCtrlIgnore.get v) (updSnt (fun x => { x with ignore := bitAt v 0 }) s)

/-- A word of the tag area is programmed, or its block is locked (R490). -/
def tagWrite (i : Nat) (v : Word) (s : State) : State :=
  if s.snt.tagLock.testBit (i / 16) then recordFault pgSnt 0x0D 0x0A s
  else wr pgSnt (Fl.sntTagData i).off v (updSnt (fun x => { x with tags := Tab.put x.tags i v }) s)

/-- Blocks are locked for good (R490). -/
def tagLock (v : Word) (s : State) : State :=
  let n := s.snt.tagLock ||| Fl.sntTagLockLock.get v
  fset pgSnt Fl.sntTagLockLock n (updSnt (fun x => { x with tagLock := n }) s)

/-- XCORE_CNT_CLR.ECC (R500). -/
def xcoreClr (s : State) : State := wr pgXcore 0x10C 0 s

/-! ## The meanings -/

/-- BOOT_IMAGE (R476). -/
def execBootImage (p : PartId) (s : State) : Host.Outcome State Fault Refusal :=
  ok (if s.boot.push || fwRuns s then serve p (fun m => msgService m = 1) (fun _ => 1) (fun _ => bootImageSvc p) s else s)
/-- ATTEST (R482). -/
def execAttest (p : PartId) (s : State) : Host.Outcome State Fault Refusal := ok (service p 2 (attestSvc p) s)
/-- CERT (R480, R481). -/
def execCert (p : PartId) (s : State) : Host.Outcome State Fault Refusal :=
  ok (service p 3 (fun w s => writeResult p (reqAddr w 9) (certBytes s) 4 s) s)
/-- FUSE_CUSTKEY (R480). -/
def execFuseCustkey (p : PartId) (good : Bool) (s : State) : Host.Outcome State Fault Refusal :=
  ok (service p 4 (fun w => fuseSvc p (some 0x4B455953) w (custKeySvc good w)) s)
/-- FUSE_REVOKE (R480). -/
def execFuseRevoke (p : PartId) (good : Bool) (s : State) : Host.Outcome State Fault Refusal :=
  ok (service p 5 (fun w => fuseSvc p (some 0x5245564B) w (revokeSvc good)) s)
/-- ARB_ADVANCE (R480). -/
def execArbAdvance (p : PartId) (good : Bool) (s : State) : Host.Outcome State Fault Refusal :=
  ok (service p 6 (fun w => fuseSvc p none w (arbSvc good w)) s)
/-- BOOT_DISABLE (R480). -/
def execBootDisable (p : PartId) (good : Bool) (s : State) : Host.Outcome State Fault Refusal :=
  ok (service p 7 (fun w => fuseSvc p (some 0x424F4F54) w (disableSvc good w)) s)
/-- UNKNOWN (R370, R480): the reply's SERVICE is 0xFF, with the request's TAG; its words are 0 (log 69). -/
def execUnknown (p : PartId) (s : State) : Host.Outcome State Fault Refusal :=
  ok (if fwRuns s then serve p (fun m => !knownService (msgService m)) (fun _ => 0xFF) (fun _ s => .done [] s) s else s)
/-- SNT_SNAP (R485). -/
def execSntSnap (who : Requester) (s : State) : Host.Outcome State Fault Refusal := ok (guarded who pgSnt 0x104 snapGo s)
/-- SNAPSHOT_COLLECTED (R485). -/
def execSnapshotCollected (s : State) : Host.Outcome State Fault Refusal := ok (doCollected s)
/-- SNAPSHOT (R485). -/
def execSnapshot (s : State) : Host.Outcome State Fault Refusal := ok (doSnapshot s)
/-- IGNORE_WRITE (R488). -/
def execIgnoreWrite (who : Requester) (v : Word) (s : State) : Host.Outcome State Fault Refusal :=
  ok (guarded who pgSnt 0x100 (unlocked pgSnt (ignoreWrite v)) s)
/-- TAG_WRITE (R490). -/
def execTagWrite (who : Requester) (i : Fin 256) (v : Word) (s : State) : Host.Outcome State Fault Refusal :=
  ok (guarded who pgSnt (0x800 + 4 * i.val) (unlocked pgSnt (tagWrite i.val v)) s)
/-- TAG_LOCK (R490). -/
def execTagLock (who : Requester) (v : Word) (s : State) : Host.Outcome State Fault Refusal :=
  ok (guarded who pgSnt 0x120 (unlocked pgSnt (tagLock v)) s)
/-- XCORE_CNT_CLR (R500). -/
def execXcoreCntClr (who : Requester) (s : State) : Host.Outcome State Fault Refusal := ok (guarded who pgXcore 0x110 xcoreClr s)

end Sys2Proof.Machine
end

