-- ==== Sys2Proof/Machine/Views.lean ====
section
/-! DEFINITION. What a read of a register returns: the stored word, or what the unit behind it shows (00, R9, R10; 02, R39,
R41, R45, R50, R52; the register tables of every chapter). -/

namespace Sys2Proof.Machine

/-! ## Fields put together -/

/-- A word from fields: each with its lowest bit, width and value. -/
def packed (l : List (Nat × Nat × Nat)) : Word :=
  BitVec.ofNat 32 (l.foldl (fun a e => a + 2 ^ e.1 * (e.2.2 % 2 ^ e.2.1)) 0)

/-- A bit vector of the numbers below `n` that satisfy `f`. -/
def bitsWhere (n : Nat) (f : Nat → Bool) : Nat := (upTo n).foldl (fun a i => if f i then a + 2 ^ i else a) 0

/-- A count of free entries in an 8-bit field; the spec does not say what 256 reads as (log 7). -/
def free8 (n : Nat) : Nat := if n ≤ 255 then n else Config.openValue 20 [(n : Int)]

/-! ## The header (R39, R41, R50, R105, R500) -/

/-- CTRL.EN as it reads. -/
def enView (s : State) (pg : PageKey) : Nat :=
  if kindAlwaysOn pg.kind then 1
  else if pg.kind = .xcore then b2n (pagePowered s pg)
  else if followsTile pg then fget s ⟨.tile, pg.inst⟩ Fl.ctrlEn else fget s pg Fl.ctrlEn

/-- STATE as it reads. -/
def stateView (s : State) (pg : PageKey) : Nat := if followsTile pg then fget s ⟨.tile, pg.inst⟩ Fl.state else pageState s pg

/-- A register of the common header. -/
def headerView (s : State) (pg : PageKey) (off : Nat) : Word :=
  match off with
  | 0x008 => BitVec.ofNat 32 (enView s pg)
  | 0x00C => BitVec.ofNat 32 (stateView s pg)
  | 0x018 => irqStat s pg
  | _ => rd s pg off

/-! ## Tiles -/

/-- A command of a queue with one of the opcodes is dispatched and not complete. -/
def running (s : State) (t : TileId) (q : Engine) (ops : Nat → Bool) : Option QEntry :=
  (queue s t q).find? (fun e => decide (e.phase = .running) && ops (opcodeOf e))

/-- Some command of a queue is dispatched and not complete; a COMMIT, a SIGNAL or a WAIT at a queue's head is no command of
the engine. -/
def engineBusy (s : State) (t : TileId) (q : Engine) : Bool := (running s t q (fun o => !within 0x30 0x32 o && o != 0x34)).isSome

/-- V, or OVF, of 32 accumulator rows (R107). -/
def accBits (x : Tile) (bank row : Nat) (f : AccRow → Bool) : Word := BitVec.ofNat 32 (bitsWhere 32 (fun i => f (accRow x bank (row + i))))

/-- LANE_STATUS (R107). DESIGN CHOICE (log 106): where two STREAMs are dispatched and not complete, PERLANE shows the older
one's. -/
def laneStatus (s : State) (t : TileId) : Word :=
  let x := tile s t
  let st := running s t .lane (fun o => o = 0x02)
  packed [(0, 1, b2n st.isSome), (1, 1, b2n (running s t .lane (fun o => o = 0x01)).isSome),
    (2, 1, b2n (planeOf x x.active).valid), (3, 1, b2n (planeOf x (1 - x.active)).valid), (4, 1, x.active),
    (5, 2, (planeOf x x.active).fmt), (7, 1, b2n (st.map (fun e => e.perlane) = some true))]

/-- A register of a stream engine's page (R282). -/
def strmView (s : State) (t : TileId) (e : StrmId) (off : Nat) : Word :=
  if off = 0x100 then
    packed [(0, 1, b2n (engineBusy s t (strmEng e))), (4, 4, bitsWhere 4 (fun k => (nth {} (chansOf (tile s t) e) k).armed)),
      (8, 9, min 256 (readsOut s t (strmEng e)))]
  else rd s (pgStrm t e) off

/-- STATS_DATA0 and STATS_DATA1 of the record STATS_SEL names (R130, R131). -/
def statsData (s : State) (t : TileId) (hi : Bool) : Word :=
  let r := Tab.get {} (tile s t).stats (fget s (pgStats t) Fl.statsSelEntry)
  if hi then packed [(0, 16, r.fmax), (16, 8, r.lowrun), (24, 1, b2n r.fsat)] else packed [(0, 16, r.amax), (16, 16, r.satcnt)]

/-- TILE_BANK_OWN as it reads: an owner code that is not defined reads as 0xF (R106). -/
def ownView (v : Word) : Word :=
  packed ((upTo 8).map (fun b => (4 * b, 4, let c := bitsOf v.toNat (4 * b) 4
    if c ≤ 5 then c else 0xF)))

/-- A register of a tile's pages at 0x100 and above. -/
def tileView (s : State) (pg : PageKey) (off : Nat) : Word :=
  let t := tileOf pg.inst
  let x := tile s t
  match pg.kind with
  | .tile =>
    if off = 0x100 then packed [(0, 7, t.val), (8, 3, t.val % 8), (12, 4, t.val / 8)]
    else if off = 0x104 || off = 0x108 then ownView (rd s pg off)
    else if off = 0x110 then packed [(0, 5, x.lane.length), (8, 5, x.vec.length), (16, 6, x.s0.length), (24, 6, x.s1.length)]
    else if off = 0x404 then Fl.tileDescStatUsed.put (rd s pg off) x.descs.length
    else if within 0x420 0x42F off && decide (off % 4 = 0) then
      (Fl.tileSpanOpen 0).put (rd s pg off) (queue s t (engOf ((off - 0x420) / 4))).length
    else rd s pg off
  | .seq => if off = 0x104 then Fl.seqStatusIlActive.put (rd s pg off) (b2n (ilActive s t)) else rd s pg off
  | .lane =>
    if off = 0x100 then laneStatus s t
    else if within 0x110 0x11F off && decide (off % 4 = 0) then accBits x ((off - 0x110) / 8) (32 * ((off / 4) % 2)) AccRow.v
    else if within 0x120 0x12F off && decide (off % 4 = 0) then accBits x ((off - 0x120) / 8) (32 * ((off / 4) % 2)) AccRow.ovf
    else rd s pg off
  | .vec =>
    if off = 0x100 then
      let r := running s t .vec (fun o => !within 0x30 0x32 o && o != 0x34)
      packed [(0, 1, b2n r.isSome), (4, 4, match r with
        | some e => e.mode - 16
        | none => 0)]
    else rd s pg off
  | .spad =>
    if off = 0x174 then BitVec.ofNat 32 (Tab.get 0 s.barriers (ownerOf s pg, fget s pg Fl.spadBarSelBar) % 2 ^ 16) else rd s pg off
  | .strm0 => strmView s t 0 off
  | .strm1 => strmView s t 1 off
  | .stats => if off = 0x108 then statsData s t false else if off = 0x10C then statsData s t true else rd s pg off
  | _ => rd s pg off

/-! ## PART pages (R371, R375, R402) -/

/-- A page's interrupt counts for partition `p`: the page is p's, or it is the PART or SDIO page that is p's own (R371, R372,
R375). -/
def irqFor (s : State) (p : PartId) (pg : PageKey) : Bool :=
  (match pg.kind with
    | .part => decide (p.val = 0 ∨ pg.inst = p.val)
    | .sdio => decide (pg.inst = p.val)
    | _ => decide (ownerOf s pg = p)) && irqStat s pg != 0

/-- The pages PART_IRQ_SYS numbers (R402). -/
def sysPages : List PageKey :=
  (upTo 2).flatMap (fun h => (⟨.hub, h⟩ :: (upTo 4).map (fun c => ⟨.hubDdr, 4 * h + c⟩)) ++ [⟨.hubLlc, h⟩])
    ++ allParts.map pgPart
    ++ [pgClk, pgPwr, pgThm, pgSnt, pgFum, pgCal, pgSec, pgEng .warp, pgEng .codec, pgEng .token] ++ allParts.map pgSdio ++ [pgXcore]

/-- A register of a PART page at 0x100 and above. -/
def partView (s : State) (pg : PageKey) (off : Nat) : Word :=
  let p := partOf pg.inst
  match off with
  | 0x200 => BitVec.ofNat 32 (partCount s p)
  | 0x218 => packed [(0, 5, (queuedJobs s p).length), (5, 7, (s.jobs.filter (fun j => decide (j.part = p) && j.stage != .queued && j.stage != .released)).length),
      (16, 16, fget s pg Fl.partJobStatRefused)]
  | 0x224 => packed [(0, 8, free8 (cplFree s p)), (8, 8, (cplOf s p).next)]
  | 0x230 | 0x234 | 0x238 =>
    BitVec.ofNat 32 (bitsWhere 32 (fun i => (tilePages (tileOf (32 * ((off - 0x230) / 4) + i))).any (irqFor s p)))
  | 0x23C => BitVec.ofNat 32 (bitsWhere 12 (fun i => (camPages (portOf i)).any (irqFor s p)))
  | 0x240 => BitVec.ofNat 32 (bitsWhere 31 (fun i => irqFor s p (nth pgXcore sysPages i)))
  | _ => rd s pg off

/-! ## The other pages -/

/-- RING_STAT of a shared engine's channel, by the offset (R359, R363). -/
def chanRing (e : SharedEng) (off : Nat) : Option RingId :=
  if within 0x430 0xBFF off && decide ((off - 0x430) % 0x80 = 0) then some (.chan e (chanOf ((off - 0x430) / 0x80))) else none

/-- A register of a page at 0x100 and above. -/
def blockView (s : State) (pg : PageKey) (off : Nat) : Word :=
  match pg.kind with
  | .part => partView s pg off
  | .cam => if off = 0x210 then BitVec.ofNat 32 (ringStat s (.cam (portOf pg.inst))) else rd s pg off
  | .tap =>
    if within 0x210 0x27F off && decide ((off - 0x210) % 0x20 = 0) then
      BitVec.ofNat 32 (ringStat s (.tap (portOf pg.inst) ⟨((off - 0x210) / 0x20) % 4, Nat.mod_lt _ (by decide)⟩))
    else rd s pg off
  | .warp | .codec | .token =>
    match (sharedOf pg.kind).bind (fun e => chanRing e off) with
    | some r => BitVec.ofNat 32 (ringStat s r)
    | none => rd s pg off
  | .hub =>
    let h : HubId := if pg.inst = 0 then 0 else 1
    if off = 0x104 then BitVec.ofNat 32 (memCap s)
    else if within 0x144 0x15C off && decide ((off - 0x144) % 8 = 0) then BitVec.ofNat 32 (loadVal s h ((off - 0x144) / 8))
    else rd s pg off
  | .hubLlc =>
    let h : HubId := if pg.inst = 0 then 0 else 1
    if off = 0x114 then BitVec.ofNat 32 (llcHits s h) else if off = 0x118 then BitVec.ofNat 32 (llcMisses s h) else rd s pg off
  | .clk => if off = 0x110 then Fl.clkArithFloorSrc.put (rd s pg off) (floorSrc s) else rd s pg off
  | .pwr =>
    if off = 0x104 then rd s pg off ||| BitVec.ofNat 32 (bitsWhere 26 (fun d => s.wakeQ.any (fun w => w.1.val = d)))
    else if off = 0x114 then Fl.pwrWakeQQueued.put (rd s pg off) s.wakeQ.length
    else rd s pg off
  | .fum =>
    if off = 0x108 then packed [(0, 7, s.fum.buf.length), (8, 1, fget s pg Fl.fumStatFlushing), (16, 9, s.snt.founding.length)]
    else if off = 0x10C then packed [(0, 10, s.snt.next), (16, 1, b2n s.snt.wrapped)]
    else if within 0x140 0x15C off && decide (off % 4 = 0) then
      (match fumSelected s with
        | some r => nth 0 (recWords r) ((off - 0x140) / 4)
        | none => 0)
    else rd s pg off
  | .cal =>
    if off = 0x104 then
      (match (safetyPart s).bind (nextGroup s) with
        | some g => Fl.calStatusNextTg.put (rd s pg off) g
        | none => rd s pg off)
    else if off = 0x130 then
      packed [(0, 8, free8 (vringFree s)), (8, 8, fget s pg Fl.calVringStatNext), (16, 9, s.cal.held.length)]
    else if within 0x190 0x198 off && decide (off % 4 = 0) then
      BitVec.ofNat 32 (bitsWhere 32 (fun i => s.cal.out.contains (tileOf (32 * ((off - 0x190) / 4) + i))))
    else rd s pg off
  | .xcore => if off = 0x104 then Fl.xcoreRunWfi.put (rd s pg off) (if coresWait s then fget s pg Fl.xcoreRunRun else 0) else rd s pg off
  | _ => if isTilePage pg.kind then tileView s pg off else rd s pg off

/-- What a register holds as software sees it, whoever reads: 0 where a page is not powered, or holds no register (R10, R52).
Write-only bits are never stored, so they read 0 (R9). -/
def regView (s : State) (pg : PageKey) (off : Nat) : Word :=
  if !pageExists pg then 0
  else if off < 0x100 then headerView s pg off
  else if pagePowered s pg then blockView s pg off else 0

/-- A read of a register by a requester: what it shows, or 0 (R45, R374); PART_CNT_LO latches the high half (R402). -/
def readBy (who : Requester) (pg : PageKey) (off : Nat) (s : State) : Word × State :=
  let p := reqPart s who
  if !(partReaches s p pg && mayReadBy s p pg off) then (0, s)
  else (regView s pg off, if pg.kind = .part && off = 0x200 then latchCount (partOf pg.inst) s else s)

/-! ## Pins -/

/-- SAFE_FAULT_N is low: the CAL page is not ON, or its mode is not NORMAL (R407, R441). -/
def safeFaultLow (s : State) : Bool := !calOn s || calMode s != 1
/-- THERMTRIP_N is low (R463). -/
def thermtripLow (s : State) : Bool := tripped s

/-- SDIO interrupt of a port on DAT1: an F1 or F2 interrupt is enabled in the CCCR, with the master enable, and a page of
the partition or the mailbox calls (R371). -/
def sdioIrq (s : State) (p : PartId) : Bool :=
  let e := Tab.get 0 (sdioSt s p).cccr 0x04
  bitAt (e.zeroExtend 32) 0 && (bitAt (e.zeroExtend 32) 1 || bitAt (e.zeroExtend 32) 2)
    && (allPages.any (irqFor s p) || !(sdioSt s p).toHost.isEmpty)

end Sys2Proof.Machine
end

