-- ==== Sys2Proof/Machine/Bus.lean ====
section
/-! DEFINITION. A register write from any requester: what the registers at 0x100 and above of every page do, and the
commands that write a page's registers (00, R9, R10; 02, R35 to R55; the register tables of every chapter; 13, R452). -/

namespace Sys2Proof.Machine

/-! ## The bulk ring (R370, R476) -/

/-- Bytes of a bulk ring, and its first address. -/
def bulkSize (s : State) (p : PartId) : Nat := rd s (pgSdio p) 0x11C |>.toNat
def bulkBase (s : State) (p : PartId) : Nat := fgetAddr s (pgSdio p) Fl.sdioBulkBaseLoBase Fl.sdioBulkBaseHiBase

/-- Bytes go into the ring at SDIO_BULK_WR, wrapping at its end; while the ROM accepts a pushed image they are SRAM's (R31,
R370). -/
def bulkPut (p : PartId) (d : List Byte) (s : State) : State :=
  let n := bulkSize s p
  let at' := fget s (pgSdio p) Fl.sdioBulkWrOffset
  let sram := decide (p.val = 0) && s.boot.push
  let put := fun (o : Nat) (x : List Byte) (s : State) => if sram then poke (bulkBase s p + o) x s else pokeReq (.host p) (bulkBase s p + o) x s
  let s := put 0 (d.drop (n - at')) (put at' (d.take (n - at')) s)
  let s := fset (pgSdio p) Fl.sdioBulkWrOffset ((at' + d.length) % n) (updSdio p (fun x => { x with used := x.used + d.length }) s)
  setIrq (pgSdio p) 9 s

/-- What a block of `n` bytes on its way into the ring waits for in memory (R23, R26, R315). -/
def bulkWait (s : State) (p : PartId) (n : Nat) : Option Grant :=
  let at' := fget s (pgSdio p) Fl.sdioBulkWrOffset
  if p.val = 0 && s.boot.push then none
  else firstWait s (.host p) [(bulkBase s p + at', min n (bulkSize s p - at')), (bulkBase s p, n - (bulkSize s p - at'))]

/-- Blocks that wait go into the ring, in order, while it has room and its memory is in service (R315, R370). -/
def bulkTry (p : PartId) (s : State) : State :=
  match (sdioSt s p).bulk with
  | some (bs, a) =>
    let r := bs.foldl (fun (r : List (List Byte) × State) b =>
      if !(r.1.isEmpty && decide ((sdioSt r.2 p).used + b.length ≤ bulkSize s p)) then (r.1 ++ [b], r.2)
      else match bulkWait r.2 p b.length with
        | some g => ([b], waitEffect (.host p) g r.2)
        | none => ([], bulkPut p b r.2)) ([], s)
    if r.1.isEmpty then updSdio p (fun x => { x with bulk := none, answered := true }) r.2
    else updSdio p (fun x => { x with bulk := some (r.1, if r.1.length < bs.length then s.us else a) }) r.2
  | none => s

/-- The firmware advances SDIO_BULK_RD: the bytes it has consumed are room again (R370). -/
def bulkConsume (p : PartId) (old : Nat) (s : State) : State :=
  let n := bulkSize s p
  if n = 0 then s else
  let new := fget s (pgSdio p) Fl.sdioBulkRdOffset
  bulkTry p (updSdio p (fun x => { x with used := x.used - (new + n - old % n) % n }) s)

/-! ## HUB_LINK_CTRL (R28) -/

/-- A write of HUB_LINK_CTRL through either HUB page (R28). -/
def linkCtrlWrite (pg : PageKey) (v : Word) (s : State) : State :=
  forceChanged (fget s (pgHub 0) Fl.hubLinkCtrlForceDown) (plainWrite pg 0x820 v s)

/-! ## What a page's registers do -/

/-- Apply `f` if a bit is written 1. -/
def onBit (v : Word) (i : Nat) (f : State → State) (s : State) : State := if bitAt v i then f s else s

/-- CAM, ISP and TAP (R329, R339, R358, R361, R362). -/
def camOwn (pg : PageKey) (off : Nat) (v : Word) (s : State) : State :=
  let n := portOf pg.inst
  match pg.kind with
  | .cam =>
    if off = 0x110 then drivePwren n (plainWrite pg off v s)
    else if off = 0x138 then onBit v 1 (zeroRegs pg [0x134]) (onBit v 0 (zeroRegs pg [0x130]) s)
    else if off = 0x214 then ringRelease (.cam n) (v.toNat % 64) s
    else plainWrite pg off v s
  | .tap =>
    if within 0x214 0x27F off && decide ((off - 0x214) % 0x20 = 0) then
      ringRelease (.tap n ⟨((off - 0x214) / 0x20) % 4, Nat.mod_lt _ (by decide)⟩) (v.toNat % 64) s
    else plainWrite pg off v s
  | _ => plainWrite pg off v s

/-- A channel's registers of a shared-engine page (R339, R340, R346, R350, R363). -/
def chanOwn (e : SharedEng) (c : Chan) (off : Nat) (v : Word) (s : State) : State :=
  let pg := pgEng e
  let r : RingId := .chan e c
  match (off - 0x400) % 0x80 with
  | 0x00 =>
    let was := fon s pg (Fl.chOwnEn c.val)
    let s := plainWrite pg off v s
    if was && !fon s pg (Fl.chOwnEn c.val) then stopRing r s else s
  | 0x0C => chSubmit e c v s
  | 0x20 | 0x24 | 0x28 | 0x2C => ringSync r (plainWrite pg off v s)
  | 0x34 => ringRelease r (v.toNat % 64) s
  | _ => plainWrite pg off v s

/-- A shared engine's page. -/
def engOwn (e : SharedEng) (off : Nat) (v : Word) (s : State) : State :=
  match chanAt off with
  | some c => chanOwn e (chanOf c) off v s
  | none => plainWrite (pgEng e) off v s

/-- The hub pages (R28, R318, R319, R321, R322). -/
def hubOwn (pg : PageKey) (off : Nat) (v : Word) (s : State) : State :=
  let h : HubId := if pg.inst = 0 then 0 else 1
  match pg.kind with
  | .hub =>
    if off = 0x160 then onBit v 0 (hubBwClear h) s
    else if off = 0x820 then linkCtrlWrite pg v s
    else plainWrite pg off v s
  | .hubDdr => if off = 0x150 then onBit v 1 (zeroRegs pg [0x108]) (onBit v 0 (zeroRegs pg [0x140, 0x144]) s) else plainWrite pg off v s
  | _ =>
    if off = 0x130 then llcFlush h v s
    else if off = 0x134 then onBit v 1 (zeroRegs pg [0x120, 0x124]) (onBit v 0 (llcStatClear h) s)
    else plainWrite pg off v s

/-- A PART page (R58, R383, R384, R390, R402). -/
def partOwn (p : PartId) (off : Nat) (v : Word) (s : State) : State :=
  match off with
  | 0x208 => syncTokens p v s
  | 0x214 => jobSubWrite p v s
  | 0x21C => jobCancel p v s
  | 0x220 => cplRelease p (Fl.partCplRelCount.get v) s
  | _ => plainWrite (pgPart p) off v s

/-- The CAL page (R409, R419, R430, R440). -/
def calOwn (off : Nat) (v : Word) (s : State) : State :=
  match off with
  | 0x100 => onBit v 8 clrDegraded (plainWrite pgCal off v s)
  | 0x114 => fwBeat v s
  | 0x12C => vringRelease (Fl.calVringRelCount.get v) s
  | 0x180 => redirectWrite 0 v s
  | 0x184 => redirectWrite 1 v s
  | 0x188 => redirectWrite 2 v s
  | 0x18C => redirectWrite 3 v s
  | 0x19C => tileForce v s
  | 0x1C4 => onBit v 1 stClear (onBit v 0 (zeroRegs pgCal [0x1B0, 0x1B4, 0x1B8, 0x1BC, 0x1C0]) s)
  | _ => plainWrite pgCal off v s

/-- The always-on pages other than PART and HUB, SDIO and XCORE (R370 to R372, R451, R454, R456, R460, R471, R472, R479,
R485, R490, R493, R497 to R500). -/
def sysOwn (pg : PageKey) (off : Nat) (v : Word) (s : State) : State :=
  match pg.kind, off with
  | .clk, 0x100 => unlocked pg (rootWrite (Fl.clkRootSrc.get v)) s
  | .clk, 0x108 => unlocked pg (pllWrite v) s
  | .clk, 0x110 => abandonRise (plainWrite pg off v s)
  | .pwr, 0x130 => onBit v 0 enterIdle (plainWrite pg off v s)
  | .snt, 0x100 => unlocked pg (ignoreWrite v) s
  | .snt, 0x104 => onBit v 0 snapGo s
  | .snt, 0x120 => unlocked pg (tagLock v) s
  | .fum, 0x100 => onBit v 1 clearRing (onBit v 0 startFlush s)
  | .sec, 0x124 => rstCtlWrite v s
  | .sec, 0x128 => onBit v 31 kickWdog (plainWrite pg off v s)
  | .sec, 0x144 => arbAdvance true (v.toNat % 128) s
  | .sdio, 0x124 =>
    let old := fget s pg Fl.sdioBulkRdOffset
    bulkConsume (partOf pg.inst) old (plainWrite pg off v s)
  | .sdio, 0x134 => onBit v 0 (zeroRegs pg [0x130]) s
  | .xcore, 0x108 =>
    let old := fget s pg Fl.xcoreFwStatPhase
    let s := plainWrite pg off v s
    if fget s pg Fl.xcoreFwStatPhase = old then s else setIrq pg 9 s
  | .xcore, 0x110 => onBit v 0 xcoreClr s
  | .snt, _ => if within 0x800 0xBFC off && decide (off % 4 = 0) then unlocked pg (tagWrite ((off - 0x800) / 4) v) s else plainWrite pg off v s
  | _, _ => plainWrite pg off v s

/-- What a write of a register at 0x100 and above does. -/
def busOwn (_who : Requester) (pg : PageKey) (off : Nat) (v : Word) (s : State) : State :=
  match pg.kind with
  | .cam | .isp | .tap => camOwn pg off v s
  | .hub | .hubDdr | .hubLlc => hubOwn pg off v s
  | .part => partOwn (partOf pg.inst) off v s
  | .cal => calOwn off v s
  | .warp => engOwn .warp off v s
  | .codec => engOwn .codec off v s
  | .token => engOwn .token off v s
  | .clk | .pwr | .thm | .snt | .fum | .sec | .sdio | .xcore => sysOwn pg off v s
  | _ => tilePageOwn pg off v s

/-! ## A write arrives -/

/-- A host's write of its own PART page cancels deep-idle entry that has not turned the SDIO domain off (R452). -/
def touched (who : Requester) (pg : PageKey) (s : State) : State :=
  match who with
  | .host p => if pg = pgPart p then cancelEntry s else s
  | _ => s

/-- An aligned 32-bit write of a register. -/
def busWrite (who : Requester) (pg : PageKey) (off : Nat) (v : Word) (s : State) : State := writeBy busOwn who pg off v (touched who pg s)

/-- A write of `width` bits at a byte offset: all but an aligned 32-bit one is discarded and recorded (R37). -/
def doRegisterWrite (who : Requester) (pg : PageKey) (off width : Nat) (v : Word) (s : State) : State :=
  if !pageExists pg then s
  else if width = 32 ∧ off % 4 = 0 then busWrite who pg off v s
  else recordFault pg 6 8 s

/-! ## The meanings -/

/-- PAGE_ENABLE (R48). -/
def execPageEnable (who : Requester) (pg : PageKey) (s : State) : Host.Outcome State Fault Refusal :=
  ok (guarded who pg 0x008 (enablePage pg (reqPart s who)) (touched who pg s))
/-- PAGE_DISABLE (R48). -/
def execPageDisable (who : Requester) (pg : PageKey) (s : State) : Host.Outcome State Fault Refusal :=
  ok (guarded who pg 0x008 (disablePage pg) (touched who pg s))
/-- SOFT_RST (R51). -/
def execSoftRst (who : Requester) (pg : PageKey) (s : State) : Host.Outcome State Fault Refusal :=
  ok (guarded who pg 0x008 (softRstPage pg) (touched who pg s))
/-- IRQ_STAT_CLEAR (R42). -/
def execIrqStatClear (who : Requester) (pg : PageKey) (bits arriving : Word) (s : State) : Host.Outcome State Fault Refusal :=
  ok (guarded who pg 0x018 (irqClear pg bits arriving) (touched who pg s))
/-- FAULT_CLR (R41). -/
def execFaultClr (who : Requester) (pg : PageKey) (s : State) : Host.Outcome State Fault Refusal :=
  ok (guarded who pg 0x01C (faultClear pg) (touched who pg s))
/-- OWNER_WRITE (R47). -/
def execOwnerWrite (who : Requester) (pg : PageKey) (v : Word) (s : State) : Host.Outcome State Fault Refusal :=
  ok (guarded who pg 0x028 (ownerSet pg v) (touched who pg s))
/-- LOCK_CFG_SET (R46). -/
def execLockCfgSet (who : Requester) (pg : PageKey) (s : State) : Host.Outcome State Fault Refusal :=
  ok (guardedWord who pg 0x02C 1 (lockSet pg Fl.lockCfg) (touched who pg s))
/-- LOCK_OWN_SET (R46). -/
def execLockOwnSet (who : Requester) (pg : PageKey) (s : State) : Host.Outcome State Fault Refusal :=
  ok (guardedWord who pg 0x02C 2 (lockSet pg Fl.lockOwn) (touched who pg s))
/-- TXN_OPEN (R54). -/
def execTxnOpen (who : Requester) (pg : PageKey) (v : Word) (s : State) : Host.Outcome State Fault Refusal :=
  ok (guarded who pg 0x020 (txnOpenBy (reqPart s who) pg v) (touched who pg s))
/-- TXN_COMMIT (R58). -/
def execTxnCommit (who : Requester) (pg : PageKey) (s : State) : Host.Outcome State Fault Refusal :=
  ok (guarded who pg 0x020 (txnCommitCore pg) (touched who pg s))
/-- TXN_ABORT (R63). -/
def execTxnAbort (who : Requester) (pg : PageKey) (s : State) : Host.Outcome State Fault Refusal :=
  ok (guarded who pg 0x020 (txnAbortCore pg) (touched who pg s))
/-- A write of a TX field or window word: a word of SEQ_IMEM is staged in the sequencer's instruction group while the
sequencer runs (R55, R56, R213). -/
def txAct (pg : PageKey) (off : Nat) (v : Word) (s : State) : State :=
  if pg.kind = .seq ∧ 0x20000 ≤ off then imemWrite (tileOf pg.inst) ((off - 0x20000) / 4) v s else stageTx pg off v s
/-- TX_WRITE (R55). -/
def execTxWrite (who : Requester) (pg : PageKey) (off : Nat) (v : Word) (s : State) : Host.Outcome State Fault Refusal :=
  ok (guarded who pg off (unlocked pg (txAct pg off v)) (touched who pg s))
/-- JOB_SUBMIT (R383). -/
def execJobSubmit (who : Requester) (p : PartId) (v : Word) (s : State) : Host.Outcome State Fault Refusal :=
  ok (guarded who (pgPart p) 0x214 (jobSubWrite p v) (touched who (pgPart p) s))
/-- JOB_CANCEL (R384). -/
def execJobCancel (who : Requester) (p : PartId) (v : Word) (s : State) : Host.Outcome State Fault Refusal :=
  ok (guarded who (pgPart p) 0x21C (jobCancel p v) (touched who (pgPart p) s))
/-- CPL_REL (R390). -/
def execCplRel (who : Requester) (p : PartId) (v : Word) (s : State) : Host.Outcome State Fault Refusal :=
  ok (guarded who (pgPart p) 0x220 (cplRelease p (Fl.partCplRelCount.get v)) (touched who (pgPart p) s))
/-- PART_SYNC (R58, R401). -/
def execPartSync (who : Requester) (p : PartId) (v : Word) (s : State) : Host.Outcome State Fault Refusal :=
  ok (guarded who (pgPart p) 0x208 (syncTokens p v) (touched who (pgPart p) s))
/-- REGISTER_WRITE (R9). -/
def execRegisterWrite (who : Requester) (pg : PageKey) (off width : Nat) (v : Word) (s : State) : Host.Outcome State Fault Refusal :=
  ok (doRegisterWrite who pg off width v s)
/-- FORCE_DOWN (R28): a write of HUB_LINK_CTRL that sets link k's bit. -/
def execForceDown (who : Requester) (h : HubId) (k : LinkId) (s : State) : Host.Outcome State Fault Refusal :=
  ok (guarded who (pgHub h) 0x820 (linkCtrlWrite (pgHub h) (rd s (pgHub h) 0x820 ||| oneBit k.val)) s)
/-- FORCE_DOWN_RELEASE (R28): a write of HUB_LINK_CTRL that clears link k's bit. -/
def execForceDownRelease (who : Requester) (h : HubId) (k : LinkId) (s : State) : Host.Outcome State Fault Refusal :=
  ok (guarded who (pgHub h) 0x820 (linkCtrlWrite (pgHub h) (rd s (pgHub h) 0x820 &&& ~~~ oneBit k.val)) s)
/-- SDIO_CNT_CLR (R372). -/
def execSdioCntClr (who : Requester) (p : PartId) (s : State) : Host.Outcome State Fault Refusal :=
  ok (guarded who (pgSdio p) 0x134 (zeroRegs (pgSdio p) [0x130]) s)

end Sys2Proof.Machine
end

