-- ==== Sys2Proof/Machine/Requests.lean ====
section
/-! DEFINITION. Requests into the device address space, and what a request for a register does (01, R19, R24, R31; 02, R37,
R45). -/

namespace Sys2Proof.Machine

/-! ## At the serving die -/

/-- The table write held last is the one of request `id`, which completes when it is applied (R102). -/
def lutWaits (id : Nat) (t : TileId) (s : State) : State :=
  updTile t (fun x => { x with lutHeld := x.lutHeld.dropLast ++ x.lutHeld.getLast?.toList.map (fun e => (e.1, e.2.1, some id)) }) s

/-- A request for a register: an aligned word is written or read; anything else writes nothing, reads 0 and is recorded on the
page (R37). A write the partition may not make completes with an error response (R45, R379). -/
def regRequest (o : Outstanding) (pg : PageKey) (off : Nat) (s : State) : State :=
  if !(decide (o.req.len = 4) && decide (off % 4 = 0)) then
    oddRegister o pg s
  else if o.req.write then
    let v := nth 0 (wordsOf o.req.data) 0
    let err := (writeRefusal s o.who pg off v).map (fun d => (5, d))
    let s' := busWrite o.who pg off v s
    if pg.kind = .vec && decide ((tile s (tileOf pg.inst)).lutHeld.length < (tile s' (tileOf pg.inst)).lutHeld.length) then
      lutWaits o.id (tileOf pg.inst) s'
    else finishReq o.id err [] s'
  else match readRefusal s o.who pg with
  | some d => refuseOut o 5 d s
  | none =>
    let r := readBy o.who pg off s
    finishReq o.id none (wordBytes r.1) r.2

/-- The next request a link port serves of those it holds: the partition tags take turns, and within a tag the oldest comes
first (R19). -/
def nextHeld (s : State) (last : Nat) (l : List Outstanding) : Option Outstanding :=
  (upTo 4).findSome? (fun i => l.find? (fun o => decide ((reqPart s o.who).val = (last + 1 + i) % 4)))

/-- The order in which a link port serves `n` of the requests it holds, after one of tag `last` (R19). -/
def turns (s : State) : Nat → Nat → List Outstanding → List Outstanding
  | 0, _, _ => []
  | n + 1, last, l => match nextHeld s last l with
    | none => []
    | some o => o :: turns s n (reqPart s o.who).val (l.filter (fun x => decide (x.id ≠ o.id)))

/-- The requests held at the ports of link `k`. -/
def heldAt (s : State) (k : LinkId) : List Outstanding := s.outstanding.filter (fun o => decide (o.place = .held k))

/-- Every request held for a link is sent if it can be, in the order in which the link serves them (R19, R23, R24, R26). -/
def resendHeld (s : State) : State :=
  (allLinks.flatMap (fun k => turns s (heldAt s k).length (linkSt s k).lastTag (heldAt s k))).foldl (fun s o => sendReq regRequest o s) s

/-- A requester issues a request: its lines, in ascending order, after whatever is held before them (R24). -/
def doDeviceRequest (who : Requester) (q : Req) (s : State) : State :=
  let a := q.addr.toNat
  (lineCuts a q.len).foldl (fun s c => issueLine regRequest who q.write c.1 c.2 ((q.data.drop (c.1 - a)).take c.2) s) (resendHeld s)

/-! ## The meanings -/

/-- DEVICE_REQUEST (R31). -/
def execDeviceRequest (who : Requester) (q : Req) (s : State) : Host.Outcome State Fault Refusal := ok (doDeviceRequest who q s)

end Sys2Proof.Machine
end

