-- ==== Sys2Proof/Machine/Completions.lean ====
section
/-! DEFINITION. The completions that come back to their requesters, and the commands of the stream engines, whose requests go
through the network (01, R24; 05, R176, R177, R185, R187; 08, R258 to R279). -/

namespace Sys2Proof.Machine

/-! ## The completion (R24, R185, R187) -/

/-- The stream engine of a requester. -/
def strmOf : Requester → Option (TileId × StrmId)
  | .tile t .s0 => some (t, 0)
  | .tile t .s1 => some (t, 1)
  | _ => none

/-- A completion reaches its requester. One that a tile's stream engine no longer waits for is discarded (R187); an error
response faults the tile's job (R185). -/
def doResponse (id : Nat) (s : State) : State :=
  match s.outstanding.find? (fun o => decide (o.id = id) && decide (o.place = .answered)) with
  | none => s
  | some o =>
    let s := { s with outstanding := s.outstanding.filter (fun x => decide (x.id ≠ id)) }
    if o.epoch ≠ reqEpoch s o.who then s else
    let s := { s with completed := some o }
    match o.who, o.err with
    | .tile t _, some e => faultJob t e.1 e.2 s
    | .seq t, some e => faultJob t e.1 e.2 s
    | who, none => match strmOf who with
      | some p => strmResponse regRequest p.1 p.2 o s
      | none => s
    | _, _ => s

/-! ## The meanings -/

/-- RESPONSE_RECEIVE (R24, R185). -/
def execResponseReceive (id : Nat) (s : State) : Host.Outcome State Fault Refusal := ok (doResponse id s)
/-- MOVE (R176). -/
def execMove (t : TileId) (q : Engine) (s : State) : Host.Outcome State Fault Refusal := ok (doMove regRequest t q s)
/-- REGROUP (R223). -/
def execRegroup (t : TileId) (e : StrmId) (s : State) : Host.Outcome State Fault Refusal := ok (doRegroup regRequest t e s)
/-- GATHER (R177). -/
def execGather (t : TileId) (e : StrmId) (s : State) : Host.Outcome State Fault Refusal := ok (doGather regRequest t e s)
/-- SEND (R275). -/
def execSend (t : TileId) (e : StrmId) (s : State) : Host.Outcome State Fault Refusal := ok (doSend regRequest t e s)
/-- RECV (R276). -/
def execRecv (t : TileId) (e : StrmId) (s : State) : Host.Outcome State Fault Refusal := ok (doRecv regRequest t e s)
/-- MULTICAST_DROP (R277). -/
def execMulticastDrop (t : TileId) (e : StrmId) (r : TileId) (tag : Byte) (lag : Nat) (s : State) :
    Host.Outcome State Fault Refusal :=
  ok (doMcDrop regRequest t e r tag.toNat lag s)
/-- STRM_CMD_COMPLETE (R258). -/
def execStrmCmdComplete (t : TileId) (e : StrmId) (s : State) : Host.Outcome State Fault Refusal := ok (doStrmComplete regRequest t e s)
/-- REMOTE_SLOT_STEP (R259). -/
def execRemoteSlotStep (t : TileId) (sl : Fin 32) (i : Nat) (s : State) : Host.Outcome State Fault Refusal :=
  ok (doRemoteStep t sl i s)
/-- CHANNEL_ARM (R270). -/
def execChannelArm (t : TileId) (e : StrmId) (s : State) : Host.Outcome State Fault Refusal := ok (doChannelArm regRequest t e s)
/-- REARM (R273). -/
def execRearm (t : TileId) (e : StrmId) (s : State) : Host.Outcome State Fault Refusal := ok (doRearm regRequest t e s)
/-- CHANNEL_BLOCK_DONE (R271). -/
def execChannelBlockDone (t : TileId) (e : StrmId) (c : Fin 4) (s : State) : Host.Outcome State Fault Refusal :=
  ok (doBlockDone regRequest t e c s)

end Sys2Proof.Machine
end

