-- ==== Sys2Proof/Machine/Links.lean ====
section
/-! DEFINITION. The links: packets, replays, retraining, detours and training (01, R16, R21 to R26, R30). -/

namespace Sys2Proof.Machine

/-- FABRIC cycles of a counting interval (R21). -/
def replayInterval : Nat := 1600000
/-- Microseconds within which a training reaches UP (R26). -/
def trainLimit : Nat := 30

/-- A packet arrives: a good one is acknowledged, one with a bad CRC is to be replayed (R21). -/
def linkPacket (k : LinkId) (good : Bool) (s : State) : State :=
  if linkState s k = 2 then
    let x := linkSt s k
    setLinkSt k (if good then { x with unacked := x.unacked - 1 } else { x with toReplay := x.toReplay + 1 }) s
  else s

/-- The sender replays the packet, which counts in the interval and in REPLAY_CNT (R16, R21, R27). -/
def linkReplay (k : LinkId) (s : State) : State :=
  let x := linkSt s k
  if linkState s k = 2 ∧ 0 < x.toReplay then
    fbump (pgHub 0) (Fl.hubLinkStatReplayCnt k.val) 1 (setLinkSt k { x with toReplay := x.toReplay - 1, replays := x.replays + 1 } s)
  else s

/-- A counting interval of a link in UP ends (R21). -/
def replayIntervalEnd (k : LinkId) (s : State) : State :=
  let x := linkSt s k
  if linkState s k = 2 ∧ x.gridAt + replayInterval ≤ s.now then
    setLinkSt k { x with replays := 0, gridAt := x.gridAt + replayInterval } s
  else s

/-- The count of an interval exceeds REPLAY_LIMIT (R21, R22, R23, R24). -/
def replayLimit (k : LinkId) (s : State) : State :=
  if linkState s k = 2 ∧ fget s (pgHub 0) Fl.hubLinkCtrlReplayLimit < (linkSt s k).replays then
    resendHeld (beginRetrain k (leaveUp k 3 (linkFault 1 s)))
  else s

/-- A retrain succeeds; `spared` says that it has put a spare in place of a failed lane (R22, R25, R27). -/
def retrainDone (k : LinkId) (spared : Bool) (s : State) : State :=
  if linkState s k = 3 then
    let s := if spared then fset (pgHub 0) (Fl.hubLinkStatSpared k.val) 1 s else s
    resendHeld (enterUp k s)
  else s

/-- A retrain fails: it is repeated, and the third failure in a row puts the link in DOWN (R22, R30). -/
def retrainFail (k : LinkId) (s : State) : State :=
  if linkState s k = 3 then resendHeld (trainingFailed k 2 (beginRetrain k) s) else s

/-- The detour around a link has every link in UP. HL-H needs none: no request starts on a hub die (R23). -/
def detourUp (s : State) (k : LinkId) : Bool :=
  decide (k ≠ 3) && (match detourPath s (linkEnds k).1 (linkEnds k).2 with
    | some p => p.all (fun j => decide (linkState s j = 2))
    | none => false)

/-- The detour is in place, and the traffic held takes it (R23). -/
def detourReady (k : LinkId) (s : State) : State :=
  if (linkState s k = 3 ∨ linkState s k = 4) ∧ detourUp s k then resendHeld (fset (pgHub 0) (Fl.hubLinkStatDetour k.val) 1 s) else s

/-- The link is UP and nothing is outstanding on its detour: the traffic returns to it (R25). -/
def detourRelease (k : LinkId) (s : State) : State :=
  if linkState s k = 2 ∧ !s.outstanding.any (fun o => o.around = some k) then fset (pgHub 0) (Fl.hubLinkStatDetour k.val) 0 s else s

/-- A training reaches UP within its 30 us, and what is held for the link is sent (R26). -/
def linkTrained (k : LinkId) (s : State) : State :=
  if linkState s k = 1 ∧ linkPowered s k ∧ s.us ≤ (linkSt s k).trainAt + trainLimit then resendHeld (enterUp k s) else s

/-- A training has not reached UP after 30 us: a failure under R22, and it starts again (R26, R30). -/
def linkTrainTimeout (k : LinkId) (s : State) : State :=
  if linkState s k = 1 ∧ linkPowered s k ∧ (linkSt s k).trainAt + trainLimit ≤ s.us then
    resendHeld (trainingFailed k (if bootPhase s = 5 then 6 else 2)
      (fun s => setLinkSt k { linkSt s k with trainAt := s.us } s) s)
  else s

/-! ## The meanings -/

/-- LINK_PACKET_RECEIVE (R21). -/
def execLinkPacketReceive (k : LinkId) (crcGood : Bool) (s : State) : Host.Outcome State Fault Refusal := ok (linkPacket k crcGood s)
/-- LINK_REPLAY (R16, R21). -/
def execLinkReplay (k : LinkId) (s : State) : Host.Outcome State Fault Refusal := ok (linkReplay k s)
/-- REPLAY_INTERVAL_END (R21). -/
def execReplayIntervalEnd (k : LinkId) (s : State) : Host.Outcome State Fault Refusal := ok (replayIntervalEnd k s)
/-- REPLAY_LIMIT (R21, R23). -/
def execReplayLimit (k : LinkId) (s : State) : Host.Outcome State Fault Refusal := ok (replayLimit k s)
/-- RETRAIN_DONE (R22). -/
def execRetrainDone (k : LinkId) (spared : Bool) (s : State) : Host.Outcome State Fault Refusal := ok (retrainDone k spared s)
/-- RETRAIN_FAIL (R22). -/
def execRetrainFail (k : LinkId) (s : State) : Host.Outcome State Fault Refusal := ok (retrainFail k s)
/-- DETOUR_READY (R23). -/
def execDetourReady (k : LinkId) (s : State) : Host.Outcome State Fault Refusal := ok (detourReady k s)
/-- DETOUR_RELEASE (R25). -/
def execDetourRelease (k : LinkId) (s : State) : Host.Outcome State Fault Refusal := ok (detourRelease k s)
/-- LINK_TRAINED (R26). -/
def execLinkTrained (k : LinkId) (s : State) : Host.Outcome State Fault Refusal := ok (linkTrained k s)
/-- LINK_TRAIN_TIMEOUT (R26). -/
def execLinkTrainTimeout (k : LinkId) (s : State) : Host.Outcome State Fault Refusal := ok (linkTrainTimeout k s)

end Sys2Proof.Machine
end

