-- ==== Sys2Proof/Machine/Sdio.lean ====
section
/-! DEFINITION. The SDIO ports: the commands of the subset, function 0, the F1 window, F2 with the mailbox and the bulk queue
(11, R366 to R372; 14, R476; 15, R514). What R366 takes from the SD specifications it names is PRESUMED (log 80). -/

namespace Sys2Proof.Machine

/-! ## Commands and responses (R366) -/

/-- The SDIO domain is on: the port hears commands (R366, R446). -/
def portOn (s : State) : Bool := domainOn s 24

/-- The port answers with a response word and the bytes of a read. -/
def respond (p : PartId) (r : Word) (d : List Byte) (s : State) : State :=
  updSdio p (fun x => { x with resp := r, answered := true, rdata := d }) s

/-- The port does not answer. -/
def noResponse (p : PartId) (s : State) : State := updSdio p (fun x => { x with answered := false }) s

/-- Flags of an R5 response beside its current state. -/
def flagIllegal : Nat := 0x4000
def flagError : Nat := 0x0800
def flagFunction : Nat := 0x0200

/-- An R5 response of a selected card: flags and data. -/
def r5 (flags : Nat) (d : Byte) : Word := BitVec.ofNat 32 (0x1000 + flags + d.toNat)

/-- Change the card state. -/
def setCard (p : PartId) (c : CardState) (s : State) : State := updSdio p (fun x => { x with card := c }) s

/-- The bits of an argument that name a card. -/
def argRca (arg : Word) : Nat := bitsOf arg.toNat 16 16

/-- CMD5: R4 with two functions, no memory, and S18A by the level of VDDIO_SDn; the OCR is open (R366, log 7). -/
def doCmd5 (p : PartId) (s : State) : State :=
  let ocr := Config.openValue 30 [(p.val : Int)] % 2 ^ 24
  respond p (BitVec.ofNat 32 (2 ^ 31 + 2 * 2 ^ 28 + 2 ^ 24 * b2n (Config.vddioSd18 p.val) + ocr)) [] s

/-- CMD3: the card takes a new address and is enumerated (R366, R372). -/
def doCmd3 (p : PartId) (s : State) : State :=
  let x := (sdioSt s p).card
  if x = .idle ∨ x = .standby then
    let r := fresh s
    let rca := r.1 % 65535 + 1
    respond p (BitVec.ofNat 32 (rca * 65536)) [] (fset (pgSdio p) Fl.sdioStatusReady 1 (updSdio p (fun x => { x with card := .standby, rca := rca }) r.2))
  else noResponse p s

/-- An R1 response; its status bits are open (log 7). -/
def respondR1 (p : PartId) (s : State) : State :=
  let r := fresh s
  respond p (BitVec.ofNat 32 r.1) [] r.2

/-- CMD7: the card whose address it names is selected, any other is deselected (R366). -/
def doCmd7 (p : PartId) (arg : Word) (s : State) : State :=
  let x := sdioSt s p
  match x.card with
  | .standby => if argRca arg = x.rca then respondR1 p (setCard p .selected s) else noResponse p s
  | .selected => if argRca arg = x.rca then respondR1 p s else noResponse p (setCard p .standby s)
  | _ => noResponse p s

/-- CMD11: with VDDIO_SDn at 1.8 V it completes without a change of level, and the UHS modes are open, SDR12 first (R366). -/
def doCmd11 (p : PartId) (s : State) : State :=
  if Config.vddioSd18 p.val then respondR1 p (fset (pgSdio p) Fl.sdioStatusMode 2 (updSdio p (fun x => { x with uhs := true }) s))
  else noResponse p s

/-- CMD15: the card whose address it names goes inactive (R366). -/
def doCmd15 (p : PartId) (arg : Word) (s : State) : State :=
  let x := sdioSt s p
  noResponse p (if (x.card = .standby ∨ x.card = .selected) ∧ argRca arg = x.rca then setCard p .inactive s else s)

/-- The tuning block of a 4-bit bus (R514, log 80). -/
def tuningBlock : List Byte :=
  [0xFF, 0x0F, 0xFF, 0x00, 0xFF, 0xCC, 0xC3, 0xCC, 0xC3, 0x3C, 0xCC, 0xFF, 0xFE, 0xFF, 0xFE, 0xEF]
    ++ [0xFF, 0xDF, 0xFF, 0xDD, 0xFF, 0xFB, 0xFF, 0xFB, 0xBF, 0xFF, 0x7F, 0xFF, 0x77, 0xF7, 0xBD, 0xEF]
    ++ [0xFF, 0xF0, 0xFF, 0xF0, 0x0F, 0xFC, 0xCC, 0x3C, 0xCC, 0x33, 0xCC, 0xCF, 0xFF, 0xEF, 0xFF, 0xEE]
    ++ [0xFF, 0xFD, 0xFF, 0xFD, 0xDF, 0xFF, 0xBF, 0xFF, 0xBB, 0xFF, 0xF7, 0xFF, 0xF7, 0x7F, 0x7B, 0xDE]

/-- CMD19: the port sends the tuning block (R514). -/
def doCmd19 (p : PartId) (s : State) : State :=
  if (sdioSt s p).card = .selected ∧ Config.vddioSd18 p.val then
    let r := fresh s
    respond p (BitVec.ofNat 32 r.1) tuningBlock r.2
  else noResponse p s

/-! ## Function 0 (R366, R371) -/

/-- A byte the CIA holds. -/
def ciaGet (s : State) (p : PartId) (a : Nat) : Byte := Tab.get 0 (sdioSt s p).cccr a
def ciaSet (p : PartId) (a : Nat) (v : Byte) (s : State) : State := updSdio p (fun x => { x with cccr := Tab.put x.cccr a v }) s

/-- First address of the CIS, in the CIS area of function 0; the spec does not give it. -/
def cisBase (p : PartId) : Nat := 0x1000 + Config.openValue 31 [(p.val : Int)] % 0x6000

/-- The manufacturer tuple: code 0x0D7A, card 0x0096 (R366). -/
def manfid : List Byte := [0x20, 0x04, 0x7A, 0x0D, 0x96, 0x00]

/-- A byte of function 0 as it reads. -/
def ciaRead (s : State) (p : PartId) (a : Nat) : Byte :=
  let open' : Byte := BitVec.ofNat 8 (Config.openValue 32 [(p.val : Int), (a : Int)])
  match a with
  | 0x00 => 0x43
  | 0x01 => 0x03
  | 0x02 | 0x04 | 0x07 | 0x10 | 0x11 | 0x13 | 0x110 | 0x111 | 0x210 | 0x211 => ciaGet s p a
  | 0x03 => ciaGet s p 0x02
  | 0x06 | 0x0C | 0x0D | 0x0E | 0x0F => 0
  | 0x09 => BitVec.ofNat 8 (cisBase p)
  | 0x0A => BitVec.ofNat 8 (cisBase p / 256)
  | 0x0B => 0
  | 0x14 => if Config.vddioSd18 p.val then 7 else 0
  | 0x100 | 0x200 => open' &&& 0xF0
  | _ => if cisBase p ≤ a ∧ a < cisBase p + 6 then manfid.getD (a - cisBase p) 0 else open'

/-- The bus mode that a speed selection gives: 0 to 6 of SDIO_STATUS.MODE (R366, R372). -/
def busMode (uhs : Bool) (bss : Nat) : Nat := if uhs then (if bss ≤ 4 then bss + 2 else 2) else if bss = 1 then 1 else 0

/-- The reset bit of the CCCR: the card returns to idle and gives up its address. -/
def ioReset (p : PartId) (s : State) : State :=
  fsets (pgSdio p) [(Fl.sdioStatusMode, 0), (Fl.sdioStatusBus4, 0), (Fl.sdioStatusReady, 0)]
    (updSdio p (fun x => { x with card := .idle, rca := 0, uhs := false, busy := none, cccr := [] }) s)

/-- A byte written to function 0. -/
def ciaWrite (p : PartId) (a : Nat) (v : Byte) (s : State) : State :=
  match a with
  | 0x02 => ciaSet p a (v &&& 0x06) s
  | 0x04 => ciaSet p a (v &&& 0x07) s
  | 0x06 =>
    let s := updSdio p (fun x => { x with busy := none }) s
    if v.toNat.testBit 3 then ioReset p s else s
  | 0x07 => fset (pgSdio p) Fl.sdioStatusBus4 (b2n (decide (v.toNat % 4 = 2))) (ciaSet p a (v &&& 0x83) s)
  | 0x13 =>
    let bss := v.toNat / 2 % 8
    fset (pgSdio p) Fl.sdioStatusMode (busMode (sdioSt s p).uhs bss) (ciaSet p a ((v &&& 0x0E) ||| 1) s)
  | 0x10 | 0x11 | 0x110 | 0x111 | 0x210 | 0x211 => ciaSet p a v s
  | _ => s

/-- Block size of a function (R366). -/
def blockSize (s : State) (p : PartId) (fn : Nat) : Nat := (ciaGet s p (0x100 * fn + 0x10)).toNat + 256 * (ciaGet s p (0x100 * fn + 0x11)).toNat

/-! ## Accesses of F1 and F2 (R367 to R370) -/

/-- Window base (R367, R372). -/
def winBase (s : State) (p : PartId) : Nat := fgetAddr s (pgSdio p) Fl.sdioWinBaseLoBase Fl.sdioWinBaseHiBase

/-- The device address of a place in F1 or F2; none where F2 has nothing (R367, R370). -/
def sdioAddr (s : State) (p : PartId) (fn o : Nat) : Option Nat :=
  if fn = 1 then some (winBase s p + o % 0x20000)
  else if within 0x100 0xFFF o then some (0x2000000000 + 0x0500A000 + 0x1000 * p.val + o)
  else none

/-- What an access came to: an error response, the bytes read. -/
structure Piece where
  bad : Bool
  data : List Byte
  state : State

/-- One access that does not wait (R37, R45, R368, R378). -/
def portAccess (p : PartId) (write : Bool) (a : Nat) (d : List Byte) (n : Nat) (s : State) : Piece :=
  let who : Requester := .host p
  let zeros : List Byte := if write then [] else List.replicate n 0
  match grantOf s who write a with
  | .error c e => ⟨true, zeros, refuseReq who c e s⟩
  | .errorOn pg c e x => ⟨true, zeros, recordOn pg c e x s⟩
  | _ =>
    match regTarget a with
    | some t =>
      if !(decide (n = 4) && decide (t.2 % 4 = 0)) then ⟨false, zeros, recordFault t.1 6 8 s⟩
      else if write then
        let v := nth 0 (wordsOf d) 0
        ⟨(writeRefusal s who t.1 t.2 v).isSome, [], busWrite who t.1 t.2 v s⟩
      else match readRefusal s who t.1 with
      | some e => ⟨true, zeros, refuseReq who 5 e s⟩
      | none =>
        let r := readBy who t.1 t.2 s
        ⟨false, wordBytes r.1, r.2⟩
    | none =>
      let s := noteLine who write a s
      if write then ⟨false, [], poke (physAddr s a) (d.take n) s⟩ else ⟨false, peek s (physAddr s a) n, s⟩

/-- An access of function `fn` with its count of errors (R369): a place where F2 has nothing answers an error. -/
def fnAccess (p : PartId) (fn : Nat) (write : Bool) (o : Nat) (d : List Byte) (n : Nat) (s : State) : Piece :=
  match sdioAddr s p fn o with
  | none => ⟨true, if write then [] else List.replicate n 0, s⟩
  | some a =>
    let r := portAccess p write a d n s
    if r.bad ∧ fn = 1 then { r with state := fbump (pgSdio p) Fl.sdioErrCntWindow 1 r.state } else r

/-- An access has to wait for a link, a subchannel or a way (R23, R26, R296, R315). -/
def fnWaits (s : State) (p : PartId) (fn : Nat) (write : Bool) (o : Nat) : Option Grant :=
  match sdioAddr s p fn o with
  | none => none
  | some a => match grantOf s (.host p) write a with
    | .atLink k => some (.atLink k)
    | .atDdr pg => some (.atDdr pg)
    | .atWay => some .atWay
    | _ => none

/-- The place lies in register space (R368). -/
def inRegs (s : State) (p : PartId) (fn o : Nat) : Bool := match sdioAddr s p fn o with
  | some a => within 0x2000000000 0x20FFFFFFFF a
  | none => false

/-! ## CMD52 (R368, R369) -/

/-- Bits of the arguments of CMD52 and CMD53. -/
def argWrite (arg : Word) : Bool := bitAt arg 31
def argFn (arg : Word) : Nat := bitsOf arg.toNat 28 3
def argAddr (arg : Word) : Nat := bitsOf arg.toNat 9 17

/-- A byte written through F1 or F2: held in the staging word in register space, where byte 3 issues the write (R368). -/
def byteWrite (p : PartId) (fn o : Nat) (v : Byte) (s : State) : Piece :=
  if inRegs s p fn o then
    let w := (sdioSt s p).stage.set (o % 4) v
    let s := updSdio p (fun x => { x with stage := w }) s
    if o % 4 = 3 then fnAccess p fn true (o - 3) w 4 s else ⟨false, [], s⟩
  else fnAccess p fn true o [v] 1 s

/-- A byte read through F1 or F2: byte 0 of a register reads and latches it (R368). -/
def byteRead (p : PartId) (fn o : Nat) (s : State) : Piece :=
  if inRegs s p fn o then
    let r : Piece := if o % 4 = 0 then
        let r := fnAccess p fn false o [] 4 s
        { r with state := updSdio p (fun x => { x with latch := BitVec.ofNat 32 (leNat r.data) }) r.state }
      else ⟨false, [], s⟩
    { r with data := [BitVec.ofNat 8 (((sdioSt r.state p).latch.toNat >>> (8 * (o % 4))) % 256)] }
  else fnAccess p fn false o [] 1 s

/-- CMD52 issues an access of the target now. -/
def issues52 (s : State) (p : PartId) (arg : Word) : Bool :=
  let o := argAddr arg
  !inRegs s p (argFn arg) o || (if argWrite arg then decide (o % 4 = 3) || (bitAt arg 27 && decide (o % 4 = 0)) else decide (o % 4 = 0))

/-- The access of a CMD52 to F1 or F2, read after write included. -/
def fnCmd52 (p : PartId) (arg : Word) (s : State) : State :=
  let fn := argFn arg
  let o := argAddr arg
  let v : Byte := BitVec.ofNat 8 arg.toNat
  if argWrite arg then
    let w := byteWrite p fn o v s
    if bitAt arg 27 then
      let r := byteRead p fn o w.state
      respond p (r5 (if w.bad || r.bad then flagError else 0) (r.data.getD 0 0)) [] r.state
    else respond p (r5 (if w.bad then flagError else 0) v) [] w.state
  else
    let r := byteRead p fn o s
    respond p (r5 (if r.bad then flagError else 0) (r.data.getD 0 0)) [] r.state

/-- A CMD52 or CMD53 waits for its target. -/
def holdCmd (p : PartId) (block : Bool) (arg : Word) (d : List Byte) (g : Grant) (s : State) : State :=
  waitEffect (.host p) g (updSdio p (fun x => { x with busy := some (block, arg, d), answered := false }) s)

/-- CMD52 (R366, R368, R369). -/
def runCmd52 (p : PartId) (arg : Word) (s : State) : State :=
  let fn := argFn arg
  let o := argAddr arg
  let v : Byte := BitVec.ofNat 8 arg.toNat
  if fn = 0 then
    let s := if argWrite arg then ciaWrite p o v s else s
    respond p (r5 0 (if argWrite arg && !bitAt arg 27 then v else ciaRead s p o)) [] s
  else if 2 < fn then respond p (r5 flagFunction 0) [] s
  else
    match (if issues52 s p arg then fnWaits s p fn (argWrite arg) o else none) with
    | some g => holdCmd p false arg [] g s
    | none => fnCmd52 p arg s

/-! ## The mailbox and the bulk queue (R370) -/

/-- A message to the firmware cores: queued, or discarded and counted. -/
def mboxWrite (p : PartId) (d : List Byte) (s : State) : State :=
  if 8 ≤ (sdioSt s p).toFw.length then fbump (pgSdio p) Fl.sdioErrCntMbox 1 s
  else setIrq (pgSdio p) 8 (showMbox p (updSdio p (fun x => { x with toFw := x.toFw ++ [d] }) s))

/-- The oldest message from the firmware cores, or zeros. -/
def mboxRead (p : PartId) (s : State) : List Byte × State :=
  match (sdioSt s p).toHost with
  | [] => (List.replicate 64 0, s)
  | m :: rest => (m, showMbox p (updSdio p (fun x => { x with toHost := rest }) s))

/-- While the ROM waits for an image, the first 8 KiB go into the header store (R476): the bytes left for the ring. -/
def headerTake (p : PartId) (d : List Byte) (s : State) : List Byte × State :=
  if p.val = 0 ∧ s.boot.push then
    let n := 0x2000 - s.boot.header.length
    (d.drop n, updBoot (fun b => { b with header := b.header ++ d.take n }) s)
  else (d, s)

/-- Bytes in blocks of at most `n`. -/
def blocksOf (n : Nat) (d : List Byte) : List (List Byte) := (upTo (ceilDiv d.length n)).map (fun i => (d.drop (n * i)).take n)

/-- Data for the bulk ring, in blocks of `n` bytes: refused while the size is 0; otherwise each block is appended once there is
room for it (R370). -/
def bulkWrite (p : PartId) (n : Nat) (d : List Byte) (s : State) : State :=
  if bulkSize s p = 0 then respond p (r5 flagError 0) [] s
  else
    let h := headerTake p d s
    let s := updSdio p (fun x => { x with resp := r5 0 0, answered := false, rdata := [] }) h.2
    if h.1.isEmpty then updSdio p (fun x => { x with answered := true }) s
    else bulkTry p (updSdio p (fun x => { x with bulk := some (blocksOf n h.1, s.us) }) s)

/-- Room has not appeared after 10 ms: the block, and what follows it, is discarded, with a CRC status error (R370, log 81). -/
def bulkTimeout (p : PartId) (s : State) : State :=
  match (sdioSt s p).bulk with
  | some (_, a) =>
    if a + 10000 ≤ s.us then updSdio p (fun x => { x with bulk := none, resp := r5 0x8000 0, answered := true }) s else s
  | none => s

/-! ## CMD53 (R366 to R370) -/

/-- Bytes a CMD53 moves: a byte count, or blocks; a count of no blocks runs as long as the host's data do (log 80). -/
def count53 (s : State) (p : PartId) (arg : Word) (d : List Byte) : Nat :=
  let n := bitsOf arg.toNat 0 9
  if bitAt arg 27 then (if n = 0 then d.length else n * blockSize s p (argFn arg)) else if n = 0 then 512 else n

/-- The accesses of a transfer: place, offset in the data, and bytes; aligned words with what is left at the ends (R368). -/
def cuts53 (incr : Bool) (o : Nat) : Nat → Nat → Nat → List (Nat × Nat × Nat)
  | 0, _, _ => []
  | _, _, 0 => []
  | fuel + 1, pos, left =>
    let q := if incr then o + pos else o
    let n := min (4 - q % 4) left
    (q, pos, n) :: cuts53 incr o fuel (pos + n) (left - n)

/-- The accesses of a CMD53. -/
def pieces53 (s : State) (p : PartId) (arg : Word) (d : List Byte) : List (Nat × Nat × Nat) :=
  let n := count53 s p arg d
  let n := if argWrite arg then min n d.length else n
  cuts53 (bitAt arg 26) (argAddr arg) n 0 n

/-- The transfer of a CMD53 to F1 or the registers of F2. -/
def fnCmd53 (p : PartId) (arg : Word) (d : List Byte) (s : State) : State :=
  let fn := argFn arg
  let w := argWrite arg
  let r := (pieces53 s p arg d).foldl (fun (r : Piece) c =>
    let x := fnAccess p fn w c.1 ((d.drop c.2.1).take c.2.2) c.2.2 r.state
    ⟨r.bad || (x.bad && decide (fn = 2)), if w then [] else r.data ++ x.data, x.state⟩) ⟨false, [], s⟩
  respond p (r5 (if r.bad then flagError else 0) 0) r.data r.state

/-- A CMD53 with function 0: bytes of the CIA, one by one. -/
def ciaCmd53 (p : PartId) (arg : Word) (d : List Byte) (s : State) : State :=
  let n := count53 s p arg d
  let at' := fun (i : Nat) => if bitAt arg 26 then argAddr arg + i else argAddr arg
  if argWrite arg then
    respond p (r5 0 0) [] ((upTo (min n d.length)).foldl (fun s i => ciaWrite p (at' i) (d.getD i 0) s) s)
  else respond p (r5 0 0) ((upTo n).map (fun i => ciaRead s p (at' i))) s

/-- CMD53. -/
def runCmd53 (p : PartId) (arg : Word) (d : List Byte) (s : State) : State :=
  let fn := argFn arg
  let o := argAddr arg
  let n := count53 s p arg d
  let w := argWrite arg
  let bs := blockSize s p fn
  if 2 < fn then respond p (r5 flagFunction 0) [] s
  else if bitAt arg 27 && (decide (bs = 0) || decide (512 < bs)) then respond p (r5 flagError 0) [] s
  else if fn = 0 then ciaCmd53 p arg d s
  else if fn = 2 ∧ o = 0x1000 then
    if w ∧ n = 64 ∧ d.length = 64 then respond p (r5 0 0) [] (mboxWrite p d s) else respond p (r5 flagError 0) [] s
  else if fn = 2 ∧ o = 0x1400 then
    if !w ∧ n = 64 then
      let r := mboxRead p s
      respond p (r5 0 0) r.1 r.2
    else respond p (r5 flagError 0) [] s
  else if fn = 2 ∧ o = 0x10000 then
    if w ∧ !bitAt arg 26 then bulkWrite p (if bitAt arg 27 then bs else 512) (d.take n) s else respond p (r5 flagError 0) [] s
  else
    match (pieces53 s p arg d).findSome? (fun c => fnWaits s p fn w c.1) with
    | some g => holdCmd p true arg d g s
    | none => fnCmd53 p arg d s

/-- A command that waited is tried again. -/
def retrySdio (p : PartId) (s : State) : State :=
  match (sdioSt s p).busy with
  | some (b, arg, d) =>
    let s := updSdio p (fun x => { x with busy := none }) s
    if b then runCmd53 p arg d s else runCmd52 p arg s
  | none => s

/-! ## What the port hears -/

/-- The port takes a command: it is powered and not inactive, and no earlier one is on its way. -/
def hears (s : State) (p : PartId) : Bool := portOn s && decide ((sdioSt s p).card ≠ .inactive) && (sdioSt s p).busy.isNone

/-- The port takes a transfer: it is selected, and no block waits on DAT0. -/
def transfers (s : State) (p : PartId) : Bool := hears s p && decide ((sdioSt s p).card = .selected) && (sdioSt s p).bulk.isNone

/-- A CMD52 of a selected card; one that aborts is taken while another command waits. -/
def doCmd52 (p : PartId) (arg : Word) (s : State) : State :=
  let abort := decide (argFn arg = 0) && argWrite arg && decide (argAddr arg = 6)
  if !(portOn s && decide ((sdioSt s p).card ≠ .inactive) && ((sdioSt s p).busy.isNone || abort)) then s
  else if (sdioSt s p).card = .selected ∨ abort then runCmd52 p arg s
  else noResponse p s

/-- A CMD53. -/
def doCmd53 (p : PartId) (arg : Word) (d : List Byte) (s : State) : State :=
  if transfers s p then runCmd53 p arg d s else if hears s p ∧ (sdioSt s p).bulk.isNone then noResponse p s else s

/-- The commands of the subset. -/
def isSubset (idx : Nat) : Bool := [0, 3, 5, 7, 11, 15, 19, 52, 53].contains idx

/-- Any other command is answered as illegal (R366). -/
def doIllegal (p : PartId) (idx : Nat) (s : State) : State :=
  if hears s p && !isSubset idx then respond p (r5 flagIllegal 0) [] s else s

/-! ## The meanings -/

/-- CMD0 (R366): an I/O card gives no response and keeps its state. -/
def execCmd0 (p : PartId) (_arg : Word) (s : State) : Host.Outcome State Fault Refusal := ok (whenB (hears s p) s (noResponse p s))
/-- CMD3 (R366, R372). -/
def execCmd3 (p : PartId) (_arg : Word) (s : State) : Host.Outcome State Fault Refusal := ok (whenB (hears s p) s (doCmd3 p s))
/-- CMD5 (R366). -/
def execCmd5 (p : PartId) (_arg : Word) (s : State) : Host.Outcome State Fault Refusal := ok (whenB (hears s p) s (doCmd5 p s))
/-- CMD7 (R366). -/
def execCmd7 (p : PartId) (arg : Word) (s : State) : Host.Outcome State Fault Refusal := ok (whenB (hears s p) s (doCmd7 p arg s))
/-- CMD11 (R366). -/
def execCmd11 (p : PartId) (_arg : Word) (s : State) : Host.Outcome State Fault Refusal := ok (whenB (hears s p) s (doCmd11 p s))
/-- CMD15 (R366). -/
def execCmd15 (p : PartId) (arg : Word) (s : State) : Host.Outcome State Fault Refusal := ok (whenB (hears s p) s (doCmd15 p arg s))
/-- CMD19 (R514). -/
def execCmd19 (p : PartId) (_arg : Word) (s : State) : Host.Outcome State Fault Refusal := ok (whenB (hears s p) s (doCmd19 p s))
/-- CMD52 (R368). -/
def execCmd52 (p : PartId) (arg : Word) (s : State) : Host.Outcome State Fault Refusal := ok (doCmd52 p arg s)
/-- CMD53 (R368). -/
def execCmd53 (p : PartId) (arg : Word) (data : List Byte) (s : State) : Host.Outcome State Fault Refusal := ok (doCmd53 p arg data s)
/-- ILLEGAL_COMMAND (R366). -/
def execIllegalCommand (p : PartId) (idx : Fin 64) (s : State) : Host.Outcome State Fault Refusal := ok (doIllegal p idx.val s)
/-- MBOX_WRITE (R370): a CMD53 that writes 64 B to F2 0x1000. -/
def execMboxWrite (p : PartId) (data : List Byte) (s : State) : Host.Outcome State Fault Refusal :=
  ok (whenB (transfers s p && decide (data.length = 64)) s (respond p (r5 0 0) [] (mboxWrite p data s)))
/-- MBOX_READ (R370): a CMD53 that reads 64 B from F2 0x1400. -/
def execMboxRead (p : PartId) (s : State) : Host.Outcome State Fault Refusal :=
  ok (whenB (transfers s p) s (respond p (r5 0 0) (mboxRead p s).1 (mboxRead p s).2))
/-- BULK_WRITE (R370): a CMD53 that writes to F2 0x1_0000, in blocks of 512 bytes. -/
def execBulkWrite (p : PartId) (data : List Byte) (s : State) : Host.Outcome State Fault Refusal :=
  ok (whenB (transfers s p) s (bulkWrite p 512 data s))
/-- BULK_TIMEOUT (R370). -/
def execBulkTimeout (p : PartId) (s : State) : Host.Outcome State Fault Refusal := ok (bulkTimeout p s)

end Sys2Proof.Machine
end

