-- ==== Sys2Proof/Machine/PageCmd.lean ====
section
/-! DEFINITION. The end of a page's TURNING_ON and TURNING_OFF (02, R48; 03, R104, R105; 08, R250, R282; 09, R313 to R317;
12, R439). The CAM, ISP and TAP pages end theirs at a frame (10, R329, R361). -/

namespace Sys2Proof.Machine

/-! ## Subchannels (R313 to R317) -/

/-- The hub and subchannel of a HUB_DDR page. -/
def ddrHubOf (i : Nat) : HubId := if i < 4 then 0 else 1
def ddrSubOf (i : Nat) : Sub := ⟨i % 4, Nat.mod_lt _ (by decide)⟩

/-- Settings are loaded into the page (R313, R315). -/
def loadSettings (i : Nat) (r : TrainRec) (s : State) : State :=
  wr ⟨.hubDdr, i⟩ 0x130 r.osc ((upTo 5).foldl (fun s l => wr ⟨.hubDdr, i⟩ (0x110 + 4 * l) (nth 0 r.lanes l) s) s)

/-- Full training finds a centring for every lane and an oscillator count, which the spec does not give (R313, log 7). -/
def trainLanes (i : Nat) (s : State) : State :=
  let pg : PageKey := ⟨.hubDdr, i⟩
  let s := (upTo 5).foldl (fun s l =>
    let r := fresh s
    let w := fresh r.2
    fsets pg [(Fl.hubDdrLaneRd l, r.1 % 256), (Fl.hubDdrLaneRdTrained l, r.1 % 256), (Fl.hubDdrLaneWr l, w.1 % 256), (Fl.hubDdrLaneWrTrained l, w.1 % 256)] w.2) s
  let o := fresh s
  fsets pg [(Fl.hubDdrOscCount, o.1 % 65536), (Fl.hubDdrOscBase, o.1 % 65536)] o.2

/-- The calibration of a restore or a self-refresh exit; what it finds is not stated (R313, log 7). -/
def firstCalibration (i : Nat) (s : State) : State :=
  let a := fresh s
  let b := fresh a.2
  let drift := (upTo 5).map (fun (l : Nat) => signed 8 (a.1 / 2 ^ (8 * l) % 256))
  let centre := (upTo 5).map (fun (l : Nat) => ((b.1 / 2 ^ (8 * l) % 256 : Nat) : Int))
  calibrate (ddrHubOf i) (ddrSubOf i) drift centre (b.1 / 2 ^ 40 % 65536) b.2

/-- The subchannel enters service (R313, R318). -/
def subInService (i : Nat) (restored : Bool) (s : State) : State :=
  let pg : PageKey := ⟨.hubDdr, i⟩
  let s := fsets pg [(Fl.hubDdrStatusPhase, 3), (Fl.hubDdrStatusRestored, b2n restored)] (setSub i { subSt s i with up := true, selfRef := none, calAt := s.us } s)
  let s := updHub (ddrHubOf i) (fun x => { x with reqs := x.reqs.map (fun r =>
    if regionOf s r.who r.addr = .ddr (ddrHubOf i) (ddrSubOf i) then { r with late := false } else r) }) s
  finishOn pg s

/-- TURNING_ON of a subchannel reaches the end of its path (R313, R314, R317). -/
def ddrTurnOn (i : Nat) (good : Bool) (s : State) : State :=
  let pg : PageKey := ⟨.hubDdr, i⟩
  let x := subSt s i
  if x.check ≠ 0 then
    failOn pg (recordFault (if x.check = 1 then hubPageOf i else pg) 0x0E 5 s)
  else match fget s pg Fl.hubDdrStatusPhase with
    | 4 => match x.selfRef with
      | some r => subInService i false (firstCalibration i (loadSettings i r s))
      | none => s
    | 2 => match good, trainRecOf s i with
      | true, some r => subInService i true (firstCalibration i (loadSettings i r s))
      | _, _ => setIrq pg 10 (fset pg Fl.hubDdrStatusPhase 1 s)
    | _ =>
      if good then subInService i false (trainLanes i (setSub i { x with retrain := false } s))
      else failOn pg (fset pg Fl.hubDdrStatusPhase 7 (recordFault pg 0x0E 4 s))

/-- Nothing that the subchannel held before its TURNING_OFF is left (R315). -/
def ddrDrained (s : State) (i : Nat) : Bool :=
  !(hubSt s (ddrHubOf i)).reqs.any (fun r => !r.late && decide (reqRegion s r = .ddr (ddrHubOf i) (ddrSubOf i)))

/-- TURNING_OFF of a subchannel ends: its devices are in self-refresh if they were in service (R313, R315); with every page OFF
no configuration is in force (R318). -/
def ddrTurnOff (i : Nat) (begin' : State → State) (s : State) : State :=
  let pg : PageKey := ⟨.hubDdr, i⟩
  let s := if fget s pg Fl.hubDdrStatusPhase = 3 then setSub i { subSt s i with selfRef := some (settings s i) } s else s
  let s := fset pg Fl.hubDdrStatusPhase (if (subSt s i).selfRef.isSome then 4 else 0) s
  finishOff begin' pg (subIsOff i s)

/-! ## Hubs, scratchpads and Caldera -/

/-- TURNING_ON of a HUB_LLC page: every tag is invalid, every WINDOW way is zero (R316). -/
def llcTurnOn (h : HubId) (s : State) : State :=
  let s := updHub h (fun x => { x with lines := [], bad := [] }) s
  let s := (upTo 16).foldl (fun s w => if bitsOf (fget s (pgLlc h) Fl.hubLlcWaymodeMode) (2 * w) 2 = 1 then zeroWindow h w s else s) s
  finishOn (pgLlc h) s

/-- The first TURNING_ON of a SPAD page after a power-up or a soft reset zeroes its banks (R250). -/
def spadTurnOn (t : TileId) (s : State) : State :=
  let s := if (tile s t).spadZeroed then s
    else updTile t (fun x => { x with spadZeroed := true }) (pokeZero (spadBase t) (spadBase t + 0x100000) s)
  finishOn (pgSpad t) s

/-- TURNING_ON of the CAL page: the SRAM is clear, and the mode is NORMAL if Caldera's slice passes (R407, R427, R439). -/
def calTurnOn (good : Bool) (s : State) : State :=
  let s := updCal (fun c => {
    out := c.out
    retry := c.retry
    outAt := c.outAt
    tested := Tab.put c.tested 12 s.us
    covAt := Tab.put c.covAt 12 s.us
    failed := c.failed
    fwAt := s.us }) s
  let s := finishOn pgCal s
  if s.cal.failed then calEnter 3 s
  else if good then calEnter 1 s
  else calFail (calFault 0x14 (setIrq pgCal 13 (fbump pgCal Fl.calStStatFailed 1 s)))

/-- TURNING_OFF of the CAL page: every pending verdict is written with LATE (R439). -/
def calTurnOff (begin' : State → State) (s : State) : State :=
  let s := flushVerdicts s
  finishOff begin' pgCal (if s.cal.failed then s else calEnter 0 s)

/-! ## Tiles (R104, R105, R250, R282) -/

/-- Every command the engine has dispatched has committed or been killed. -/
def engineDrained (s : State) (t : TileId) (q : Engine) : Bool := (queueOf (tile s t) q).all (fun e => decide (e.phase = .queued))

/-- The pages of a tile that the TILE page waits for are OFF (R105). -/
def tileQuiet (s : State) (t : TileId) : Bool :=
  [pgSeq t, pgLane t, pgVec t, pgSpad t, pgStrm t 0, pgStrm t 1].all (fun pg => decide (fget s pg Fl.state = 0))

/-- The drain of a page's function is complete. -/
def offReady (s : State) (pg : PageKey) : Bool :=
  let t := tileOf pg.inst
  match pg.kind with
  | .tile => tileQuiet s t
  | .lane => engineDrained s t .lane
  | .vec => engineDrained s t .vec
  | .strm0 => engineDrained s t .s0
  | .strm1 => engineDrained s t .s1
  | .hubDdr => ddrDrained s pg.inst
  | .cam => camMayOff s (portOf pg.inst)
  | .hubLlc => !(hubSt s (if pg.inst = 0 then 0 else 1)).reqs.any (fun r => r.way.isSome)
  | .warp | .codec | .token =>
    match sharedOf pg.kind with
    | some e => s.rings.all (fun r => match r.1 with
        | .chan f _ => decide (f ≠ e) || (!r.2.closing && r.2.samples.all (fun m => m.ready))
        | _ => true)
    | none => true
  | _ => true

/-! ## The commands -/

/-- The pages whose transitions end by PAGE_TURN_ON_DONE and PAGE_TURN_OFF_DONE. -/
def ownTurn (pg : PageKey) : Bool :=
  pageExists pg && !fixedOn pg && !followsTile pg && decide (pg.kind ≠ .cam) && decide (pg.kind ≠ .isp) && decide (pg.kind ≠ .tap)

/-- TURNING_ON completes (R48); `good` is what the work of a subchannel or of Caldera's slice comes to. -/
def turnOnDone (pg : PageKey) (good : Bool) (s : State) : State :=
  if !(ownTurn pg && pagePowered s pg && decide (fget s pg Fl.state = 1)) then s else
  match pg.kind with
  | .hubDdr => ddrTurnOn pg.inst good s
  | .hubLlc => llcTurnOn (if pg.inst = 0 then 0 else 1) s
  | .spad => spadTurnOn (tileOf pg.inst) s
  | .cal => calTurnOn good s
  | _ => finishOn pg s

/-- TURNING_ON begins again for a pending enable (R48, R49). -/
def turnOnAgain (pg : PageKey) (s : State) : State :=
  startPage pg (match domainOfPage pg with
    | some d => requestWake d (ownerOf s pg) s
    | none => s)

/-- TURNING_OFF completes (R48); a CAM page with no frame to deliver ends its own here (R329, R346). -/
def turnOffDone (pg : PageKey) (s : State) : State :=
  let st := fget s pg Fl.state
  if !((ownTurn pg || (pageExists pg && decide (pg.kind = .cam))) && (decide (st = 3) || decide (st = 4)) && offReady s pg) then s else
  match pg.kind with
  | .cam => camOff (portOf pg.inst) s
  | .hubDdr => ddrTurnOff pg.inst (turnOnAgain pg) s
  | .hubLlc => finishOff (turnOnAgain pg) pg (updHub (if pg.inst = 0 then 0 else 1) (fun x => { x with lines := [] }) s)
  | .cal => calTurnOff (turnOnAgain pg) s
  | _ => finishOff (turnOnAgain pg) pg s

/-! ## The meanings -/

/-- PAGE_TURN_ON_DONE (R48). -/
def execPageTurnOnDone (pg : PageKey) (good : Bool) (s : State) : Host.Outcome State Fault Refusal := ok (turnOnDone pg good s)
/-- PAGE_TURN_OFF_DONE (R48). -/
def execPageTurnOffDone (pg : PageKey) (s : State) : Host.Outcome State Fault Refusal := ok (turnOffDone pg s)

end Sys2Proof.Machine
end

