-- ==== Sys2Proof/Machine/Dispatch.lean ====
section
/-! DEFINITION. One arm per command: each is one call of its meaning. -/

namespace Sys2Proof.Machine

def exec (i : Instr) (s : State) : Host.Outcome State Fault Refusal :=
  match i with
  | .linkPacketReceive k crcGood => Sys2Proof.Machine.execLinkPacketReceive k crcGood s
  | .linkReplay k => Sys2Proof.Machine.execLinkReplay k s
  | .replayIntervalEnd k => Sys2Proof.Machine.execReplayIntervalEnd k s
  | .replayLimit k => Sys2Proof.Machine.execReplayLimit k s
  | .retrainDone k spared => Sys2Proof.Machine.execRetrainDone k spared s
  | .retrainFail k => Sys2Proof.Machine.execRetrainFail k s
  | .detourReady k => Sys2Proof.Machine.execDetourReady k s
  | .detourRelease k => Sys2Proof.Machine.execDetourRelease k s
  | .linkTrained k => Sys2Proof.Machine.execLinkTrained k s
  | .linkTrainTimeout k => Sys2Proof.Machine.execLinkTrainTimeout k s
  | .forceDown who h k => Sys2Proof.Machine.execForceDown who h k s
  | .forceDownRelease who h k => Sys2Proof.Machine.execForceDownRelease who h k s
  | .deviceRequest who req => Sys2Proof.Machine.execDeviceRequest who req s
  | .responseReceive id => Sys2Proof.Machine.execResponseReceive id s
  | .registerWrite who pg off width v => Sys2Proof.Machine.execRegisterWrite who pg off width v s
  | .pageEnable who pg => Sys2Proof.Machine.execPageEnable who pg s
  | .pageDisable who pg => Sys2Proof.Machine.execPageDisable who pg s
  | .pageTurnOnDone pg ok => Sys2Proof.Machine.execPageTurnOnDone pg ok s
  | .pageTurnOffDone pg => Sys2Proof.Machine.execPageTurnOffDone pg s
  | .softRst who pg => Sys2Proof.Machine.execSoftRst who pg s
  | .irqStatClear who pg bits arriving => Sys2Proof.Machine.execIrqStatClear who pg bits arriving s
  | .faultClr who pg => Sys2Proof.Machine.execFaultClr who pg s
  | .ownerWrite who pg v => Sys2Proof.Machine.execOwnerWrite who pg v s
  | .lockCfgSet who pg => Sys2Proof.Machine.execLockCfgSet who pg s
  | .lockOwnSet who pg => Sys2Proof.Machine.execLockOwnSet who pg s
  | .txnOpen who pg v => Sys2Proof.Machine.execTxnOpen who pg v s
  | .txnCommit who pg => Sys2Proof.Machine.execTxnCommit who pg s
  | .txnAbort who pg => Sys2Proof.Machine.execTxnAbort who pg s
  | .txWrite who pg off v => Sys2Proof.Machine.execTxWrite who pg off v s
  | .commitApplyRemote d => Sys2Proof.Machine.execCommitApplyRemote d s
  | .shWrite who pg off v => Sys2Proof.Machine.execShWrite who pg off v s
  | .loadw t => Sys2Proof.Machine.execLoadw t s
  | .planeValid t => Sys2Proof.Machine.execPlaneValid t s
  | .stream t => Sys2Proof.Machine.execStream t s
  | .streamRowReadable t j err => Sys2Proof.Machine.execStreamRowReadable t j err s
  | .streamComplete t => Sys2Proof.Machine.execStreamComplete t s
  | .vec t => Sys2Proof.Machine.execVec t s
  | .pool t => Sys2Proof.Machine.execPool t s
  | .softmax t => Sys2Proof.Machine.execSoftmax t s
  | .norm t => Sys2Proof.Machine.execNorm t s
  | .stats t => Sys2Proof.Machine.execStats t s
  | .vecRowRead t flags => Sys2Proof.Machine.execVecRowRead t flags s
  | .vecCmdComplete v => Sys2Proof.Machine.execVecCmdComplete v s
  | .lutWriteApply t => Sys2Proof.Machine.execLutWriteApply t s
  | .laneClrRows who t => Sys2Proof.Machine.execLaneClrRows who t s
  | .laneClrConflict who t => Sys2Proof.Machine.execLaneClrConflict who t s
  | .laneClrRes who t => Sys2Proof.Machine.execLaneClrRes who t s
  | .vecClrRes who t => Sys2Proof.Machine.execVecClrRes who t s
  | .vecClrNan who t => Sys2Proof.Machine.execVecClrNan who t s
  | .vecClrConflict who t => Sys2Proof.Machine.execVecClrConflict who t s
  | .scaleClrAdapt who t => Sys2Proof.Machine.execScaleClrAdapt who t s
  | .statsClrSel who t => Sys2Proof.Machine.execStatsClrSel who t s
  | .statsClrAll who t => Sys2Proof.Machine.execStatsClrAll who t s
  | .statsClrWide who t => Sys2Proof.Machine.execStatsClrWide who t s
  | .statsClrClip who t => Sys2Proof.Machine.execStatsClrClip who t s
  | .statsWhCfgWrite who t k v => Sys2Proof.Machine.execStatsWhCfgWrite who t k v s
  | .tileJobEnd t => Sys2Proof.Machine.execTileJobEnd t s
  | .frameStepDone t => Sys2Proof.Machine.execFrameStepDone t s
  | .move t q => Sys2Proof.Machine.execMove t q s
  | .regroup t e => Sys2Proof.Machine.execRegroup t e s
  | .gather t e => Sys2Proof.Machine.execGather t e s
  | .signal t q => Sys2Proof.Machine.execSignal t q s
  | .wait t q => Sys2Proof.Machine.execWait t q s
  | .commit t q => Sys2Proof.Machine.execCommit t q s
  | .mark t q => Sys2Proof.Machine.execMark t q s
  | .commitPoint t q => Sys2Proof.Machine.execCommitPoint t q s
  | .strmCmdComplete t e => Sys2Proof.Machine.execStrmCmdComplete t e s
  | .tileKill who t v => Sys2Proof.Machine.execTileKill who t v s
  | .killDone t d => Sys2Proof.Machine.execKillDone t d s
  | .tileResume who t => Sys2Proof.Machine.execTileResume who t s
  | .finfoClr who t => Sys2Proof.Machine.execFinfoClr who t s
  | .descLoad who t v => Sys2Proof.Machine.execDescLoad who t v s
  | .descCopyResponse t h bad => Sys2Proof.Machine.execDescCopyResponse t h bad s
  | .slotFill who t v => Sys2Proof.Machine.execSlotFill who t v s
  | .seqStart who t v => Sys2Proof.Machine.execSeqStart who t v s
  | .delay t => Sys2Proof.Machine.execDelay t s
  | .set t => Sys2Proof.Machine.execSet t s
  | .addi t => Sys2Proof.Machine.execAddi t s
  | .loop t => Sys2Proof.Machine.execLoop t s
  | .endl t => Sys2Proof.Machine.execEndl t s
  | .cmpj t => Sys2Proof.Machine.execCmpj t s
  | .emit t => Sys2Proof.Machine.execEmit t s
  | .waitb t => Sys2Proof.Machine.execWaitb t s
  | .seqSignal t => Sys2Proof.Machine.execSeqSignal t s
  | .seqMark t => Sys2Proof.Machine.execSeqMark t s
  | .fence t => Sys2Proof.Machine.execFence t s
  | .halt t => Sys2Proof.Machine.execHalt t s
  | .undefinedOp t => Sys2Proof.Machine.execUndefinedOp t s
  | .seqDone t => Sys2Proof.Machine.execSeqDone t s
  | .imemStage who t idx v => Sys2Proof.Machine.execImemStage who t idx v s
  | .imemTxnTimeout t cycles => Sys2Proof.Machine.execImemTxnTimeout t cycles s
  | .ilockLimit t q waited => Sys2Proof.Machine.execIlockLimit t q waited s
  | .seqFaultClr who t => Sys2Proof.Machine.execSeqFaultClr who t s
  | .seqClrViol who t => Sys2Proof.Machine.execSeqClrViol who t s
  | .seqClrStall who t => Sys2Proof.Machine.execSeqClrStall who t s
  | .spadAccess t port write slot line data ecc => Sys2Proof.Machine.execSpadAccess t port write slot line data ecc s
  | .spadClrEcc who t => Sys2Proof.Machine.execSpadClrEcc who t s
  | .spadClrConflict who t => Sys2Proof.Machine.execSpadClrConflict who t s
  | .spadClrStall who t => Sys2Proof.Machine.execSpadClrStall who t s
  | .channelArm t e => Sys2Proof.Machine.execChannelArm t e s
  | .rearm t e => Sys2Proof.Machine.execRearm t e s
  | .channelBlockDone t e c => Sys2Proof.Machine.execChannelBlockDone t e c s
  | .send t e => Sys2Proof.Machine.execSend t e s
  | .recv t e => Sys2Proof.Machine.execRecv t e s
  | .multicastDrop t e r tag lag => Sys2Proof.Machine.execMulticastDrop t e r tag lag s
  | .strmClrDrop who t e => Sys2Proof.Machine.execStrmClrDrop who t e s
  | .strmClrLines who t e => Sys2Proof.Machine.execStrmClrLines who t e s
  | .remoteSlotStep t sl step => Sys2Proof.Machine.execRemoteSlotStep t sl step s
  | .barrierUpdate p b => Sys2Proof.Machine.execBarrierUpdate p b s
  | .hubRequest h server cls ecc => Sys2Proof.Machine.execHubRequest h server cls ecc s
  | .bwPeriodEnd h server => Sys2Proof.Machine.execBwPeriodEnd h server s
  | .ddrReadData h sub ecc => Sys2Proof.Machine.execDdrReadData h sub ecc s
  | .eccWriteback h sub => Sys2Proof.Machine.execEccWriteback h sub s
  | .scrubRead h sub ecc => Sys2Proof.Machine.execScrubRead h sub ecc s
  | .ceRateWindow h sub => Sys2Proof.Machine.execCeRateWindow h sub s
  | .refresh h sub rank mr4 => Sys2Proof.Machine.execRefresh h sub rank mr4 s
  | .rfm h sub rank bank => Sys2Proof.Machine.execRfm h sub rank bank s
  | .liveCalibration h sub drift centre osc => Sys2Proof.Machine.execLiveCalibration h sub drift centre osc s
  | .wayTransitionDone h w => Sys2Proof.Machine.execWayTransitionDone h w s
  | .llcFlush who h v => Sys2Proof.Machine.execLlcFlush who h v s
  | .flushDone h => Sys2Proof.Machine.execFlushDone h s
  | .hubLoadInterval h => Sys2Proof.Machine.execHubLoadInterval h s
  | .hubBwClr who h => Sys2Proof.Machine.execHubBwClr who h s
  | .hubDdrClrEcc who h sub => Sys2Proof.Machine.execHubDdrClrEcc who h sub s
  | .hubDdrClrCal who h sub => Sys2Proof.Machine.execHubDdrClrCal who h sub s
  | .hubLlcClrStat who h => Sys2Proof.Machine.execHubLlcClrStat who h s
  | .hubLlcClrEcc who h => Sys2Proof.Machine.execHubLlcClrEcc who h s
  | .frameBegin n => Sys2Proof.Machine.execFrameBegin n s
  | .frameEnd n lines => Sys2Proof.Machine.execFrameEnd n lines s
  | .frameTimeout n => Sys2Proof.Machine.execFrameTimeout n s
  | .frameDone n => Sys2Proof.Machine.execFrameDone n s
  | .inputOverflow n => Sys2Proof.Machine.execInputOverflow n s
  | .outputOverflow n => Sys2Proof.Machine.execOutputOverflow n s
  | .pwrFault n => Sys2Proof.Machine.execPwrFault n s
  | .pinTest n high low bridged => Sys2Proof.Machine.execPinTest n high low bridged s
  | .pwrDelay n => Sys2Proof.Machine.execPwrDelay n s
  | .startCheck n obs => Sys2Proof.Machine.execStartCheck n obs s
  | .sampleStatusWrite r => Sys2Proof.Machine.execSampleStatusWrite r s
  | .batchDone r => Sys2Proof.Machine.execBatchDone r s
  | .ringRel who r count => Sys2Proof.Machine.execRingRel who r count s
  | .batchClose r => Sys2Proof.Machine.execBatchClose r s
  | .camClrErr who n => Sys2Proof.Machine.execCamClrErr who n s
  | .camClrAvoid who n => Sys2Proof.Machine.execCamClrAvoid who n s
  | .sliceSwitch e => Sys2Proof.Machine.execSliceSwitch e s
  | .chSubmit who e c v => Sys2Proof.Machine.execChSubmit who e c v s
  | .warpSample c => Sys2Proof.Machine.execWarpSample c s
  | .codecDecode c => Sys2Proof.Machine.execCodecDecode c s
  | .codecEncode c => Sys2Proof.Machine.execCodecEncode c s
  | .tokenize c => Sys2Proof.Machine.execTokenize c s
  | .cmd0 p arg => Sys2Proof.Machine.execCmd0 p arg s
  | .cmd3 p arg => Sys2Proof.Machine.execCmd3 p arg s
  | .cmd5 p arg => Sys2Proof.Machine.execCmd5 p arg s
  | .cmd7 p arg => Sys2Proof.Machine.execCmd7 p arg s
  | .cmd11 p arg => Sys2Proof.Machine.execCmd11 p arg s
  | .cmd15 p arg => Sys2Proof.Machine.execCmd15 p arg s
  | .cmd19 p arg => Sys2Proof.Machine.execCmd19 p arg s
  | .cmd52 p arg => Sys2Proof.Machine.execCmd52 p arg s
  | .cmd53 p arg data => Sys2Proof.Machine.execCmd53 p arg data s
  | .illegalCommand p idx => Sys2Proof.Machine.execIllegalCommand p idx s
  | .mboxWrite p data => Sys2Proof.Machine.execMboxWrite p data s
  | .mboxRead p => Sys2Proof.Machine.execMboxRead p s
  | .bulkWrite p data => Sys2Proof.Machine.execBulkWrite p data s
  | .bulkTimeout p => Sys2Proof.Machine.execBulkTimeout p s
  | .sdioCntClr who p => Sys2Proof.Machine.execSdioCntClr who p s
  | .jobSubmit who p v => Sys2Proof.Machine.execJobSubmit who p v s
  | .jobRelease p => Sys2Proof.Machine.execJobRelease p s
  | .jobPlacement p => Sys2Proof.Machine.execJobPlacement p s
  | .jobStart p j => Sys2Proof.Machine.execJobStart p j s
  | .jobEnd p j => Sys2Proof.Machine.execJobEnd p j s
  | .jobCancel who p v => Sys2Proof.Machine.execJobCancel who p v s
  | .cplRel who p v => Sys2Proof.Machine.execCplRel who p v s
  | .ctxFreeze who t v => Sys2Proof.Machine.execCtxFreeze who t v s
  | .ctxSave who t v => Sys2Proof.Machine.execCtxSave who t v s
  | .ctxRestore who t v => Sys2Proof.Machine.execCtxRestore who t v s
  | .ctxDone t => Sys2Proof.Machine.execCtxDone t s
  | .jobResume p j => Sys2Proof.Machine.execJobResume p j s
  | .markMissed p j m => Sys2Proof.Machine.execMarkMissed p j m s
  | .jobBudgetMissed p j => Sys2Proof.Machine.execJobBudgetMissed p j s
  | .windowReserve p => Sys2Proof.Machine.execWindowReserve p s
  | .windowClose p => Sys2Proof.Machine.execWindowClose p s
  | .partSync who p v => Sys2Proof.Machine.execPartSync who p v s
  | .partCntRead who p => Sys2Proof.Machine.execPartCntRead who p s
  | .evidenceRecord => Sys2Proof.Machine.execEvidenceRecord s
  | .tileHeartbeat t => Sys2Proof.Machine.execTileHeartbeat t s
  | .tileLost t => Sys2Proof.Machine.execTileLost t s
  | .evidenceTimeout j => Sys2Proof.Machine.execEvidenceTimeout j s
  | .verdictWrite => Sys2Proof.Machine.execVerdictWrite s
  | .calVringRel who v => Sys2Proof.Machine.execCalVringRel who v s
  | .lockstep => Sys2Proof.Machine.execLockstep s
  | .calderaRestartDone pass => Sys2Proof.Machine.execCalderaRestartDone pass s
  | .calFwHb who v => Sys2Proof.Machine.execCalFwHb who v s
  | .fwLost => Sys2Proof.Machine.execFwLost s
  | .clrDegraded who => Sys2Proof.Machine.execClrDegraded who s
  | .calEcc => Sys2Proof.Machine.execCalEcc s
  | .calTileForce who v => Sys2Proof.Machine.execCalTileForce who v s
  | .calClrVcnt who => Sys2Proof.Machine.execCalClrVcnt who s
  | .calClrSt who => Sys2Proof.Machine.execCalClrSt who s
  | .geyserSliceStart => Sys2Proof.Machine.execGeyserSliceStart s
  | .geyserResult => Sys2Proof.Machine.execGeyserResult s
  | .selftestSliceStart caldera => Sys2Proof.Machine.execSelftestSliceStart caldera s
  | .selftestSliceDone fails => Sys2Proof.Machine.execSelftestSliceDone fails s
  | .coverage grp => Sys2Proof.Machine.execCoverage grp s
  | .tileRemap t bad => Sys2Proof.Machine.execTileRemap t bad s
  | .redirectEnable who k v => Sys2Proof.Machine.execRedirectEnable who k v s
  | .pmbusTransaction acked => Sys2Proof.Machine.execPmbusTransaction acked s
  | .pmbusPoll vout => Sys2Proof.Machine.execPmbusPoll vout s
  | .vaonLow => Sys2Proof.Machine.execVaonLow s
  | .wakeRequest d => Sys2Proof.Machine.execWakeRequest d s
  | .wakeWindow => Sys2Proof.Machine.execWakeWindow s
  | .domainPowerGood d => Sys2Proof.Machine.execDomainPowerGood d s
  | .wakeTimeout d => Sys2Proof.Machine.execWakeTimeout d s
  | .domainOff d => Sys2Proof.Machine.execDomainOff d s
  | .alert => Sys2Proof.Machine.execAlert s
  | .alertRelease => Sys2Proof.Machine.execAlertRelease s
  | .alertHoldExpiry => Sys2Proof.Machine.execAlertHoldExpiry s
  | .deepIdleEnter who => Sys2Proof.Machine.execDeepIdleEnter who s
  | .wakeN => Sys2Proof.Machine.execWakeN s
  | .sdioStartBit p => Sys2Proof.Machine.execSdioStartBit p s
  | .pwrWakeTimer => Sys2Proof.Machine.execPwrWakeTimer s
  | .rootSwitch who v => Sys2Proof.Machine.execRootSwitch who v s
  | .rootSwitchDone => Sys2Proof.Machine.execRootSwitchDone s
  | .sourceReady src => Sys2Proof.Machine.execSourceReady src s
  | .clockMonitor src lost => Sys2Proof.Machine.execClockMonitor src lost s
  | .pstateChange => Sys2Proof.Machine.execPstateChange s
  | .voltageSettled mv => Sys2Proof.Machine.execVoltageSettled mv s
  | .sensorSample sensor reading => Sys2Proof.Machine.execSensorSample sensor reading s
  | .thermalStep => Sys2Proof.Machine.execThermalStep s
  | .thermalRelax => Sys2Proof.Machine.execThermalRelax s
  | .powerEstimate mw => Sys2Proof.Machine.execPowerEstimate mw s
  | .powerRecalibrate => Sys2Proof.Machine.execPowerRecalibrate s
  | .capThrottle => Sys2Proof.Machine.execCapThrottle s
  | .por => Sys2Proof.Machine.execPor s
  | .pin => Sys2Proof.Machine.execPin s
  | .secRstArm who => Sys2Proof.Machine.execSecRstArm who s
  | .soft who v => Sys2Proof.Machine.execSoft who v s
  | .wdogKick who => Sys2Proof.Machine.execWdogKick who s
  | .wdog => Sys2Proof.Machine.execWdog s
  | .bootSequence o => Sys2Proof.Machine.execBootSequence o s
  | .bootImage p => Sys2Proof.Machine.execBootImage p s
  | .attest p => Sys2Proof.Machine.execAttest p s
  | .cert p => Sys2Proof.Machine.execCert p s
  | .fuseCustkey p good => Sys2Proof.Machine.execFuseCustkey p good s
  | .fuseRevoke p good => Sys2Proof.Machine.execFuseRevoke p good s
  | .arbAdvance p good => Sys2Proof.Machine.execArbAdvance p good s
  | .bootDisable p good => Sys2Proof.Machine.execBootDisable p good s
  | .unknown p => Sys2Proof.Machine.execUnknown p s
  | .secArbAdv who v good => Sys2Proof.Machine.execSecArbAdv who v good s
  | .sntSnap who => Sys2Proof.Machine.execSntSnap who s
  | .snapshotCollected => Sys2Proof.Machine.execSnapshotCollected s
  | .snapshot => Sys2Proof.Machine.execSnapshot s
  | .ignoreWrite who v => Sys2Proof.Machine.execIgnoreWrite who v s
  | .tagWrite who idx v => Sys2Proof.Machine.execTagWrite who idx v s
  | .tagLock who v => Sys2Proof.Machine.execTagLock who v s
  | .fumaroleRecord => Sys2Proof.Machine.execFumaroleRecord s
  | .flush who => Sys2Proof.Machine.execFlush who s
  | .flushed => Sys2Proof.Machine.execFlushed s
  | .clrRing who => Sys2Proof.Machine.execClrRing who s
  | .tokenRefill => Sys2Proof.Machine.execTokenRefill s
  | .suppressed => Sys2Proof.Machine.execSuppressed s
  | .fwSramEcc corrected => Sys2Proof.Machine.execFwSramEcc corrected s
  | .xcoreCntClr who => Sys2Proof.Machine.execXcoreCntClr who s
  | .calLoadInterval => Sys2Proof.Machine.execCalLoadInterval s

end Sys2Proof.Machine
end

