-- ==== Sys2Proof/Machine/Idle.lean ====
section
/-! DEFINITION. What passes by itself while no command waits: one FABRIC cycle, or in deep idle one AON cycle (log 2; 11,
R400; 13, R451, R455, R458; 14, R491). -/

namespace Sys2Proof.Machine

/-! ## Operating time (R491) -/

/-- Units of 1/512 us in 1/256 hour. -/
def opUnit : Nat := 14062500 * 512

/-- Operating time passes; once Sinter has loaded it, SNT_OPTIME shows it (R491, R498). -/
def passOptime (n : Nat) (s : State) : State :=
  let k := s.boot.opTicks + n
  let s := updBoot (fun b => { b with opTicks := k % opUnit }) s
  if k < opUnit then s else
  let s := updFum (fun f => { f with optime := (f.optime + k / opUnit) % 2 ^ 32 }) s
  if 3 ≤ bootPhase s then fset pgSnt Fl.sntOptimeTime s.fum.optime s else s

/-! ## One cycle -/

/-- The part of a microsecond, in units of 1/1600 us, that one FABRIC cycle takes under the root in force (R455). -/
def cycleUnits (s : State) : Nat := 1600 / fabricPerUs s

/-- What is due at a microsecond boundary. -/
def microsecond (s : State) : State := trackIdle (passOptime 512 s)

/-- Every partition's counter counts, unless FABRIC is held by a root switch (R400, R456). -/
def countParts (s : State) : State :=
  if fon s pgClk Fl.clkStatSwitching then s
  else { s with partCnt := s.partCnt.map (fun e => (e.1, e.2.map (fun n => (n + 1) % 2 ^ 64))) }

/-- ARITH cycles that have begun by FABRIC cycle `n`, at the ratio of the default plan (R4, R455). -/
def arithCycles (n : Nat) : Nat := n * 3 / 4

/-- What waits tries again: held requests, SDIO commands and bulk blocks, the stream engines' work, wake requests. -/
def retryAll (s : State) : State :=
  let s := allParts.foldl (fun s p => bulkTry p (retrySdio p s)) (resendHeld s)
  admitWakes (strmCycles regRequest (decide (arithCycles (s.now - 1) < arithCycles s.now)) s)

/-- One FABRIC cycle passes. -/
def fabricCycle (s : State) : State :=
  let ph := s.usPhase + cycleUnits s
  let s := countParts { s with now := s.now + 1, us := s.us + ph / 1600, usPhase := ph % 1600 }
  retryAll (collectPage (if 1600 ≤ ph then microsecond s else s))

/-- One AON cycle passes in deep idle: the timers of the microsecond tick stand still (R452, R458). -/
def aonCycle (s : State) : State :=
  passOptime (if fon s pgClk Fl.clkAonSrc && srcReady s 3 then 15625 else 16000) (updPwr (fun p => { p with aon := p.aon + 1 }) s)

/-- What one step does while no command waits. -/
def idle (s : State) : State :=
  match fget s pgPwr Fl.pwrIdleState with
  | 1 => idleAdvance (fabricCycle s)
  | 2 => aonCycle s
  | _ => fabricCycle s

end Sys2Proof.Machine
end

