-- ==== Sys2Proof/Safety.lean ====
section
/-! DEFINITION. What a safe run keeps, in the terms the statements use. -/

namespace Sys2Proof.Safety

open Sys2Proof.Machine

/-- What Sinter keeps for good, from one state `a` of it to a later one `b`: the founding area only grows, up to 256 records
(R493); a locked block stays locked and keeps its words (R490); the power-cycle count never falls (R473). -/
structure Lasts (a b : SinterSt) : Prop where
  founding : a.founding <+: b.founding
  room : a.founding.length ≤ 256 → b.founding.length ≤ 256
  locks : ∀ i, a.tagLock.testBit i = true → b.tagLock.testBit i = true
  tags : ∀ i, a.tagLock.testBit (i / 16) = true → Tab.get 0 b.tags i = Tab.get 0 a.tags i
  cycles : a.cycles ≤ b.cycles

/-- A register write passes every check of R45, R52 and R374: the page exists, the requester may write the word, and the
page's domain is powered if the register lies at 0x100 or above. -/
structure Accepted (s : State) (who : Requester) (pg : PageKey) (off : Nat) (v : Word) : Prop where
  exists' : pageExists pg = true
  allowed : writeRefusal s who pg off v = none
  powered : 0x100 ≤ off → pagePowered s pg = true

/-- From `s` to `t` nothing changes but the registers with the keys `ks`. -/
structure OnlyRegs (ks : List RegKey) (s t : State) : Prop where
  rest : t = { s with regs := t.regs }
  regs : ∀ pg off, canonKey pg off ∉ ks → rd t pg off = rd s pg off

/-- The registers of a page at some offsets. -/
def keysOf (pg : PageKey) (offs : List Nat) : List RegKey := offs.map (canonKey pg)

/-- A register with RW bits whose write stores them and does nothing more: not one of those whose write also acts on what the
page controls, nor a counter of a running sequencer, nor a table of the vector unit (R102, R131, R194, R404, R430, R452, R454,
R456, R488, R490, R497 to R500). -/
def plainReg (s : State) (pg : PageKey) (off : Nat) : Bool :=
  match pg.kind with
  | .tile => off != 0x508
  | .seq => !(within 0x120 0x13F off && fget s pg Fl.seqStatusState = 1)
  | .vec => (tableOf off).isNone
  | .stats => !within 0x200 0x2FF off
  | .cam => off != 0x110
  | .warp | .codec | .token => (chanAt off).isNone || !([0, 0x20, 0x24, 0x28, 0x2C].contains ((off - 0x400) % 0x80))
  | .hub => off != 0x820
  | .cal => !([0x100, 0x114, 0x12C, 0x180, 0x184, 0x188, 0x18C, 0x19C].contains off)
  | .clk => !([0x100, 0x108, 0x110].contains off)
  | .pwr => off != 0x130
  | .snt => off != 0x100 && off != 0x120 && decide (off < 0x800)
  | .sec => !([0x124, 0x128, 0x144].contains off)
  | .sdio => off != 0x124
  | .xcore => off != 0x108
  | _ => true

/-- What a commit that comes to a page of a camera port or a shared engine stores: the bits of the one value staged for the
register at `off` (R55, R59). -/
def Stores (s t : State) (pg : PageKey) (off : Nat) (v mask : Word) : Prop :=
  rd t pg off = (rd s pg off &&& ~~~ mask) ||| (v &&& mask)

/-- The page types whose registers a commit of staged values stores and nothing else does. -/
def storeKinds : List PageKind := [.cam, .isp, .tap, .warp, .codec, .token]

/-- The queue, the memory and Sinter are as they were. -/
abbrev Keeps (s t : State) : Prop := t.pending = s.pending ∧ t.mem = s.mem ∧ t.snt = s.snt

/-- A write of a clear bit: the command, the page and the register written, and the registers it sets to 0. -/
structure Clear where
  cmd : Instr
  pg : PageKey
  off : Nat
  zero : List Nat

/-- The clear bits that set whole registers to 0 (R107, R109, R126, R131, R217, R280, R282, R318, R319, R321, R358, R372,
R440). -/
def clears (who : Requester) (t : TileId) (e : StrmId) (h : HubId) (c : Sub) (n : Port) (p : PartId) : List Clear :=
  [⟨.laneClrRows who t, pgLane t, 0x14C, [0x130, 0x134]⟩, ⟨.laneClrConflict who t, pgLane t, 0x14C, [0x138]⟩,
   ⟨.laneClrRes who t, pgLane t, 0x14C, [0x13C, 0x140]⟩, ⟨.vecClrRes who t, pgVec t, 0x14C, [0x130, 0x134]⟩,
   ⟨.vecClrNan who t, pgVec t, 0x14C, [0x138]⟩, ⟨.vecClrConflict who t, pgVec t, 0x14C, [0x13C]⟩,
   ⟨.scaleClrAdapt who t, pgScale t, 0x10C, [0x108]⟩, ⟨.statsClrWide who t, pgStats t, 0x118, [0x110]⟩,
   ⟨.statsClrClip who t, pgStats t, 0x118, [0x114]⟩, ⟨.seqClrViol who t, pgSeq t, 0x170, [0x168]⟩,
   ⟨.seqClrStall who t, pgSeq t, 0x170, [0x16C]⟩, ⟨.spadClrEcc who t, pgSpad t, 0x178, [0x100, 0x104]⟩,
   ⟨.spadClrConflict who t, pgSpad t, 0x178, [0x110, 0x114, 0x118, 0x11C, 0x120, 0x124]⟩,
   ⟨.spadClrStall who t, pgSpad t, 0x178, [0x140, 0x144, 0x148, 0x14C, 0x150, 0x154, 0x158, 0x15C, 0x160, 0x164, 0x168]⟩,
   ⟨.strmClrDrop who t e, pgStrm t e, 0x118, [0x108, 0x10C]⟩, ⟨.strmClrLines who t e, pgStrm t e, 0x118, [0x110, 0x114]⟩,
   ⟨.hubBwClr who h, pgHub h, 0x160, [0x130, 0x134, 0x138, 0x13C]⟩, ⟨.hubDdrClrEcc who h c, pgDdr h c, 0x150, [0x140, 0x144]⟩,
   ⟨.hubDdrClrCal who h c, pgDdr h c, 0x150, [0x108]⟩, ⟨.hubLlcClrEcc who h, pgLlc h, 0x134, [0x120, 0x124]⟩,
   ⟨.camClrErr who n, pgCam n, 0x138, [0x130]⟩, ⟨.camClrAvoid who n, pgCam n, 0x138, [0x134]⟩,
   ⟨.sdioCntClr who p, pgSdio p, 0x134, [0x130]⟩,
   ⟨.calClrVcnt who, pgCal, 0x1C4, [0x1B0, 0x1B4, 0x1B8, 0x1BC, 0x1C0]⟩]

/-- The next command of queue `q` of tile `t` is `e`, with opcode `op`; the tile may dispatch it, and it has passed the
checks that need no operand, with its descriptors `ds` (R104, R169, R519). -/
structure AtHead (s : State) (t : TileId) (q : Engine) (op : Nat) (e : QEntry) (ds : List (Option (List Word))) : Prop where
  may : mayDispatch s t q = true
  head : headEntry (queue s t q) = some e
  opcode : opcodeOf e = op
  takes : opAccepted op q = true
  checks : checkHead s t q e = .ready ds

/-- Every operand lies in the scratchpad and none in a slot ring, and none reaches past the scratchpad's end (R154, R241). -/
def InSpad (ds : List (Option (List Word))) : Prop := (∀ d, some d ∈ ds → dLoc d = 2) ∧ spadAlloc ds = false

/-- Rows `row0` and up of a tensor that starts at byte `a` hold converted rows (R155, R156). -/
def rowsStored (o : List Word) (ty a row0 : Nat) (rows : List (List ChanCfg × List Conv)) (m : List Host.Cell) : List Host.Cell :=
  (rows.mapIdx (fun i p => (row0 + i, p.2.map Conv.q))).foldl (fun m p => writeRowAt o ty a p.1 p.2 m) m

/-- Every row may be written: no line of it is refused (R246 to R249). -/
def RowsWritable (s : State) (t : TileId) (o : List Word) (ty a row0 n : Nat) : Prop :=
  ∀ i, i < n → linesGuard t true (dLoc o = 3) (rowLines o ty a (row0 + i)) s = none

/-- The registers that count the cycles in which a path of the tile lost a bank to another (R85, R100, R245). -/
def conflictKeys (t : TileId) : List RegKey :=
  keysOf (pgSpad t) [0x110, 0x114, 0x118, 0x11C, 0x120, 0x124] ++ keysOf (pgLane t) [0x138] ++ keysOf (pgVec t) [0x13C]

/-- No register has changed but the counters of a tile's bank conflicts. -/
def RegsBut (s u : State) (l : List RegKey) : Prop := ∀ pg off, canonKey pg off ∉ l → rd u pg off = rd s pg off

/-- The value an output element takes from memory as it stands, in types `sty` and `dty` (R136, R224). -/
def copyValue (m : List Host.Cell) (sty dty : Nat) : SrcEl → Nat
  | .mem nib => (convElem sty dty (readElem m sty nib)).1
  | .src v => (convElem sty dty v).1
  | .dst v => v

/-- Memory with every element of some lines written from memory as it stood (R256). -/
def copied (m : List Host.Cell) (sty dty : Nat) (l : List DstLine) : List Host.Cell :=
  l.foldl (fun k d => d.els.foldl (fun k x => writeElem dty x.2.1 (copyValue m sty dty x.2.2) k) k) m

/-- Source lines in the tile's own scratchpad that an engine may read (R244 to R249). -/
def OwnReads (s : State) (t : TileId) (q : Engine) (o : Opd) (reads : List Nat) : Prop :=
  ∀ l ∈ reads, ownLine t o l = true ∧ spadCheck s t (portOfEng q) false (slotLine s o l) (64 * l - spadBase t) = none

/-- Destination lines in the tile's own scratchpad that an engine may write, none of them one it reads (R244 to R249). -/
def OwnWrites (s : State) (t : TileId) (q : Engine) (o : Opd) (lines : List DstLine) (reads : List Nat) : Prop :=
  ∀ d ∈ lines, ∀ x ∈ d.els, ∀ n ∈ elLines o.ty x.2.1,
    ownLine t o n = true ∧ spadCheck s t (portOfEng q) true (slotLine s o n) (64 * n - spadBase t) = none ∧ n ∉ reads

/-- A MOVE or REGROUP is at the head of a stream queue, has passed its checks with the descriptors `src`, `dst` and the stream
descriptor `sd`, and reads no adaptive ring of another tile unless a SEND gives it its lines (R142, R169, R176, R254, R519). -/
structure MoveReady (s : State) (t : TileId) (g : StrmId) (op : Nat) (tn : Turn) (c : QEntry) (src dst : List Word) (sd : Option (List Word)) :
    Prop where
  none' : readsLeft (tile s t) g = false
  head : AtHead s t (strmEng g) op c [some src, some dst]
  sdesc : sd = if cf c 2 0 8 = 0xFF then none else some (sdescWords s t g (cf c 2 0 8))
  region : regionCheck s t g c src dst sd tn = none
  room : strmRoom s false (opd s t src false none (ofsBytes (cf c 3 0 16)))
    (outOpd (opd s t src false none (ofsBytes (cf c 3 0 16))) (opd s t dst true none (ofsBytes (cf c 3 16 16))))
    (moveMap s t (opd s t src false none (ofsBytes (cf c 3 0 16)))
      (outOpd (opd s t src false none (ofsBytes (cf c 3 0 16))) (opd s t dst true none (ofsBytes (cf c 3 16 16))))
      (regOf src sd) tn (16 * cf c 3 0 16)) = none
  adaptive : dLoc src = 3 → effTile s src ≠ t → dAdpCnt src = 0

/-- An operand's slot step can be taken, or it needs none (R167, R259). -/
def SlotFree (s : State) (t : TileId) (g : StrmId) (num : Nat) (d : List Word) (write : Bool) : Prop :=
  ∀ ask, slotWait s t g num d write ≠ .waits ask

/-- A run of a command of a stream engine that reads and writes these operands. -/
def Runs (u : State) (t : TileId) (g : StrmId) (num : Nat) (a b : Opd) : Prop :=
  ∃ r ∈ (strOf (tile u t) g).runs, r.num = num ∧ r.chan = none ∧ r.src = a ∧ r.dst = b

/-- Lines written by a stream engine (R282). -/
def linesWritten (s : State) (t : TileId) (g : StrmId) : Nat := fget64 s (pgStrm t g) Fl.strmLinesLoLines Fl.strmLinesHiLines

/-- The command numbered `num` of a queue is in a phase. -/
def InPhase (s : State) (t : TileId) (q : Engine) (num : Nat) (p : Phase) : Prop := ∀ x ∈ queue s t q, x.num = num → x.phase = p

/-- Tile `t`'s sequencer issues next the instruction `w` at `pc`, whose OP is `op` and whose reserved fields are zero
(R194, R195, R196). -/
structure Issues (s : State) (t : TileId) (op pc : Nat) (w : Word) : Prop where
  runs : seqRuns s t = true
  running : fget s (pgTile t) Fl.tileRunHalted = 0
  unfenced : (tile s t).fenceWait = []
  at' : (tile s t).nextPc = pc
  word : imemWord s t pc = w
  opcode : sf w 28 4 = op
  fields : within 0xB 0xE op = true ∨ w.toNat &&& seqFieldMask op = w.toNat
  low : pc < 4096

/-- The instruction at `pc` has issued and the next is at `next`: SEQ_PC, STALL and SEQ_ISSUED show it (R195, R217); memory
is as it was. -/
def Issued (s u : State) (t : TileId) (pc next : Nat) : Prop :=
  fget u (pgSeq t) Fl.seqPcPc = pc ∧ fget u (pgSeq t) Fl.seqStatusStall = 0 ∧
    fget u (pgSeq t) Fl.seqIssuedCount = (fget s (pgSeq t) Fl.seqIssuedCount + 1) % 2 ^ 32 ∧ (tile u t).nextPc = next ∧ u.mem = s.mem

/-- One command with these words has been pushed onto queue `q`, with the next program-order number; the other queues are as
they were (R202, R209). -/
def Pushed (s u : State) (t : TileId) (q : Engine) (ws : List Word) : Prop :=
  (∃ e : QEntry, queue u t q = queue s t q ++ [e] ∧ entryWords e = ws ∧ e.num = (tile s t).nextNum ∧ e.phase = .queued) ∧
    (∀ q', q' ≠ q → queue u t q' = queue s t q') ∧ (tile u t).nextNum = ((tile s t).nextNum + 1) % 2 ^ 16 ∧
    fget u (pgSeq t) Fl.seqEmittedCount = (fget s (pgSeq t) Fl.seqEmittedCount + 1) % 2 ^ 32

/-- A queue entry that nothing has been noted of since it was pushed, but its phase. -/
def Plain (e : QEntry) : Prop := e = { w0 := e.w0, w1 := e.w1, w2 := e.w2, w3 := e.w3, num := e.num, phase := e.phase }

/-- The oldest entry `w` of a shared engine's channel can be taken: the channel is served, and its ring is in use with a free
buffer and no batch to close (R347, R349, R350). -/
structure TakesEntry (s : State) (e : SharedEng) (c : Chan) (w : WorkEnt) (rest : List WorkEnt) : Prop where
  queue : (engChan s e c).queue = w :: rest
  source : w.src ≠ some (.chan e c)
  served : chanServed s e c = true
  ringOn : ringGet s (.chan e c) 12 16 1 = 1
  free : 0 < ringFree (ringSt (ringSync (.chan e c) s) (.chan e c))
  stays : (ringSt (ringSync (.chan e c) s) (.chan e c)).closing = false
  fresh : ∀ m ∈ (ringSt (ringSync (.chan e c) s) (.chan e c)).samples, m.seq ≠ (ringSt (ringSync (.chan e c) s) (.chan e c)).seq

/-- The state with the oldest entry of a channel taken, in which its sample is made. -/
def taken (s : State) (e : SharedEng) (c : Chan) (rest : List WorkEnt) : State :=
  fillQueue e c (setEngChan e c { engChan (ringSync (.chan e c) s) e c with queue := rest } (ringSync (.chan e c) s))

/-- The entry is gone from the queue, which samples chained to the channel fill, and the ring holds one sample more, ready, with
what was made of it; a valid one larger than its buffer is corrupt with SIZE; a fault of the engine is recorded; and a camera
buffer that the entry named is free (R339, R344, R350, R351). -/
def SampleMade (s u : State) (e : SharedEng) (c : Chan) (w : WorkEnt) (rest : List WorkEnt) (made : Made × State) : Prop :=
  let x := ringSt (ringSync (.chan e c) s) (.chan e c)
  let m := made.1
  (engChan u e c).queue = rest ++ (engChan s e c).wait.take (8 - rest.length) ∧
    (∀ q, w.src = some q → ringGet s q 12 16 1 = 0 ∨ (ringSt s q).on = true → (ringSt u q).held = (ringSt s q).held - 1) ∧
    (∀ d, m.fault = some d → fget made.2 (pgEng e) Fl.faultClass = 0 →
      fget u (pgEng e) Fl.faultClass = 0x0B ∧ fget u (pgEng e) Fl.faultDetail = d) ∧
    (ringSt u (.chan e c)).held = x.held + 1 ∧ (ringSt u (.chan e c)).seq = (x.seq + 1) % 2 ^ 32 ∧
    (ringSt u (.chan e c)).samples = x.samples ++
      [⟨x.seq, true, if m.cause = 0 ∧ x.stride < m.ext then 5 else m.cause, m.flags, m.info, m.ext⟩]

/-- A message `m` has been taken from port `p`'s queue, leaving `rest`, and answered with a reply of SERVICE `code`, the
message's TAG and the words `ws` (R370, R480). -/
def Replied (s t : State) (p : PartId) (code : Nat) (m : List Byte) (rest : List (List Byte)) (ws : List Word) : Prop :=
  (sdioSt t p).toFw = rest ∧ (sdioSt t p).toHost = (sdioSt s p).toHost ++ [replyMsg code (msgTag m) ws]

end Sys2Proof.Safety
end

