-- ==== Sys2Proof/WellFormed.lean ====
section
/-! DEFINITION. Which commands are well formed: operands that name something the part has, in the ranges the spec gives
them. A command that is not well formed still runs; nothing in the part can cause it. -/

namespace Sys2Proof

open Sys2Proof.Machine

/-- A register of a page that exists, by the offset of its word in the page or in one of its windows (R36, R38). -/
def regOk (pg : PageKey) (off : Nat) : Bool :=
  pageExists pg && (decide (off < 0x1000) || decide (0x10000 ≤ off ∧ off < 0x30000))

/-- A request's bytes lie in the 40-bit space, and a write brings as many as its length says (R31). -/
def reqOk (r : Req) : Bool :=
  decide (1 ≤ r.len) && decide (r.addr.toNat + r.len ≤ 2 ^ 40) && (!r.write || decide (r.data.length = r.len))

/-- The operands of a command name what the part has. -/
def Instr.wf : Instr → Bool
  | .deviceRequest _ r => reqOk r
  | .registerWrite _ pg off width _ => regOk pg off && decide (width = 8 ∨ width = 16 ∨ width = 32 ∨ width = 64)
  | .txWrite _ pg off _ => regOk pg off && decide (off % 4 = 0)
  | .shWrite _ pg off _ => regOk pg off && decide (off % 4 = 0)
  | .pageEnable _ pg => pageExists pg
  | .pageDisable _ pg => pageExists pg
  | .pageTurnOnDone pg _ => pageExists pg
  | .pageTurnOffDone pg => pageExists pg
  | .softRst _ pg => pageExists pg
  | .irqStatClear _ pg _ _ => pageExists pg
  | .faultClr _ pg => pageExists pg
  | .ownerWrite _ pg _ => pageExists pg
  | .lockCfgSet _ pg => pageExists pg
  | .lockOwnSet _ pg => pageExists pg
  | .txnOpen _ pg _ => pageExists pg
  | .txnCommit _ pg => pageExists pg
  | .txnAbort _ pg => pageExists pg
  | .spadAccess _ _ write _ _ data _ => !write || decide (data.length ≤ 64)
  | .liveCalibration _ _ drift centre _ => decide (drift.length = 5) && decide (centre.length = 5)
  | _ => true

end Sys2Proof
end

