-- ==== Sys2Proof/Certificates/Slice0/Obligations.lean ====
section
/-! DEFINITION. The statements about the machine, one definition each; each says in its docstring which rules it states. -/

open Sys2Proof Sys2Proof.Machine Sys2Proof.Safety

/-- The step takes the front of the queue; what an empty queue lets pass is the model's choice (logs 1 and 2). -/
def Obligations.StepRunsFrontCommand : Prop :=
  (∀ (c : Instr) (r : List Instr) (s : State), s.pending = c :: r → step s = exec c { s with pending := r }) ∧
  (∀ s : State, s.pending = [] → step s = .next (idle s))

/-- Every command of the table runs in every state: the block stops on none, and none reads or changes what waits. -/
def Obligations.EveryCommandLeavesTheQueue : Prop :=
  ∀ (c : Instr) (s : State), ∃ t, exec c s = .next t ∧ t.pending = s.pending

/-- Addresses strictly rise and no cell holds 0, after every command and after every idle cycle (the form is the model's, log 4). -/
def Obligations.StepKeepsMemoryForm : Prop :=
  ∀ s t : State, Memory.wf s.mem = true → step s = .next t → Memory.wf t.mem = true

/-- The founding area and locked blocks outlast every command, every idle cycle and every package reset (R473, R490, R493). -/
def Obligations.StepKeepsSinter : Prop :=
  ∀ s t : State, step s = .next t → Lasts s.snt t.snt

/-- What the invariants ask of a state holds right after reset; open groups and shadow values are discarded by a reset (R12). -/
def Obligations.ResetMeetsTheInvariants : Prop :=
  State.reset.pending = [] ∧ Memory.wf State.reset.mem = true ∧ State.reset.snt.founding.length ≤ 256 ∧
  State.reset.groups = [] ∧ State.reset.staged = [] ∧ State.reset.shadow = []

/-- The header right after reset: the Reset column of R39, R41, R44 and R53, with the pages that are always ON (R50). -/
def Obligations.ResetPageHeaders : Prop :=
  ∀ pg : PageKey,
    fget State.reset pg Fl.ctrlEn = 0 ∧ rd State.reset pg 0x010 = 0 ∧ rd State.reset pg 0x014 = 0 ∧ rd State.reset pg 0x01C = 0 ∧
    fget State.reset pg Fl.txnGstate = 0 ∧ fget State.reset pg Fl.txnStaged = 0 ∧
    fget State.reset pg Fl.ownerPart = 0 ∧ fget State.reset pg Fl.ownerShared = 0 ∧
    fget State.reset pg Fl.lockCfg = 0 ∧ fget State.reset pg Fl.lockOwn = 0 ∧
    rd State.reset pg 0x000 = BitVec.ofNat 32 (kindCode pg.kind * 0x10000 + pg.inst) ∧
    pageState State.reset pg = if fixedOn pg then 2 else 0

/-- The columns of R48 for CTRL.EN written 1 and written 0. -/
def Obligations.PageStateTable : Prop :=
  ∀ (who : Requester) (pg : PageKey) (s : State), Accepted s who pg 0x008 0 → fixedOn pg = false → followsTile pg = false →
    pg.kind ≠ .cam → fget s pgPwr Fl.pwrIdleState ≠ 1 →
    (∃ t, exec (.pageEnable who pg) s = .next t ∧ fget t pg Fl.ctrlEn = 1 ∧
      fget t pg Fl.state = if fget s pg Fl.state = 0 then 1 else if fget s pg Fl.state = 3 then 4 else fget s pg Fl.state) ∧
    (∃ t, exec (.pageDisable who pg) s = .next t ∧ fget t pg Fl.ctrlEn = 0 ∧
      fget t pg Fl.state = if fget s pg Fl.state = 2 ∨ fget s pg Fl.state = 4 ∨ fget s pg Fl.state = 7 then 3 else fget s pg Fl.state)

/-- The column of R48 for a transition that completes. -/
def Obligations.PageTransitionsEnd : Prop :=
  ∀ (pg : PageKey) (good : Bool) (s : State), ownTurn pg = true → pg.kind ≠ .hubDdr → pg.kind ≠ .cal → s.softPend.contains pg = false →
    (pagePowered s pg = true → fget s pg Fl.state = 1 →
      ∃ t, exec (.pageTurnOnDone pg good) s = .next t ∧ fget t pg Fl.state = (if fget s pg Fl.ctrlEn = 1 then 2 else 3)) ∧
    (fget s pg Fl.state = 3 ∨ fget s pg Fl.state = 4 → offReady s pg = true →
      ∃ t, exec (.pageTurnOffDone pg) s = .next t ∧ fget t pg Fl.state = (if fget s pg Fl.state = 3 then 0 else 1))

/-- What R51 does in order, of which the end is stated here, and its wait for a transition. The bits a reset leaves are the model's choice (log 68). -/
def Obligations.SoftResetOfAPage : Prop :=
  ∀ (who : Requester) (pg : PageKey) (s : State), Accepted s who pg 0x008 0 → fget s pgPwr Fl.pwrIdleState ≠ 1 →
    (inTransition s pg = false → ∃ t, exec (.softRst who pg) s = .next t ∧ fget t pg Fl.ctrlEn = 0 ∧ rd t pg 0x010 = 0 ∧
      (fixedOn pg = false → followsTile pg = false → pageState t pg = 0) ∧ (∀ x ∈ t.staged, x.pg ≠ pg) ∧
      (∀ g, groupOf s pg = some g → (∀ h ∈ t.groups, ¬ (h.part = g.part ∧ h.gid = g.gid)) ∧
        ∀ m ∈ g.members, m ≠ pg → fget t m Fl.txnGstate = 3) ∧
      (∀ n : Port, pg ∈ camPages n → ∀ x ∈ t.shadow, x.pg ∉ camPages n) ∧
      (pg.kind ∈ [.isp, .tap, .spad, .hubDdr, .pwr, .snt, .clk, .cal, .warp, .codec, .token] → fget s pg Fl.lockCfg = 0 →
        ∀ off, 0x100 ≤ off → rd t pg off = (rd s pg off &&& liveMask pg off) ||| (resetVal s pg off &&& ~~~ liveMask pg off)) ∧
      t.mem = s.mem ∧ t.pending = s.pending) ∧
    (inTransition s pg = true → ∃ t, exec (.softRst who pg) s = .next t ∧ t.softPend.contains pg = true ∧ t = { s with softPend := t.softPend })

/-- The header registers that software clears or sets, with their frames (R41, R42, R44). -/
def Obligations.HeaderBitsSoftwareWrites : Prop :=
  ∀ (who : Requester) (pg : PageKey) (s : State), fget s pgPwr Fl.pwrIdleState ≠ 1 →
    (∀ bits arriving : Word, Accepted s who pg 0x018 0 → ∃ t, exec (.irqStatClear who pg bits arriving) s = .next t ∧
      rd t pg 0x010 = (rd s pg 0x010 &&& ~~~ bits) ||| arriving ∧ OnlyRegs (keysOf pg [0x010]) s t) ∧
    (Accepted s who pg 0x01C 0 → ∃ t, exec (.faultClr who pg) s = .next t ∧ fget t pg Fl.faultClass = 0 ∧
      fget t pg Fl.faultDetail = 0 ∧ fget t pg Fl.faultMore = 0 ∧ OnlyRegs (keysOf pg [0x01C]) s t) ∧
    (Accepted s who pg 0x02C 1 → ∃ t, exec (.lockCfgSet who pg) s = .next t ∧ fget t pg Fl.lockCfg = 1 ∧
      fget t pg Fl.lockOwn = fget s pg Fl.lockOwn ∧ OnlyRegs (keysOf pg [0x02C]) s t) ∧
    (Accepted s who pg 0x02C 2 → ∃ t, exec (.lockOwnSet who pg) s = .next t ∧ fget t pg Fl.lockOwn = 1 ∧
      fget t pg Fl.lockCfg = fget s pg Fl.lockCfg ∧ OnlyRegs (keysOf pg [0x02C]) s t)

/-- OWNER is written by R44; a change of PART aborts what R47 names; LOCK.OWN holds it by R46. -/
def Obligations.OwnerWriteNamesTheOwner : Prop :=
  ∀ (who : Requester) (pg : PageKey) (v : Word) (s : State), Accepted s who pg 0x028 0 → fget s pgPwr Fl.pwrIdleState ≠ 1 →
    (fget s pg Fl.lockOwn = 0 → ∃ t, exec (.ownerWrite who pg v) s = .next t ∧ fget t pg Fl.ownerPart = Fl.ownerPart.get v ∧
      fget t pg Fl.ownerShared = Fl.ownerShared.get v ∧
      (isCamPage pg.kind = false → groupOf s pg = none → OnlyRegs (keysOf pg [0x028]) s t) ∧
      (∀ g, groupOf s pg = some g → fget s pg Fl.ownerPart ≠ Fl.ownerPart.get v →
        (∀ h ∈ t.groups, ¬ (h.part = g.part ∧ h.gid = g.gid)) ∧ ∀ m ∈ g.members, fget t m Fl.txnGstate = 3)) ∧
    (fget s pg Fl.lockOwn = 1 → ∃ t, exec (.ownerWrite who pg v) s = .next t ∧ rd t pg 0x028 = rd s pg 0x028 ∧
      (fget s pg Fl.faultClass = 0 → fget t pg Fl.faultClass = 6 ∧ fget t pg Fl.faultDetail = 9))

/-- A refused write stores nothing (R37, R45, R46); where it is recorded, R379 says. -/
def Obligations.RefusedWriteChangesNothing : Prop :=
  (∀ (who : Requester) (pg : PageKey) (d : Nat) (s : State), pageExists pg = true → fget s pgPwr Fl.pwrIdleState ≠ 1 →
      writeRefusal s who pg 0x008 0 = some d →
      exec (.pageEnable who pg) s = .next (refuseReq who 5 d s) ∧ exec (.softRst who pg) s = .next (refuseReq who 5 d s)) ∧
    (∀ (who : Requester) (pg : PageKey) (off : Nat) (v : Word) (s : State), Accepted s who pg off 0 → fget s pgPwr Fl.pwrIdleState ≠ 1 →
      fget s pg Fl.lockCfg = 1 → ∃ t, exec (.txWrite who pg off v) s = .next t ∧ t = recordFault pg 6 9 s ∧ t.staged = s.staged ∧
        ∀ pg' off', off' ≠ 0x010 → off' ≠ 0x01C → rd t pg' off' = rd s pg' off') ∧
    (∀ (who : Requester) (pg : PageKey) (off width : Nat) (v : Word) (s : State), pageExists pg = true → (width ≠ 32 ∨ off % 4 ≠ 0) →
      ∃ t, exec (.registerWrite who pg off width v) s = .next t ∧ t = recordFault pg 6 8 s ∧
        ∀ pg' off', off' ≠ 0x010 → off' ≠ 0x01C → rd t pg' off' = rd s pg' off')

/-- The access types of R9: only RW bits store. Safety.plainReg leaves out the registers whose write does more, which other statements describe. -/
def Obligations.RegisterWriteStoresByAccessType : Prop :=
  ∀ (who : Requester) (pg : PageKey) (v : Word) (s : State), fget s pgPwr Fl.pwrIdleState ≠ 1 →
    (∀ off, Accepted s who pg off v → 0x100 ≤ off → off % 4 = 0 → off < 0x10000 → plainReg s pg off = true → rwMask pg off ≠ 0 →
      txMask pg off = 0 → shMask pg off = 0 → w1cMask pg off = 0 → fget s pg Fl.lockCfg = 0 →
      ∃ u, exec (.registerWrite who pg off 32 v) s = .next u ∧
        rd u pg off = (rd s pg off &&& ~~~ rwMask pg off) ||| (v &&& rwMask pg off) ∧ OnlyRegs (keysOf pg [off]) s u) ∧
    (Accepted s who pg 0x014 v → ∃ u, exec (.registerWrite who pg 0x014 32 v) s = .next u ∧ rd u pg 0x014 = v ∧
      OnlyRegs (keysOf pg [0x014]) s u)

/-- OPEN by R54, ABORT by R63, and the command that finds no group (R53). -/
def Obligations.TxnOpenAndAbort : Prop :=
  ∀ (who : Requester) (pg : PageKey) (v : Word) (s : State), Accepted s who pg 0x020 0 → fget s pgPwr Fl.pwrIdleState ≠ 1 →
    let p := reqPart s who
    let gid : Fin 16 := ⟨bitsOf v.toNat 4 4, Nat.mod_lt _ (by decide)⟩
    let ev := bitsOf v.toNat 8 3
    let arg := bitsOf v.toNat 12 4
    (groupOf s pg = none → eventOk s p ev arg = true →
      (groupAt s p gid = none → ∃ t, exec (.txnOpen who pg v) s = .next t ∧
        t.groups = s.groups ++ [⟨p, gid, ev, arg, v.toNat.testBit 16, [pg]⟩] ∧
        fget t pg Fl.txnGstate = 1 ∧ fget t pg Fl.txnStaged = 0 ∧ fget t pg Fl.txnGid = gid.val ∧ t.staged = s.staged) ∧
      (∀ g, groupAt s p gid = some g → g.event = ev → g.arg = arg → g.reopen = v.toNat.testBit 16 →
        ∃ t, exec (.txnOpen who pg v) s = .next t ∧
          t.groups = s.groups.map (fun h => if h.part = p ∧ h.gid = gid then { h with members := h.members ++ [pg] } else h) ∧
          fget t pg Fl.txnGstate = 1 ∧ fget t pg Fl.txnStaged = 0 ∧ fget t pg Fl.txnGid = gid.val ∧ t.staged = s.staged)) ∧
    (∀ g : Group, groupOf s pg = some g →
      ∃ t, exec (.txnAbort who pg) s = .next t ∧ (∀ x ∈ t.staged, x.pg ∉ g.members) ∧
        (∀ h ∈ t.groups, ¬ (h.part = g.part ∧ h.gid = g.gid)) ∧
        ∀ m ∈ g.members, fget t m Fl.txnGstate = 3 ∧ fget t m Fl.txnStaged = 0 ∧ rd t m 0x010 = rd s m 0x010 ||| oneBit 3) ∧
    (groupOf s pg = none → exec (.txnCommit who pg) s = .next (recordFault pg 6 0x0C s) ∧
      exec (.txnAbort who pg) s = .next (recordFault pg 6 0x0C s))

/-- Staging by R55 and R65 within the limits of R56: no register a read returns has changed (R57). -/
def Obligations.StagedValuesWaitForTheCommit : Prop :=
  (∀ (who : Requester) (pg : PageKey) (off : Nat) (v : Word) (s : State), Accepted s who pg off 0 → fget s pgPwr Fl.pwrIdleState ≠ 1 →
      fget s pg Fl.lockCfg = 0 → ¬ (pg.kind = .seq ∧ 0x20000 ≤ off) →
      (∀ g, groupOf s pg = some g → (stagedOf s pg).length < 64 → (s.staged.filter (fun x => g.members.contains x.pg)).length < 256 →
        ∃ t, exec (.txWrite who pg off v) s = .next t ∧ t.staged = stageIn s.staged ⟨pg, off, v, txMask pg off⟩ ∧ t.groups = s.groups ∧
          fget t pg Fl.txnStaged = (stagedOf t pg).length ∧ t = { s with regs := t.regs, staged := t.staged } ∧
          ∀ pg' off', canonKey pg' off' ≠ canonKey pg Fl.txnStaged.off → rd t pg' off' = rd s pg' off') ∧
      (groupOf s pg = none → pg.kind ∈ storeKinds → ∃ t, exec (.txWrite who pg off v) s = .next t ∧
        Stores s t pg off v (txMask pg off) ∧ OnlyRegs (keysOf pg [off]) s t)) ∧
    (∀ (who : Requester) (n : Port) (pg : PageKey) (off : Nat) (v : Word) (s : State), Accepted s who pg off 0 → pg ∈ camPages n →
      (s.shadow.filter (fun x => decide (x.pg = pg))).length < 64 → (s.shadow.filter (fun x => (camPages n).contains x.pg)).length < 256 →
      exec (.shWrite who pg off v) s = .next { s with shadow := stageIn s.shadow ⟨pg, off, v, shMask pg off⟩ })

/-- What a commit does on a member page (R58, R59), on the die of the event and on a die its message reaches. -/
def Obligations.CommitAppliesTheStagedValues : Prop :=
  (∀ (who : Requester) (pg : PageKey) (g : Group) (s : State), Accepted s who pg 0x020 0 → fget s pgPwr Fl.pwrIdleState ≠ 1 →
      groupOf s pg = some g → g.event = 0 →
      let lost := g.members.any (fun m => !reachable s (dieOfPage pg) (dieOfPage m))
      ∃ t, exec (.txnCommit who pg) s = .next t ∧ (∀ x ∈ t.staged, x.pg ∉ g.members) ∧
        ((lost = true ∨ g.reopen = false) → ∀ h ∈ t.groups, ¬ (h.part = g.part ∧ h.gid = g.gid)) ∧
        ((∀ m ∈ g.members, m.kind ≠ .part) → g.members.Nodup →
          fget t pg Fl.txnGstate = (if lost then 4 else if g.reopen then 1 else 2) ∧ fget t pg Fl.txnStaged = 0 ∧
          fget t pg Fl.txnRound = (fget s pg Fl.txnRound + 1) % 2 ^ Fl.txnRound.width ∧
          ((∀ m ∈ g.members, dieOfPage m = dieOfPage pg) → ∀ m ∈ g.members, (rd t m 0x010).getLsbD 2 = true)) ∧
        (∀ (off : Nat) (v mask : Word), 0x100 ≤ off → pg.kind ∈ storeKinds → fget s pg Fl.lockCfg = 0 → ⟨pg, off, v, mask⟩ ∈ s.staged →
          (∀ y ∈ s.staged, y.pg = pg → y.off = off → y = ⟨pg, off, v, mask⟩) → s.staged.Nodup → Stores s t pg off v mask)) ∧
    (∀ (d : Die) (r : CommitRun) (pages : List PageKey) (vals : List Staged) (more : List (Die × List PageKey × List Staged))
      (rest : List CommitRun) (s : State), s.commits = r :: rest → r.waiting = (d, pages, vals) :: more → pages ≠ [] → pages.Nodup →
      (∀ w ∈ more, w.1 ≠ d ∧ w.2.1 ≠ []) → r.shadow = false → (∀ m ∈ pages, m.kind ≠ .part) →
      (∀ m ∈ pages, ¬ (r.jobEnd = true ∧ m.kind = .scale ∧ (tile s (tileOf m.inst)).frameStep = true)) →
      ∃ t, exec (.commitApplyRemote d) s = .next t ∧ t.commits = rest ++ (if more = [] then [] else [{ r with waiting := more }]) ∧
        (∀ m ∈ pages, fget t m Fl.txnGstate = (if r.isPartial then 4 else if r.reopen then 1 else 2)) ∧
        (more = [] → r.isPartial = false → ∀ m ∈ r.members, (rd t m 0x010).getLsbD 2 = true) ∧
        (∀ (pg : PageKey) (off : Nat) (v mask : Word), pg ∈ pages → 0x100 ≤ off → pg.kind ∈ storeKinds → fget s pg Fl.lockCfg = 0 →
          ⟨pg, off, v, mask⟩ ∈ vals → (∀ y ∈ vals, y.pg = pg → y.off = off → y = ⟨pg, off, v, mask⟩) → Stores s t pg off v mask))

/-- The write-only clear bits of the register tables; R372 gives that of SDIO. The records, counts and rings that a clear bit or a free history slot empties. -/
def Obligations.ClearBitsZeroTheirRegisters : Prop :=
  (∀ (who : Requester) (t : TileId) (e : StrmId) (h : HubId) (d : Sub) (n : Port) (p : PartId) (s : State),
    ∀ c ∈ clears who t e h d n p, Accepted s who c.pg c.off 0 →
      ∃ u, exec c.cmd s = .next u ∧ (∀ o ∈ c.zero, rd u c.pg o = 0) ∧ OnlyRegs (keysOf c.pg c.zero) s u) ∧
  (∀ (who : Requester) (t : TileId) (s : State),
    (Accepted s who (pgStats t) 0x118 0 → ∃ u, exec (.statsClrSel who t) s = .next u ∧
      statRec (tile u t) (fget s (pgStats t) Fl.statsSelEntry) =
        { statRec (tile s t) (fget s (pgStats t) Fl.statsSelEntry) with amax := 0, satcnt := 0 } ∧
      (∀ n, n ≠ fget s (pgStats t) Fl.statsSelEntry → statRec (tile u t) n = statRec (tile s t) n) ∧ u.regs = s.regs ∧ u.mem = s.mem) ∧
    (Accepted s who (pgStats t) 0x118 0 → ∃ u, exec (.statsClrAll who t) s = .next u ∧
      (∀ n, statRec (tile u t) n = { statRec (tile s t) n with amax := 0, satcnt := 0 }) ∧ u.regs = s.regs ∧ u.mem = s.mem) ∧
    (∀ h : HubId, Accepted s who (pgLlc h) 0x134 0 → ∃ u, exec (.hubLlcClrStat who h) s = .next u ∧
      hubSt u h = { hubSt s h with hits := [], misses := [] } ∧ u = { s with hubs := u.hubs }) ∧
    (Accepted s who pgCal 0x1C4 0 → ∃ u, exec (.calClrSt who) s = .next u ∧ fget u pgCal Fl.calStStatTgMissed = 0 ∧
      fget u pgCal Fl.calStStatCalMissed = 0 ∧ fget u pgCal Fl.calStStatFailed = 0 ∧
      fget u pgCal Fl.calStStatLastTg = fget s pgCal Fl.calStStatLastTg ∧ rd u pgCal 0x1A4 = 0 ∧ OnlyRegs (keysOf pgCal [0x1A0, 0x1A4]) s u) ∧
    (Accepted s who (pgTile t) 0x450 0 → ∃ u, exec (.finfoClr who t) s = .next u ∧ fget u (pgTile t) Fl.tileFinfoValid = 0 ∧
      OnlyRegs (keysOf (pgTile t) [0x450]) s u) ∧
    (Accepted s who (pgSeq t) 0x110 0 → ∃ u, exec (.seqFaultClr who t) s = .next u ∧ fget u (pgSeq t) Fl.seqFaultCause = 0 ∧
      fget u (pgSeq t) Fl.seqFaultPc = 0 ∧ OnlyRegs (keysOf (pgSeq t) [0x110]) s u) ∧
    (Accepted s who pgFum 0x100 0 → ∃ u, exec (.clrRing who) s = .next u ∧ u.snt = { s.snt with ring := [], next := 0, wrapped := false } ∧
      u = { s with snt := u.snt }) ∧
    (Accepted s who pgXcore 0x110 0 → ∃ u, exec (.xcoreCntClr who) s = .next u ∧ rd u pgXcore 0x10C = 0 ∧
      OnlyRegs (keysOf pgXcore [0x10C]) s u) ∧
    (∀ (k : Fin 16) (v : Word), Accepted s who (pgStats t) (Fl.statsWhCfgBase k.val).off 0 → fget s (pgStats t) Fl.lockCfg = 0 →
      v.getLsbD 31 = false → ∃ u, exec (.statsWhCfgWrite who t k v) s = .next u ∧
        rd u (pgStats t) (0x200 + 0x10 * k.val) = (rd s (pgStats t) (0x200 + 0x10 * k.val) &&& ~~~ 0x800003FF) ||| (v &&& 0x800003FF) ∧
        fget u (pgStats t) (Fl.statsWhLoHist k.val) = 0 ∧ fget u (pgStats t) (Fl.statsWhHiHist k.val) = 0 ∧
        fget u (pgStats t) (Fl.statsWhCntOnes k.val) = 0 ∧
        OnlyRegs (keysOf (pgStats t) [0x200 + 0x10 * k.val, 0x204 + 0x10 * k.val, 0x208 + 0x10 * k.val, 0x20C + 0x10 * k.val]) s u))

/-- LOADW by R74, R75, R78 and R114; a plane that a later LOADW overwrites is not valid (R77). -/
def Obligations.LoadwFillsTheShadowPlane : Prop :=
  ∀ (t : TileId) (s : State),
    (∀ (e : QEntry) (d : List Word) (fmt : Nat), (tile s t).loads.length < 2 → AtHead s t .lane 0x01 e [some d] →
      loadwBad s t [some d] d (cf e 3 0 16 * 16) = none → planeFmt (dType d) = some fmt →
      slotCheck s t [(d, decide (cf e 0 15 1 = 1))] [] = none →
      spadScan s t .lane false (decide (dLoc d = 3)) (srcStart s d + cf e 3 0 16 * 16) (planeBytes fmt) = none →
      ∃ u, exec (.loadw t) s = .next u ∧
        (tile u t).loads = (tile s t).loads ++ [⟨e.num, 1 - (tile s t).active, fmt,
          readPlane s.mem (spadBase t + (srcStart s d + cf e 3 0 16 * 16)) (dType d) fmt (decide (cf e 0 10 1 = 1)) (dZp d)⟩] ∧
        (planeOf (tile u t) (1 - (tile s t).active)).valid = false ∧ (tile u t).active = (tile s t).active ∧
        InPhase u t .lane e.num .running ∧ u.mem = s.mem ∧ (dLoc d = 2 → RegsBut s u (conflictKeys t))) ∧
    (∀ (l : LoadRun) (r : List LoadRun), (tile s t).loads = l :: r → beingKilled (tile s t) .lane = false →
      ∃ u, exec (.planeValid t) s = .next u ∧ (tile u t).loads = r ∧
        planeOf (tile u t) l.plane = ⟨!r.any (fun k => k.plane = l.plane), l.fmt, true, l.cols⟩ ∧
        InPhase u t .lane l.num .complete ∧ u.mem = s.mem ∧ u.regs = s.regs)

/-- A STREAM from dispatch to completion: R71 to R74, R79, R81, R82. Which rows have entered P1 at a row event, and what LANE_ROWS counts, are the model's (logs 96 and 100). -/
def Obligations.StreamRunsItsRows : Prop :=
  ∀ (t : TileId) (s : State),
    (∀ (e : QEntry) (d : List Word) (o : Option (List Word)) (mode : Nat), (tile s t).laneRuns.all pathFree = true →
      AtHead s t .lane 0x02 e [some d, o] →
      let swap := decide (cf e 0 10 1 = 1)
      let bind := if swap then 1 - (tile s t).active else (tile s t).active
      let outs := if cf e 0 11 1 = 1 then o.toList else []
      let r := mkLaneRun s t e d o mode (srcType s d) bind
      (swap = true → (tile s t).loads = []) →
      laneMode (planeOf (tile s t) bind).fmt (srcType s d) (decide (cf e 0 14 1 = 1)) = some mode →
      streamBad s t e d o (some mode) r = none → slotCheck s t [(d, decide (cf e 0 15 1 = 1))] outs = none →
      (ilActive s t = false ∨ vecReadsAhead s t e = false) →
      ∃ u, exec (.stream t) s = .next u ∧ (tile u t).laneRuns = (tile s t).laneRuns ++ [{ r with entered := enteredBefore r 0 }] ∧
        (tile u t).active = bind ∧ InPhase u t .lane e.num .running ∧ u.mem = s.mem ∧
        (∀ k, k < enteredBefore r 0 → (accRow (tile u t) r.bank ((r.base + k) % 64)).v = false ∧
          (accRow (tile u t) r.bank ((r.base + k) % 64)).tag = some e.num) ∧
        (dLoc d = 2 → (∀ x ∈ outs, dLoc x = 2) → u.regs = s.regs)) ∧
    (∀ (r : LaneRun) (j : Fin 32) (err : BitVec 40), beingKilled (tile s t) .lane = false →
      (tile s t).laneRuns.find? (fun r => decide (r.next < r.rows)) = some r → r.next < r.entered → r.entered ≤ r.next + 8 →
      laneRowGuard s t r r.next = none →
      (r.drain = true → spadScan s t .lane true r.outSlot.isSome (r.outAddr + r.next * r.outRow) r.outRow = none) →
      let row := (r.base + r.next) % 64
      let a := accStep r (accRow (tile s t) r.bank row) (rowSums s.mem t r (planeOf (tile s t) r.plane) r.next) r.next j.val err
      ∃ u, exec (.streamRowReadable t j err) s = .next u ∧
        { accRow (tile u t) r.bank row with v := true } = a ∧ ((tile s t).laneRuns = [r] → (accRow (tile u t) r.bank row).v = true) ∧
        (∀ q ∈ (tile u t).laneRuns, q.num = r.num → ∃ p ∈ (tile s t).laneRuns, q.next = r.next + 1 ∧ q.rows = p.rows) ∧
        fget64 u (pgLane t) Fl.laneRowsLoRows Fl.laneRowsHiRows =
          (fget64 s (pgLane t) Fl.laneRowsLoRows Fl.laneRowsHiRows + 1) % 2 ^ 48 ∧
        u.mem = if r.drain then writeRow r.outType (spadBase t + r.outAddr + r.next * r.outRow) ((drainConvs r a).map Conv.q) s.mem else s.mem) ∧
    (∀ (r : LaneRun) (l : List LaneRun), (tile s t).laneRuns = r :: l → r.rows ≤ r.next → beingKilled (tile s t) .lane = false →
      ∃ u, exec (.streamComplete t) s = .next u ∧ (tile u t).laneRuns = l ∧ InPhase u t .lane r.num .complete ∧ u.mem = s.mem ∧
        u.regs = s.regs)

/-- VEC by R96 and R172, its residue flags by R103, held table writes by R102. -/
def Obligations.VecRunsItsRows : Prop :=
  ∀ (t : TileId) (s : State),
    (∀ (e : QEntry) (a b : Option (List Word)) (o : List Word), (tile s t).vecRun = none → AtHead s t .vec 0x10 e [a, b, some o] →
      let r := mkVecRun s t e a b o
      vecBad s t a b o r = none → slotCheck s t (vecReads e a b) [o] = none →
      (ilActive s t = false ∨ r.fromAcc = false ∨ (vecRowsLeft s t e).any (fun p => guardHit (tile s t) e.num p.1 p.2) = false) →
      ∃ u, exec (.vec t) s = .next u ∧ (tile u t).vecRun = some r ∧ r.op = cf e 0 24 8 ∧ r.rows = cf e 2 16 16 + 1 ∧ r.row0 = cf e 3 0 16 ∧
        InPhase u t .vec e.num .running ∧ u.mem = s.mem ∧
        ((∀ d ∈ a.toList ++ b.toList ++ [o], dLoc d = 2) → u.regs = s.regs)) ∧
    (∀ r : VecRun, (tile s t).vecRun = some r → beingKilled (tile s t) .vec = false →
      (r.fromAcc = true → guardHit (tile s t) r.num r.bank ((r.base + r.next) % 64) = false) → vecRowGuard s t r = none →
      r.oSlot.isSome = decide (dLoc r.oDesc = 3) →
      let acc := accRow (tile s t) r.bank ((r.base + r.next) % 64)
      let n := r.row0 + r.next
      let as' := if r.fromAcc then accElems acc else (vecElemsAt s.mem t r.aDesc r.aType r.aAddr n, [])
      let bs := if funcTakesB r.op then vecElemsAt s.mem t r.bDesc r.bType r.bAddr n else []
      let out := vecRow s t r (rowCfgs r.oDesc r.outs n) (if r.fromAcc then acc.sat else []) as'.1 bs (tile s t).held
      ∀ flags : List (Fin 32 × Bool), ∃ u, exec (.vecRowRead t flags) s = .next u ∧
        u.mem = writeRowAt r.oDesc r.oType (spadBase t + r.oAddr) n (out.1.map Conv.q) s.mem ∧
        (tile u t).held = out.2 ∧ (tile u t).vecRun = (if r.next + 1 < r.rows then some { r with next := r.next + 1 } else none) ∧
        (flags = [] → RegsBut s u (conflictKeys t ++ keysOf (pgVec t) [0x010, 0x138])) ∧
        fget u (pgVec t) Fl.vecResCntFlags = min (fget s (pgVec t) Fl.vecResCntFlags + flags.length) 0xFFFF ∧
        (∀ l par, flags.getLast? = some (l, par) → fget u (pgVec t) Fl.vecResLastLane = l.val ∧
          fget u (pgVec t) Fl.vecResLastParity = (if par then 1 else 0))) ∧
    (∀ (e : QEntry) (flags : List (Fin 32 × Bool)), beingKilled (tile s t) .vec = false → (tile s t).vecRun.any (fun r => r.num = e.num) = false →
      (tile s t).vec.find? (fun e => e.phase = .running && opcodeOf e != 0x32) = some e →
      ∃ u, exec (.vecCmdComplete ⟨t, flags⟩) s = .next u ∧ InPhase u t .vec e.num .complete ∧ u.mem = s.mem ∧ (flags = [] → u.regs = s.regs) ∧
        fget u (pgVec t) Fl.vecResCntFlags = min (fget s (pgVec t) Fl.vecResCntFlags + flags.length) 0xFFFF) ∧
    (∀ (off : Nat) (w : Word) (req : Option Nat) (r : List (Nat × Word × Option Nat)), (tile s t).lutHeld = (off, w, req) :: r →
      tableBusy (tile s t) ((tableOf off).getD 0) = false →
      ∃ u, exec (.lutWriteApply t) s = .next u ∧ (tile u t).lutHeld = r ∧ u.mem = s.mem ∧ rd u (pgVec t) off = w ∧
        RegsBut s u (keysOf (pgVec t) [off]) ∧ ∀ x ∈ u.outstanding, req = some x.id → x.place = .answered)

/-- The vector commands that compute all their rows at once (R96 to R98, R174) and STATS (R130, R175). -/
def Obligations.VectorCommandsWriteTheirRows : Prop :=
  ∀ (t : TileId) (s : State) (e : QEntry), (tile s t).vecRun = none →
    (∀ a o : List Word, AtHead s t .vec 0x11 e [some a, some o] → poolBad s t e a o = none →
      slotCheck s t [(a, decide (cf e 0 10 1 = 1))] [o] = none →
      linesGuard t false (decide (dLoc a = 3)) (nibLines (srcStart s a) (poolNibs s a o e)) s = none →
      RowsWritable s t o (outTypeOf e o) (dstStart s o) (cf e 3 16 16) (cf e 2 0 16 + 1) →
      ∃ u, exec (.pool t) s = .next u ∧ InPhase u t .vec e.num .running ∧
        u.mem = rowsStored o (outTypeOf e o) (spadBase t + dstStart s o) (cf e 3 16 16) (poolRows s t e a o) s.mem) ∧
    (∀ a o : List Word, AtHead s t .vec 0x12 e [some a, some o, none] → vectorBad s t e a o none = none →
      slotCheck s t (vectorReads e a none) [o] = none →
      (∀ p ∈ vectorLines s e a none, linesGuard t false p.1 p.2 s = none) →
      RowsWritable s t o (outTypeOf e o) (dstStart s o) (cf e 3 0 16) (vectorRowCount e) →
      ∃ u, exec (.softmax t) s = .next u ∧ InPhase u t .vec e.num .running ∧
        u.mem = rowsStored o (outTypeOf e o) (spadBase t + dstStart s o) (cf e 3 0 16) (vectorRows s t e o (softmaxOf (vectorIn s t e a))) s.mem) ∧
    (∀ a o g : List Word, AtHead s t .vec 0x13 e [some a, some o, some g] → vectorBad s t e a o (some g) = none →
      slotCheck s t (vectorReads e a (some g)) [o] = none →
      (∀ p ∈ vectorLines s e a (some g), linesGuard t false p.1 p.2 s = none) →
      RowsWritable s t o (outTypeOf e o) (dstStart s o) (cf e 3 0 16) (vectorRowCount e) →
      ∃ u, exec (.norm t) s = .next u ∧ InPhase u t .vec e.num .running ∧
        u.mem = rowsStored o (outTypeOf e o) (spadBase t + dstStart s o) (cf e 3 0 16)
          (vectorRows s t e o (normOf (vectorIn s t e a) (cf e 0 16 5) (normParams s t e a g 0) (normParams s t e a g 1))) s.mem) ∧
    (∀ o : List Word, AtHead s t .vec 0x33 e [some o] → statsBad s t e o = none → slotCheck s t [] [o] = none →
      spadScan s t .vec true (decide (dLoc o = 3)) (dstStart s o) (8 * cf e 2 10 11) = none →
      ∃ u, exec (.stats t) s = .next u ∧ InPhase u t .vec e.num .running ∧ (dLoc o = 2 → RegsBut s u (conflictKeys t)) ∧
        u.mem = memWrite s.mem (spadBase t + dstStart s o)
          ((List.range (cf e 2 10 11)).flatMap (fun i => (statWords (statRec (tile s t) (cf e 2 0 10 + i))).flatMap wordBytes)))

/-- The instructions of R196 that count, loop and jump, with the loop stack of R198. -/
def Obligations.SequencerCountsAndLoops : Prop :=
  ∀ (t : TileId) (s : State) (pc : Nat) (w : Word),
    (Issues s t 0 pc w → pc + 1 < 4096 → ∃ u, exec (.delay t) s = .next u ∧ Issued s u t pc (pc + 1) ∧
      OnlyRegs (keysOf (pgSeq t) [0x104, 0x108, 0x160]) { s with tiles := u.tiles } u) ∧
    (Issues s t 1 pc w → pc + 1 < 4096 → sf w 24 4 < 8 → ∃ u, exec (.set t) s = .next u ∧ Issued s u t pc (pc + 1) ∧ cntOf u t (sf w 24 4) = sf w 0 24 ∧
      ∀ c, c < 8 → c ≠ sf w 24 4 → cntOf u t c = cntOf s t c) ∧
    (Issues s t 1 pc w → pc + 1 < 4096 → 8 ≤ sf w 24 4 → sf w 24 4 < 12 → ∃ u, exec (.set t) s = .next u ∧ Issued s u t pc (pc + 1) ∧
      fget u (pgSeq t) (Fl.seqCmpRef (sf w 24 4 - 8)) = sf w 0 24 ∧ ∀ c, c < 8 → cntOf u t c = cntOf s t c) ∧
    (Issues s t 2 pc w → pc + 1 < 4096 → ∃ u, exec (.addi t) s = .next u ∧ Issued s u t pc (pc + 1) ∧
      cntOf u t (sf w 24 3) = (cntOf s t (sf w 24 3) + sf w 0 24) % 2 ^ 24 ∧ ∀ c, c < 8 → c ≠ sf w 24 3 → cntOf u t c = cntOf s t c) ∧
    (Issues s t 3 pc w → (tile s t).loops.length < 4 →
      (sf w 0 12 ≠ 0 → pc + 1 < 4096 → ∃ u, exec (.loop t) s = .next u ∧ Issued s u t pc (pc + 1) ∧ cntOf u t (sf w 25 3) = 0 ∧
        (tile u t).loops = ⟨pc, sf w 12 12, sf w 0 12, sf w 25 3⟩ :: (tile s t).loops ∧
        fget u (pgSeq t) Fl.seqStatusLoopDepth = (tile s t).loops.length + 1) ∧
      (sf w 0 12 = 0 → sf w 12 12 + 1 < 4096 → ∃ u, exec (.loop t) s = .next u ∧ Issued s u t pc (sf w 12 12 + 1) ∧
        cntOf u t (sf w 25 3) = 0 ∧ (tile u t).loops = (tile s t).loops)) ∧
    (∀ (l : LoopEnt) (r : List LoopEnt), Issues s t 4 pc w → (tile s t).loops = l :: r → l.last = pc → l.c < 8 → r.length < 4 →
      ((cntOf s t l.c + 1) % 2 ^ 24 < l.n → l.pc + 1 < 4096 → ∃ u, exec (.endl t) s = .next u ∧ Issued s u t pc (l.pc + 1) ∧
        cntOf u t l.c = (cntOf s t l.c + 1) % 2 ^ 24 ∧ (tile u t).loops = l :: r) ∧
      (l.n ≤ (cntOf s t l.c + 1) % 2 ^ 24 → pc + 1 < 4096 → ∃ u, exec (.endl t) s = .next u ∧ Issued s u t pc (pc + 1) ∧
        cntOf u t l.c = (cntOf s t l.c + 1) % 2 ^ 24 ∧ (tile u t).loops = r ∧ fget u (pgSeq t) Fl.seqStatusLoopDepth = r.length)) ∧
    (Issues s t 5 pc w →
      (relHolds (sf w 21 2) (cntOf s t (sf w 25 3)) (fget s (pgSeq t) (Fl.seqCmpRef (sf w 23 2))) = true →
        ∃ u, exec (.cmpj t) s = .next u ∧ Issued s u t pc (sf w 0 12) ∧ (tile u t).loops = loopsAt (sf w 0 12) (tile s t).loops) ∧
      (relHolds (sf w 21 2) (cntOf s t (sf w 25 3)) (fget s (pgSeq t) (Fl.seqCmpRef (sf w 23 2))) = false → pc + 1 < 4096 →
        ∃ u, exec (.cmpj t) s = .next u ∧ Issued s u t pc (pc + 1) ∧ (tile u t).loops = (tile s t).loops))

/-- What the sequencer pushes (R201 to R204), where it waits (R205, R206) and how it ends (R207). -/
def Obligations.SequencerPushesAndWaits : Prop :=
  ∀ (t : TileId) (s : State) (pc : Nat) (w : Word),
    (Issues s t 6 pc w → pc + 1 < 4096 → sf w 22 6 < fget s (pgSeq t) Fl.seqTplCntCount → (fillTemplate s t (sf w 22 6)).2 = true →
      let ws := (fillTemplate s t (sf w 22 6)).1
      let q := engOf (bitsOf (ws.getD 0 0).toNat 8 2)
      canPush s t [q] = true →
      ∃ u, exec (.emit t) s = .next u ∧ Issued s u t pc (pc + 1) ∧ Pushed s u t q ((List.range 4).map (fun i => ws.getD i 0))) ∧
    (Issues s t 8 pc w → pc + 1 < 4096 → canPush s t [engOf (sf w 20 2)] = true → ∃ u, exec (.seqSignal t) s = .next u ∧ Issued s u t pc (pc + 1) ∧
      Pushed s u t (engOf (sf w 20 2)) [BitVec.ofNat 32 (0x30 + 256 * sf w 20 2 + 0x10000 * sf w 22 6), BitVec.ofNat 32 (sf w 0 16), 0, 0]) ∧
    (Issues s t 9 pc w → pc + 1 < 4096 → canPush s t [engOf (sf w 20 2)] = true → ∃ u, exec (.seqMark t) s = .next u ∧ Issued s u t pc (pc + 1) ∧
      Pushed s u t (engOf (sf w 20 2)) [BitVec.ofNat 32 (0x34 + 256 * sf w 20 2 + 0x10000 * sf w 0 8), 0, 0, 0]) ∧
    (Issues s t 0xA pc w → pc + 1 < 4096 → canPush s t (allEngines.filter (fun q => (sf w 24 4).testBit (engNo q))) = true →
      ∃ u, exec (.fence t) s = .next u ∧ Issued s u t pc (pc + 1) ∧ (tile u t).imemStaged = [] ∧
        (∀ q, (sf w 24 4).testBit (engNo q) = true → ∃ e : QEntry, queue u t q = queue s t q ++ [e] ∧ opcodeOf e = 0x32 ∧ e.phase = .queued) ∧
        (∀ q, (sf w 24 4).testBit (engNo q) = false → queue u t q = queue s t q) ∧
        (sf w 23 1 = 0 → (tile u t).fenceWait = []) ∧
        ((tile s t).imemStaged ≠ [] → fget u (pgSeq t) Fl.seqImemStatGstate = 2) ∧
        (∀ k, (∀ p ∈ (tile s t).imemStaged, p.1 ≠ k) → imemWord u t k = imemWord s t k) ∧
        (∀ p ∈ (tile s t).imemStaged, (∀ p' ∈ (tile s t).imemStaged, p'.1 = p.1 → p' = p) → imemWord u t p.1 = p.2)) ∧
    (Issues s t 7 pc w → (∀ j, (tile s t).job = some j → j.barMask.testBit (sf w 22 6) = true) →
      (barMet s (tilePart s t) (sf w 22 6) (sf w 0 16) = true → pc + 1 < 4096 → ∃ u, exec (.waitb t) s = .next u ∧ Issued s u t pc (pc + 1)) ∧
      (barMet s (tilePart s t) (sf w 22 6) (sf w 0 16) = false → ∃ u, exec (.waitb t) s = .next u ∧ (tile u t).nextPc = pc ∧
        fget u (pgSeq t) Fl.seqStatusStall = 2 ∧
        fget u (pgSeq t) Fl.seqStallCycCycles = min (fget s (pgSeq t) Fl.seqStallCycCycles + 1) (2 ^ 32 - 1) ∧ u.tiles = s.tiles ∧ u.mem = s.mem)) ∧
    (Issues s t 0xF pc w → ∃ u, exec (.halt t) s = .next u ∧ (tile u t).haltPc = some pc ∧ (tile u t).haltFlush = true ∧
      fget u (pgSeq t) Fl.seqPcPc = pc ∧ fget u (pgSeq t) Fl.seqIssuedCount = (fget s (pgSeq t) Fl.seqIssuedCount + 1) % 2 ^ 32 ∧
      seqRuns u t = false ∧ u.mem = s.mem) ∧
    ((tile s t).haltPc.isSome = true → (∀ q, queue s t q = []) → (tile s t).kill = none → fget s (pgSeq t) Fl.seqStatusState = 1 →
      ∃ u, exec (.seqDone t) s = .next u ∧ fget u (pgSeq t) Fl.seqStatusState = 2 ∧ (tile u t).haltPc = none ∧
        rd u (pgSeq t) 0x010 = rd s (pgSeq t) 0x010 ||| oneBit 8 ∧ OnlyRegs (keysOf (pgSeq t) [0x010, 0x104]) { s with tiles := u.tiles } u)

/-- Start (R194), fault (R199), instruction group (R213, R215) and interlock limit (R211, R212) of the sequencer. -/
def Obligations.SequencerStartsAndFaults : Prop :=
  ∀ (t : TileId) (s : State),
    (∀ (who : Requester) (v : Word), Accepted s who (pgSeq t) 0x10C 0 → Fl.seqStartGo.get v = 1 → pageOn s (pgSeq t) = true →
      fget s (pgSeq t) Fl.seqStatusState ≠ 1 →
      ∃ u, exec (.seqStart who t v) s = .next u ∧ fget u (pgSeq t) Fl.seqStatusState = 1 ∧ (tile u t).nextPc = Fl.seqStartPc.get v ∧
        (tile u t).loops = [] ∧ (∀ c, c < 8 → cntOf u t c = 0) ∧ fget u (pgSeq t) Fl.seqIssuedCount = 0 ∧
        fget u (pgSeq t) Fl.seqEmittedCount = 0 ∧ fget u (pgSeq t) Fl.seqStatusViol = 0 ∧ (tile u t).haltPc = none ∧ u.mem = s.mem) ∧
    (∀ (op pc : Nat) (w : Word), within 0xB 0xE op = true → Issues s t op pc w →
      ∃ u, exec (.undefinedOp t) s = .next u ∧ fget u (pgSeq t) Fl.seqStatusState = 3 ∧ fget u (pgSeq t) Fl.seqFaultCause = 2 ∧
        fget u (pgSeq t) Fl.seqFaultPc = pc ∧
        (fget s (pgSeq t) Fl.faultClass = 0 → fget u (pgSeq t) Fl.faultClass = 2 ∧ fget u (pgSeq t) Fl.faultDetail = 0x10) ∧
        bitAt (rd u (pgSeq t) 0x010) 9 = true ∧ tileFaulted (tile u t) = true ∧ u.mem = s.mem) ∧
    (∀ (who : Requester) (i : Fin 4096) (v : Word), Accepted s who (pgSeq t) (0x20000 + 4 * i.val) 0 → fget s (pgSeq t) Fl.lockCfg = 0 →
      fget s (pgSeq t) Fl.seqStatusState = 1 →
      ∃ u, exec (.imemStage who t i v) s = .next u ∧
        (tile u t).imemStaged = (tile s t).imemStaged.filter (fun e => e.1 != i.val) ++ [(i.val, v)] ∧
        fget u (pgSeq t) Fl.seqImemStatGstate = 1 ∧ (∀ k, imemWord u t k = imemWord s t k) ∧
        OnlyRegs (keysOf (pgSeq t) [0x154]) { s with tiles := u.tiles } u) ∧
    (∀ cycles : Nat, (tile s t).imemStaged ≠ [] → fget s (pgSeq t) Fl.seqTxnTimeoutCycles < cycles →
      ∃ u, exec (.imemTxnTimeout t cycles) s = .next u ∧ (tile u t).imemStaged = [] ∧ fget u (pgSeq t) Fl.seqImemStatGstate = 3 ∧
        fget u (pgSeq t) Fl.seqFaultCause = 1 ∧
        (fget s (pgSeq t) Fl.faultClass = 0 → fget u (pgSeq t) Fl.faultClass = 6 ∧ fget u (pgSeq t) Fl.faultDetail = 0x0B) ∧
        (∀ k, imemWord u t k = imemWord s t k)) ∧
    (∀ (q : Engine) (waited : Nat) (e : QEntry), headEntry (queue s t q) = some e → e.waitDet ≠ 0 → mayDispatch s t q = true →
      fget s (pgSeq t) Fl.seqIlockLimitCycles < max waited e.waited →
      ∃ u, exec (.ilockLimit t q waited) s = .next u ∧ fget u (pgSeq t) Fl.seqStatusViol = 1 ∧ beingKilled (tile u t) q = true ∧ u.mem = s.mem ∧
        (ilActive s t = true → fget s (pgSeq t) Fl.seqStatusViol = 0 →
          fget u (pgSeq t) Fl.seqViolCntCount = min (fget s (pgSeq t) Fl.seqViolCntCount + 1) 0xFFFF) ∧
        (fget s (pgSeq t) Fl.seqStatusViol = 1 → tileFaulted (tile u t) = true))

/-- The ordering commands of R178 and R179 with the barriers of R264 to R266. -/
def Obligations.OrderingCommandsAtTheHead : Prop :=
  ∀ (t : TileId) (q : Engine) (e : QEntry) (s : State),
    (AtHead s t q 0x30 e [] → ∃ u, exec (.signal t q) s = .next u ∧ InPhase u t q e.num .complete ∧ u = { s with tiles := u.tiles } ∧
      (queue u t q).length = (queue s t q).length) ∧
    (AtHead s t q 0x34 e [] → ∃ u, exec (.mark t q) s = .next u ∧ InPhase u t q e.num .complete ∧ u = { s with tiles := u.tiles } ∧
      (queue u t q).length = (queue s t q).length) ∧
    (AtHead s t q 0x31 e [] →
      (barMet s (tilePart s t) (cf e 0 16 6) (cf e 1 0 16) = true → ∃ u, exec (.wait t q) s = .next u ∧ InPhase u t q e.num .complete ∧
        u = { s with tiles := u.tiles }) ∧
      (barMet s (tilePart s t) (cf e 0 16 6) (cf e 1 0 16) = false → ∃ u, exec (.wait t q) s = .next u ∧
        fget u (pgSpad t) (Fl.spadStallCycles 7) = min (fget s (pgSpad t) (Fl.spadStallCycles 7) + 1) (2 ^ 32 - 1) ∧
        OnlyRegs (keysOf (pgSpad t) [(Fl.spadStallCycles 7).off]) s u)) ∧
    (AtHead s t q 0x32 e [] → ∃ u, exec (.commit t q) s = .next u ∧ InPhase u t q e.num .running ∧ u = { s with tiles := u.tiles }) ∧
    (∀ (p : PartId) (b : Fin 64), ∃ u, exec (.barrierUpdate p b) s = .next u ∧ barSeen u p b.val = Tab.get 0 s.barriers (p, b.val) ∧
      u = { s with barrierSeen := u.barrierSeen })

/-- Commit points by R179 to R181, with the residue test of R89 and the saturation test of R134. -/
def Obligations.CommitPointsCommitOrKill : Prop :=
  ∀ (t : TileId) (q : Engine) (s : State), beingKilled (tile s t) q = false →
    (∀ l : List QEntry, spanOf (tile s t) q = some l → spanDone l = true → (l.any (fun e => e.mismatch != 0 || e.vecFlags != 0)) = false →
      l.any (failsSat s t) = false → (∀ e ∈ l, ∀ n ∈ e.accRead, ∀ x ∈ (tile s t).lane, x.num ≠ n) →
      evidenceQueued s t + spanRecords s t q l ≤ 64 →
      ∃ u, exec (.commitPoint t q) s = .next u ∧ queue u t q = (queue s t q).filter (fun e => !(l.map QEntry.num).contains e.num) ∧
        fget u (pgTile t) (Fl.tileSpanCommits (engNo q)) = (fget s (pgTile t) (Fl.tileSpanCommits (engNo q)) + 1) % 2 ^ 16 ∧ u.mem = s.mem) ∧
    (∀ (e c : QEntry) (r : List QEntry), queue s t q = e :: c :: r → Plain e → Plain c → e.phase = .complete → opcodeOf e = 0x30 →
      c.phase = .running → opcodeOf c = 0x32 → (∀ x ∈ r, x.num ≠ e.num ∧ x.num ≠ c.num) → s.heldDone = [] → evidenceQueued s t ≤ 64 →
      ∃ u, exec (.commitPoint t q) s = .next u ∧ queue u t q = r ∧
        Tab.get 0 u.barriers (tilePart s t, cf e 0 16 6) = (Tab.get 0 s.barriers (tilePart s t, cf e 0 16 6) + cf e 1 0 16) % 2 ^ 16 ∧
        (∀ p b, (p, b) ≠ (tilePart s t, cf e 0 16 6) → Tab.get 0 u.barriers (p, b) = Tab.get 0 s.barriers (p, b)) ∧
        OnlyRegs (keysOf (pgTile t) [(Fl.tileSpanCommits (engNo q)).off]) s
          { u with tiles := s.tiles, barriers := s.barriers, barrierSeen := s.barrierSeen }) ∧
    (∀ l : List QEntry, spanOf (tile s t) q = some l → spanDone l = true → (l.any (fun e => e.mismatch != 0 || e.vecFlags != 0)) = true →
      ∃ u, exec (.commitPoint t q) s = .next u ∧ fget u (pgTile t) Fl.tileRunHalted = 1 ∧ (∀ q', beingKilled (tile u t) q' = true) ∧
        u.barriers = s.barriers ∧ u.mem = s.mem ∧ ∀ q', queue u t q' = queue s t q') ∧
    (∀ l : List QEntry, spanOf (tile s t) q = some l → spanDone l = true → (l.any (fun e => e.mismatch != 0 || e.vecFlags != 0)) = false →
      l.any (failsSat s t) = true →
      ∃ u, exec (.commitPoint t q) s = .next u ∧ fget u (pgSeq t) Fl.seqStatusWideIl = 1 ∧ beingKilled (tile u t) q = true ∧
        u.barriers = s.barriers ∧ u.mem = s.mem ∧ ∀ f ∈ l, failsSat s t f = true → ∃ x ∈ queue u t q, x.num = f.num ∧ x.wide = true)

/-- Kills by R184, R186 and R188; TILE_KILL and TILE_RUN by R189. -/
def Obligations.KillsAndResume : Prop :=
  ∀ (t : TileId) (s : State),
    (∀ (who : Requester) (v : Word), Accepted s who (pgTile t) 0x410 0 → (tile s t).kill = none →
      (v.toNat % 16 ≠ 0 → ∃ u, exec (.tileKill who t v) s = .next u ∧
        (tile u t).kill = some ⟨allEngines.filter (fun q => v.toNat.testBit (engNo q)), 93, false⟩ ∧
        fget u (pgTile t) Fl.tileKillStatBusy = 1 ∧ (∀ q, queue u t q = queue s t q) ∧ u.mem = s.mem ∧
        ∀ pg off, off ≠ 0x414 → rd u pg off = rd s pg off) ∧
      (v.toNat % 16 = 0 → exec (.tileKill who t v) s = .next s)) ∧
    (∀ who : Requester, Accepted s who (pgTile t) 0x418 0 → ∃ u, exec (.tileResume who t) s = .next u ∧
      fget u (pgTile t) Fl.tileRunHalted = 0 ∧ OnlyRegs (keysOf (pgTile t) [0x418]) s u) ∧
    (∀ (d : Fin 148) (k : KillRun), (tile s t).kill = some k →
      ∃ u, exec (.killDone t d) s = .next u ∧ (tile u t).kill = none ∧
        (∀ q ∈ k.engines, (queue u t q).map entryWords = (queue s t q).map entryWords ∧ ∀ x ∈ queue u t q, x.phase = .queued) ∧
        (.lane ∈ k.engines → (tile u t).loads = [] ∧ (tile u t).laneRuns = [] ∧ (tile u t).active = (tile s t).committedActive ∧ (tile u t).undo = []) ∧
        (.vec ∈ k.engines → (tile u t).vecRun = none ∧ (tile u t).held = (tile s t).heldCommitted) ∧
        fget u (pgTile t) Fl.tileKillStatBusy = 0 ∧ fget u (pgTile t) Fl.tileKillStatCycles = min 255 (k.cycles + d.val) ∧
        fget u (pgTile t) Fl.tileKillStatCount = min (fget s (pgTile t) Fl.tileKillStatCount + 1) 0xFFFF ∧
        bitAt (rd u (pgTile t) 0x010) 8 = true ∧ u.mem = s.mem)

/-- The descriptor store by R151 and R152, slot fills by R163, the end of a job on a tile by R140, R141 and R389. -/
def Obligations.DescriptorsSlotsAndJobEnds : Prop :=
  ∀ (t : TileId) (s : State),
    (∀ (who : Requester) (v : Word), Accepted s who (pgTile t) 0x400 0 →
      (handleBad s t ⟨v.toNat % 2 ^ 16, 2, false⟩ = false → descOf (tile s t) (v.toNat % 2 ^ 16) = none →
        v.toNat % 2 ^ 16 ∉ (tile s t).descPend → (tile s t).descs.length + (tile s t).descPend.length < 64 →
        ∃ u, exec (.descLoad who t v) s = .next u ∧ (tile u t).descPend = (tile s t).descPend ++ [v.toNat % 2 ^ 16] ∧
          u = { s with tiles := u.tiles }) ∧
      (handleBad s t ⟨v.toNat % 2 ^ 16, 2, false⟩ = true → exec (.descLoad who t v) s = .next (commandFault t (pgTile t) 0 2 0x11 [] s))) ∧
    (∀ h : Nat, h ∈ (tile s t).descPend → grantRange s (.seq t) false (descAddr s (tilePart s t) h) 64 = .served →
      ∃ u, exec (.descCopyResponse t h false) s = .next u ∧ (tile u t).descPend = (tile s t).descPend.erase h ∧
        (tile u t).descs = (tile s t).descs ++ [(h, wordsOf (peekReq s (descAddr s (tilePart s t) h) 64))] ∧ u.mem = s.mem) ∧
    (∀ (who : Requester) (v : Word), Accepted s who (pgTile t) 0x458 0 → Fl.tileSlotFillGo.get v = 1 →
      ringValid s t (Fl.tileSlotFillRing.get v) = true → fget s (pgTile t) (Fl.tileSlotStateBufs (Fl.tileSlotFillRing.get v)) = 0 →
      Fl.tileSlotFillCountM1.get v + 1 ≤ ringBufs s t (Fl.tileSlotFillRing.get v) → fget s (pgSeq t) Fl.seqStatusState ≠ 1 →
      ∃ u, exec (.slotFill who t v) s = .next u ∧
        (∀ b, b < 16 → bufState u t (Fl.tileSlotFillRing.get v) b = if b ≤ Fl.tileSlotFillCountM1.get v then 2 else 0) ∧
        rdIdx u t (Fl.tileSlotFillRing.get v) = 0 ∧
        wrIdx u t (Fl.tileSlotFillRing.get v) = (Fl.tileSlotFillCountM1.get v + 1) % ringBufs s t (Fl.tileSlotFillRing.get v) ∧ u.mem = s.mem) ∧
    (∀ j : TileJob, (tile s t).job = some j → j.faulted = false → jobDone s t j = true → (tile s t).kill = none →
      fget s (pgTile t) Fl.tileCtxCtlFreeze = 0 →
      ∃ u, exec (.tileJobEnd t) s = .next u ∧ (tile u t).job = none ∧ (tile u t).descs = [] ∧ (tile u t).frameStep = j.jid.isSome ∧
        fget u (pgSeq t) Fl.seqStatusAutoIl = 0 ∧ fget u (pgSeq t) Fl.seqStatusWideIl = 0 ∧
        fget u (pgScale t) Fl.scaleJobCntJobs = (fget s (pgScale t) Fl.scaleJobCntJobs + (if j.jid.isSome then 1 else 0)) % 2 ^ 32 ∧ u.mem = s.mem) ∧
    (∀ j : TileJob, (tile s t).job = some j → j.faulted = true → (tile s t).kill = none → ctxBusy s t = false →
      ∃ u, exec (.tileJobEnd t) s = .next u ∧ (tile u t).job = none ∧ (tile u t).descs = [] ∧ (tile u t).frameStep = false ∧
        (∀ q, queue u t q = []) ∧ fget u (pgTile t) Fl.tileRunHalted = 0 ∧ u.mem = s.mem) ∧
    ((tile s t).frameStep = true → ((tile s t).frameOut.map Prod.fst).Nodup →
      let n := fun k => ((tile s t).frameOut.filter (fun o => o.2.2.2 = k)).length
      ∃ u, exec (.frameStepDone t) s = .next u ∧ (tile u t).frameStep = false ∧
        (∀ o ∈ (tile s t).frameOut, o.1 < 1024 → (statRec (tile u t) o.1).lowrun = o.2.2.1 ∧
          (o.2.2.2 ≤ 1 → fget u (pgScale t) ⟨scaleOff o.1 + 4, 0, 4⟩ = unsignedOf 4 o.2.1 % 16)) ∧
        fget u (pgScale t) Fl.scaleAdaptCntUp = min (fget s (pgScale t) Fl.scaleAdaptCntUp + n 0) 0xFFFF ∧
        fget u (pgScale t) Fl.scaleAdaptCntDown = min (fget s (pgScale t) Fl.scaleAdaptCntDown + n 1) 0xFFFF ∧
        (0 < n 0 + n 1 → bitAt (rd u (pgScale t) 0x010) 8 = true) ∧ (0 < n 2 → bitAt (rd u (pgScale t) 0x010) 9 = true) ∧ u.mem = s.mem)

/-- The checks of R246 to R249, and what a served access does. -/
def Obligations.ScratchpadAccessByPort : Prop :=
  ∀ (t : TileId) (port : Fin 6) (write slot : Bool) (line : Fin 16384) (data : List Byte) (ecc : EccOutcome) (s : State),
    (spadCheck s t port.val write slot (64 * line.val) = none →
      (write = true → ∃ u, exec (.spadAccess t port write slot line data ecc) s = .next u ∧
        u.mem = memWrite s.mem (spadBase t + 64 * line.val) (data.take 64) ∧ RegsBut s u (conflictKeys t)) ∧
      (write = false → ecc = .clean → ∃ u, exec (.spadAccess t port write slot line data ecc) s = .next u ∧ u.mem = s.mem ∧
        RegsBut s u (conflictKeys t)) ∧
      (write = false → ecc = .corrected → ∃ u, exec (.spadAccess t port write slot line data ecc) s = .next u ∧
        fget u (pgSpad t) Fl.spadEccCntCorrected = min (fget s (pgSpad t) Fl.spadEccCntCorrected + 1) 0xFFFF ∧
        fget u (pgSpad t) Fl.spadFltAddrOffset = 64 * line.val ∧ fget u (pgSpad t) Fl.spadFltAddrPort = port.val ∧
        bitAt (rd u (pgSpad t) 0x010) 8 = true ∧ u.mem = s.mem ∧ RegsBut s u (conflictKeys t ++ keysOf (pgSpad t) [0x010, 0x100, 0x104])) ∧
      (write = false → ecc = .uncorrectable →
        ∃ u, exec (.spadAccess t port write slot line data ecc) s = .next u ∧ u.mem = s.mem ∧
          (fget s (pgSpad t) Fl.faultClass = 0 → fget u (pgSpad t) Fl.faultClass = 4 ∧ fget u (pgSpad t) Fl.faultDetail = 5) ∧
          (∀ o, 4 ≤ port.val → servedAt s t port.val false (64 * line.val) = some o →
            ∀ x ∈ u.outstanding, x.id = o.id → x.err = some (4, 5) ∧ x.data = []))) ∧
    (∀ det : Nat, spadCheck s t port.val write slot (64 * line.val) = some det →
      ∃ u, exec (.spadAccess t port write slot line data ecc) s = .next u ∧ u.mem = s.mem ∧
        (fget s (pgSpad t) Fl.faultClass = 0 → fget u (pgSpad t) Fl.faultClass = 4 ∧ fget u (pgSpad t) Fl.faultDetail = det % 256))

/-- Commands that copy by R176, R177, R221, R223, R256 and R258. That lines of the own scratchpad move as soon as they may is the model's (log 110). -/
def Obligations.StreamEnginesCopyTheirElements : Prop :=
  ∀ (t : TileId) (g : StrmId) (c : QEntry) (s : State),
    (∀ (src dst : List Word) (sd : Option (List Word)), MoveReady s t g 0x21 .move c src dst sd → persistent s t g 0x21 c sd = false →
      sdIs sd (fun w => sdRole w != 0) = false → SlotFree s t g c.num src false → SlotFree s t g c.num dst true →
      let a := opd s t src false (slotWait s t g c.num src false).buf (ofsBytes (cf c 3 0 16))
      let b := outOpd a (opd s t dst true (slotWait s t g c.num dst true).buf (ofsBytes (cf c 3 16 16)))
      let l := destLines a.ty (moveMap s t a b (regOf src sd) .move (16 * cf c 3 0 16))
      ∃ u, exec (.move t (strmEng g)) s = .next u ∧ InPhase u t (strmEng g) c.num .running ∧ Runs u t g c.num a b ∧
        (Memory.wf s.mem = true → (strOf (tile s t) g).runs = [] → OwnReads s t (strmEng g) a (readsOf l) →
          OwnWrites s t (strmEng g) b l (readsOf l) →
          u.mem = copied s.mem a.ty b.ty l ∧ linesWritten u t g = (linesWritten s t g + l.length) % 2 ^ (32 + Fl.strmLinesHiLines.width))) ∧
    (∀ (src dst : List Word) (sd : Option (List Word)),
      let tn := if cf c 0 11 1 = 1 then Turn.toSpace (cf c 0 12 3 + 1) else Turn.toDepth (cf c 0 12 3 + 1)
      MoveReady s t g 0x22 tn c src dst sd → sdIs sd (fun w => sdRole w != 0) = false → SlotFree s t g c.num src false →
      SlotFree s t g c.num dst true →
      let a := opd s t src false (slotWait s t g c.num src false).buf (ofsBytes (cf c 3 0 16))
      let b := outOpd a (opd s t dst true (slotWait s t g c.num dst true).buf (ofsBytes (cf c 3 16 16)))
      let l := destLines a.ty (moveMap s t a b (regOf src sd) tn (16 * cf c 3 0 16))
      ∃ u, exec (.regroup t g) s = .next u ∧ InPhase u t (strmEng g) c.num .running ∧ Runs u t g c.num a b ∧
        (Memory.wf s.mem = true → (strOf (tile s t) g).runs = [] → OwnReads s t (strmEng g) a (readsOf l) →
          OwnWrites s t (strmEng g) b l (readsOf l) → u.mem = copied s.mem a.ty b.ty l)) ∧
    (∀ ids tbl out : List Word, readsLeft (tile s t) g = false → AtHead s t (strmEng g) 0x20 c [some ids, some tbl, some out] →
      gatherRoom s c (opd s t ids false none 0) (opd s t tbl false none 0)
        (outOpd (opd s t tbl false none 0) (opd s t out true none 0)) = none →
      (∀ d ∈ [ids, tbl], dLoc d = 3 → effTile s d ≠ t → dAdpCnt d = 0) →
      SlotFree s t g c.num ids false → SlotFree s t g c.num tbl false → SlotFree s t g c.num out true →
      let i := opd s t ids false (slotWait s t g c.num ids false).buf 0
      let a := opd s t tbl false (slotWait s t g c.num tbl false).buf 0
      let b := outOpd a (opd s t out true (slotWait s t g c.num out true).buf 0)
      let n := cf c 2 16 16 + 1
      let idl := (List.range n).map (fun k => elemInt 3 (readElem s.mem 3 (idNib i (cf c 3 0 16 + k))))
      let l := destLines a.ty ((idl.mapIdx (fun k id => gatherRow (chanCfgs s t out) a b k id)).flatten)
      ∃ u, exec (.gather t g) s = .next u ∧ InPhase u t (strmEng g) c.num .running ∧ Runs u t g c.num a b ∧
        (Memory.wf s.mem = true → (strOf (tile s t) g).runs = [] →
          OwnReads s t (strmEng g) i ((List.range n).flatMap (fun k => elLines 3 (idNib i (cf c 3 0 16 + k)))) →
          OwnReads s t (strmEng g) a (readsOf l) → OwnWrites s t (strmEng g) b l (readsOf l) →
          u.mem = copied s.mem a.ty b.ty l ∧ fget u (pgTile t) Fl.tileGatherOorCount = min (fget s (pgTile t) Fl.tileGatherOorCount +
            (idl.filter (fun id => decide (id < 0) || decide ((dH tbl : Int) ≤ id))).length) (2 ^ 32 - 1))) ∧
    (∀ src dst : List Word, (tile s t).vecRun = none → AtHead s t .vec 0x21 c [some src, some dst] →
      let a := opd s t src false none (ofsBytes (cf c 3 0 16))
      let b := vecMoveOut c a (opd s t dst true none (ofsBytes (cf c 3 16 16)))
      let m := moveMap s t a b (regOf src none) .move (16 * cf c 3 0 16)
      vecMoveBad s c src dst a b m = none → slotCheck s t [(src, decide (cf c 0 10 1 = 1))] [dst] = none →
      ∃ u, exec (.move t .vec) s = .next u ∧ InPhase u t .vec c.num .running ∧
        (Memory.wf s.mem = true → OwnReads s t .vec a (readsOf (destLines a.ty m)) →
          OwnWrites s t .vec b (destLines a.ty m) (readsOf (destLines a.ty m)) → u.mem = copied s.mem a.ty b.ty (destLines a.ty m)))

/-- Multicast by R275 to R278, remote slot steps by R259, completion by R258. -/
def Obligations.MulticastAndRemoteSlots : Prop :=
  ∀ (t : TileId) (g : StrmId) (s : State),
    (∀ (c : QEntry) (src dst w : List Word), MoveReady s t g 0x21 .move c src dst (some w) → persistent s t g 0x21 c (some w) = false →
      sdRole w = 1 → SlotFree s t g c.num src false →
      let tiles := (((mcReceivers w).map tileOf).map (redirTile s)).eraseDups
      ∃ u, exec (.send t g) s = .next u ∧ InPhase u t (strmEng g) c.num .running ∧
        (∃ m ∈ mcOf (tile u t) g, m.num = c.num ∧ m.send = true ∧ m.tag = sdTag w) ∧
        ((∀ v k, ∀ r ∈ mcOf (tile s v) k, r.send = true ∧ r.num ≠ c.num) → (strOf (tile s t) g).runs = [] → tiles ≠ [] →
          ∃ m, mcOf (tile u t) g = mcOf (tile s t) g ++ [m] ∧ m.tiles = tiles ∧ m.sent = 0 ∧ m.dropped = [] ∧ u.mem = s.mem)) ∧
    (∀ (c : QEntry) (src dst w : List Word), MoveReady s t g 0x21 .move c src dst (some w) → persistent s t g 0x21 c (some w) = false →
      sdRole w = 2 → SlotFree s t g c.num dst true →
      ∃ u, exec (.recv t g) s = .next u ∧ InPhase u t (strmEng g) c.num .running ∧
        (∃ m ∈ mcOf (tile u t) g, m.num = c.num ∧ m.send = false ∧ m.tag = sdTag w ∧ m.tiles = [redirTile s (tileOf (sdTile w))]) ∧
        ((∀ v k, ∀ r ∈ mcOf (tile s v) k, r.send = false ∧ r.num ≠ c.num) → (strOf (tile s t) g).runs = [] →
          ∃ m, mcOf (tile u t) g = mcOf (tile s t) g ++ [m] ∧ m.pair = none ∧ m.unread = 0)) ∧
    (∀ (r : TileId) (tag : Byte) (lag : Nat) (m : McRun), (mcOf (tile s t) g).find? (fun x => x.send && decide (x.tag = tag.toNat) && x.tiles.contains r && !x.todo.isEmpty) = some m →
      fget s (pgStrm t g) Fl.strmMcLagLimitCycles < lag → (readyLine s t g m).isSome = true →
      (∀ v ∈ m.tiles, v ≠ r → holdsCredit s t g m.num v = true) → holdsCredit s t g m.num r = false →
      ∃ u, exec (.multicastDrop t g r tag lag) s = .next u ∧
        (∀ x ∈ mcOf (tile u t) g, x.send = true → x.num = m.num → r ∉ x.tiles ∧ r ∈ x.dropped) ∧
        fget u (pgStrm t g) Fl.strmMcDropCntCount = min (fget s (pgStrm t g) Fl.strmMcDropCntCount + 1) (2 ^ Fl.strmMcDropCntCount.width - 1) ∧
        fget u (pgStrm t g) Fl.strmMcDropLastTile = r.val ∧ bitAt (rd u (pgStrm t g) 0x010) 8 = true) ∧
    (∀ (sl : Fin 32) (i : Nat) (r : RemoteStep),
      (s.remoteSteps.filter (fun r => decide (r.ringTile = t) && r.ring = sl.val && r.got.isNone))[i]? = some r →
      (r.write = true → slotWritable s t sl.val = true → wrIdx s t sl.val < 16 →
        ∃ u, exec (.remoteSlotStep t sl i) s = .next u ∧ bufState u t sl.val (wrIdx s t sl.val) = 1 ∧
          wrIdx u t sl.val = (wrIdx s t sl.val + 1) % ringBufs s t sl.val ∧ r ∉ u.remoteSteps ∧
          { r with got := some ⟨t, sl.val, wrIdx s t sl.val, 0, false, false⟩ } ∈ u.remoteSteps ∧ u.mem = s.mem) ∧
      (r.write = false → slotReadable s t sl.val = true → rdIdx s t sl.val < 16 →
        ∃ u, exec (.remoteSlotStep t sl i) s = .next u ∧ bufState u t sl.val (rdIdx s t sl.val) = (if r.consume then 3 else 2) ∧
          rdIdx u t sl.val = (if r.consume then (rdIdx s t sl.val + 1) % ringBufs s t sl.val else rdIdx s t sl.val) ∧ r ∉ u.remoteSteps ∧
          { r with got := some ⟨t, sl.val, rdIdx s t sl.val, if r.consume then 1 else 2, false, false⟩ } ∈ u.remoteSteps ∧ u.mem = s.mem)) ∧
    (∀ c : QEntry, let v := strmGoOn regRequest t g s
      beingKilled (tile s t) (strmEng g) = false → beingKilled (tile v t) (strmEng g) = false →
      (queue v t (strmEng g)).find? (fun c => c.phase = .running && opcodeOf c != 0x32) = some c → mcDone v t g c.num = true →
      (∀ r, (strOf (tile v t) g).runs.find? (fun r => decide (r.num = c.num) && r.chan.isNone) = some r → r.done = true) →
      ∃ u, exec (.strmCmdComplete t g) s = .next u ∧ InPhase u t (strmEng g) c.num .complete ∧ u.mem = v.mem ∧ u.regs = v.regs ∧
        ∀ r ∈ (strOf (tile u t) g).runs, r.num = c.num → r.chan ≠ none)

/-- Persistent channels by R270, R271, R273 and R274. -/
def Obligations.PersistentChannels : Prop :=
  ∀ (t : TileId) (g : StrmId) (s : State),
    (∀ (c : QEntry) (src dst w : List Word), MoveReady s t g 0x21 .move c src dst (some w) → persistent s t g 0x21 c (some w) = true →
      ∃ u, exec (.move t (strmEng g)) s = .next u ∧ InPhase u t (strmEng g) c.num .complete ∧
        (∀ x ∈ queue u t (strmEng g), x.num = c.num → x.arm = some (armReq s t g c w)) ∧ u = { s with tiles := u.tiles }) ∧
    (∀ (r : ArmReq) (l : List ArmReq) (k : Nat), armQ (tile s t) g = r :: l → r.rearm = false →
      (List.range 4).find? (fun k => match (chansOf (tile s t) g)[k]? with
        | some c => !c.armed
        | none => false) = some k →
      ∃ u, exec (.channelArm t g) s = .next u ∧
        (beingKilled (tile u t) (strmEng g) = false → armQ (tile u t) g = l ∧
          (∃ c, (chansOf (tile u t) g)[k]? = some c ∧ c.armed = true ∧ c.d = r.d ∧ c.ops = some r.ops ∧ c.block = 0) ∧
          fget u (pgStrm t g) (Fl.strmChStatArmed k) = 1) ∧
        ((∀ src, descOf (tile s t) r.ops.src = some src → dLoc src = 3 ∧ slotReadable s (effTile s src) (dRing src) = false) →
          armQ (tile u t) g = l ∧ (chansOf (tile u t) g)[k]? = some { armed := true, d := r.d, ops := some r.ops } ∧ u.mem = s.mem)) ∧
    (∀ (r : ArmReq) (l : List ArmReq) (k : Nat) (c : StrmChan), armQ (tile s t) g = r :: l → r.rearm = true →
      armedOn (tile s t) g r.d = some k → (chansOf (tile s t) g)[k]? = some c →
      let ops := { r.ops with sdesc := (c.ops.map ChanOps.sdesc).getD r.ops.sdesc }
      (c.idle = false → ∃ u, exec (.rearm t g) s = .next u ∧ armQ (tile u t) g = l ∧
        (chansOf (tile u t) g)[k]? = some { c with shadow := some ops } ∧
        (c.shadow.isSome = true → fget u (pgStrm t g) (Fl.strmChStatRearmOverrun k) = 1 ∧ bitAt (rd u (pgStrm t g) 0x010) 9 = true) ∧
        u.mem = s.mem) ∧
      (c.idle = true → ∃ u, exec (.rearm t g) s = .next u ∧
        (beingKilled (tile u t) (strmEng g) = false → armQ (tile u t) g = l ∧
          ∃ d, (chansOf (tile u t) g)[k]? = some d ∧ d.idle = false ∧ d.block = 0 ∧ d.ops = some ops))) ∧
    (∀ (k : Fin 4) (c : StrmChan) (o : ChanOps), let v := strmWork regRequest t g s
      beingKilled (tile s t) (strmEng g) = false → beingKilled (tile v t) (strmEng g) = false →
      (chansOf (tile v t) g)[k.val]? = some c → c.busy = true → c.ops = some o →
      (∀ r, (strOf (tile v t) g).runs.find? (fun r => decide (r.chan = some k.val)) = some r → r.done = true) →
      (sdBlocks o.sdesc ≤ c.block + 1 → c.shadow = none → ∃ u, exec (.channelBlockDone t g k) s = .next u ∧
        (chansOf (tile u t) g)[k.val]? = some { c with busy := false, steps := [], idle := true, block := c.block + 1 } ∧
        bitAt (rd u (pgStrm t g) 0x010) 10 = true ∧ u.mem = v.mem) ∧
      (∀ sh, sdBlocks o.sdesc ≤ c.block + 1 → c.shadow = some sh → ∃ u, exec (.channelBlockDone t g k) s = .next u ∧
        (beingKilled (tile u t) (strmEng g) = false → ∃ d, (chansOf (tile u t) g)[k.val]? = some d ∧ d.ops = some sh ∧ d.shadow = none ∧ d.block = 0)) ∧
      (c.block + 1 < sdBlocks o.sdesc → ∃ u, exec (.channelBlockDone t g k) s = .next u ∧
        (beingKilled (tile u t) (strmEng g) = false → ∃ d, (chansOf (tile u t) g)[k.val]? = some d ∧ d.ops = c.ops ∧ d.block = c.block + 1)))

/-- The hub by R32, the subchannel by R290; the packing of R291 loses no bit of the line. -/
def Obligations.DdrAddressesInterleave : Prop :=
  (∀ a : Nat, ddrHub a = (if a / 4096 % 2 = 0 then 0 else 1) ∧ ddrHub (a + 4096) ≠ ddrHub a) ∧
  (∀ (s : State) (a : Nat), (subCount s = 4 → (ddrSub s a).val = a / 256 % 4) ∧ (subCount s = 2 → (ddrSub s a).val = a / 256 % 2) ∧
    (subCount s = 1 → (ddrSub s a).val = 0)) ∧
  (∀ (s : State) (a : Nat), lineAddr (subCount s) (ddrHub a).val (ddrSub s a).val (subLine (subCount s) a) = a / 64 * 64)

/-- Budgets by R300, dealt in partition order and clipped to what remains. -/
def Obligations.WheelBudgetsAreDealtInOrder : Prop :=
  ∀ (b : Budgets) (c p : Nat), p < 4 → b.shares.length = 4 → (∀ q, bitsOf (nth 0 b.shares q).toNat (8 * c) 5 ≤ 16) →
    ((List.range (p + 1)).map (budgetOf b c)).sum =
      min (64 * wheelCount b.wheel c) ((List.range (p + 1)).map (fun q => 4 * wheelCount b.wheel c * bitsOf (nth 0 b.shares q).toNat (8 * c) 5)).sum ∧
    budgetOf b c p ≤ 4 * wheelCount b.wheel c * bitsOf (nth 0 b.shares p).toNat (8 * c) 5

/-- Positions and budgets by R299 and R301, the LLC by R294 to R296, its counts by R321. The position and the request it goes to are those of the state in which the held requests have been counted. -/
def Obligations.HubPositionServesOneRequest : Prop :=
  ∀ (h : HubId) (srv : Fin 12) (cls : Fin 3) (ecc : LlcEcc) (s : State),
    let s1 := countHeld h srv.val cls.val s
    (∃ t, exec (.hubRequest h srv cls ecc) s = .next t ∧
      ∀ p, p < 4 → fget t (pgHub h) (Fl.hubBwHeldCount p) = min (2 ^ 32 - 1) (fget s (pgHub h) (Fl.hubBwHeldCount p) +
        ((hubSt s h).reqs.filter (fun r => !r.counted && !r.reading && decide (r.cls = cls.val) && decide (serverOf s h r = srv.val)
          && !reqWaits s r && decide (budgetLeft (hubSt s h) srv.val cls.val p = 0) && decide (r.part.val = p))).length)) ∧
    (∀ r, pickReq s h srv.val cls.val = some r → r ∈ (hubSt s h).reqs ∧ r.reading = false ∧ r.cls = cls.val ∧ serverOf s h r = srv.val ∧
      reqWaits s r = false ∧ 0 < budgetLeft (hubSt s h) srv.val cls.val r.part.val) ∧
    (pickReq s h srv.val cls.val = none → ∀ r ∈ (hubSt s h).reqs, r.reading = false → r.cls = cls.val → serverOf s h r = srv.val →
      reqWaits s r = false → budgetLeft (hubSt s h) srv.val cls.val r.part.val = 0) ∧
    (nextPos s1 h srv.val cls.val = none → exec (.hubRequest h srv cls ecc) s = .next s1) ∧
    (∀ p, nextPos s1 h srv.val cls.val = some p → claimant s1 h srv.val p = none →
      ∃ t, exec (.hubRequest h srv cls ecc) s = .next t ∧ t = { s1 with hubs := t.hubs } ∧ posOf (hubSt t h) srv.val = p + 1 ∧
        (hubSt t h).reqs = (hubSt s1 h).reqs ∧ (hubSt t h).used = (hubSt s1 h).used) ∧
    (∀ p r paid, nextPos s1 h srv.val cls.val = some p → claimant s1 h srv.val p = some (r, paid) →
      ∃ t, exec (.hubRequest h srv cls ecc) s = .next t ∧ posOf (hubSt t h) srv.val = p + 1 ∧
        Tab.get 0 (hubSt t h).used (srv.val, cls.val, r.part.val) = Tab.get 0 (hubSt s h).used (srv.val, cls.val, r.part.val) + b2n paid ∧
        (∀ c d, lineGrant s1 r = .error c d → t.mem = s.mem ∧ (hubSt t h).reqs = (hubSt s1 h).reqs.erase r ∧
          ∀ o ∈ s.outstanding, r.id = some o.id → o.err = none → ∃ o' ∈ t.outstanding, o'.id = o.id ∧ o'.err = some (c, d)) ∧
        (lineGrant s1 r = .served → (∃ h' c, reqRegion s1 r = .ddr h' c) → srv.val < 8 → ecc ≠ .tagParity → llcFind s1 h r.addr = none →
          (hubSt t h).reqs = (hubSt s1 h).reqs.replace r { r with atDdr := true, counted := false } ∧
          Tab.get 0 (hubSt t h).misses r.part.val = Tab.get 0 (hubSt s h).misses r.part.val + 1 ∧ t.mem = s.mem) ∧
        (lineGrant s1 r = .served → (∃ h' c, reqRegion s1 r = .ddr h' c) → srv.val < 8 → (ecc = .clean ∨ ecc = .corrected) →
          (llcFind s1 h r.addr).isSome = true → (hubSt s h).bad.contains (r.addr / 64) = false →
          (hubSt t h).reqs = (hubSt s1 h).reqs.erase r ∧
          Tab.get 0 (hubSt t h).hits r.part.val = Tab.get 0 (hubSt s h).hits r.part.val + 1 ∧
          (r.write = true → r.id.isSome = true → t.mem = memWrite s.mem r.addr (r.data.take r.len) ∧
            ∀ l ∈ (hubSt t h).lines, l.line = r.addr / 64 → l.dirty = true) ∧
          (r.write = false → t.mem = s.mem ∧ ∀ o ∈ s.outstanding, r.id = some o.id →
            ∃ o' ∈ t.outstanding, o'.id = o.id ∧ o'.data = patchBytes o.data (r.addr - o.req.addr.toNat) (peek s r.addr r.len))) ∧
        (lineGrant s1 r = .served → (∃ h' w, reqRegion s1 r = .window h' w) → (ecc = .clean ∨ ecc = .corrected) →
          (hubSt s h).bad.contains (r.addr / 64) = false →
          (hubSt t h).reqs = (hubSt s1 h).reqs.erase r ∧
          (r.write = true → r.id.isSome = true → t.mem = memWrite s.mem r.addr (r.data.take r.len)) ∧
          (r.write = false → t.mem = s.mem ∧ ∀ o ∈ s.outstanding, r.id = some o.id →
            ∃ o' ∈ t.outstanding, o'.id = o.id ∧ o'.data = patchBytes o.data (r.addr - o.req.addr.toNat) (peek s r.addr r.len))) ∧
        (lineGrant s1 r = .served → (∃ h' c, reqRegion s1 r = .ddr h' c) → 8 ≤ srv.val → r.write = false →
          (hubSt t h).reqs = (hubSt s1 h).reqs.replace r { r with reading := true } ∧ t.mem = s.mem) ∧
        (lineGrant s1 r = .served → (∃ h' c, reqRegion s1 r = .ddr h' c) → 8 ≤ srv.val → r.write = true → r.id.isSome = true → r.len = 64 →
          t.mem = memWrite s.mem r.addr (r.data.take 64)) ∧
        (lineGrant s1 r = .served → (∃ h' c, reqRegion s1 r = .ddr h' c) → 8 ≤ srv.val → r.write = true → r.id = none →
          t.mem = s.mem ∧ (hubSt t h).reqs = (hubSt s1 h).reqs.erase r ∧
          ∀ w, r.way = some w → ∀ l ∈ (hubSt t h).lines, l.line = r.addr / 64 → l.dirty = false))

/-- DDR reads by R288, the scrub and the rate of corrections by R289. The seconds are those of the absolute count of FABRIC cycles (the model's choice, log 112). -/
def Obligations.DdrReadsReturnOrReport : Prop :=
  ∀ (h : HubId) (c : Sub) (s : State),
    (∀ r : HubReq, (hubSt s h).reqs.find? (fun x => x.reading && decide (reqRegion s x = .ddr h c)) = some r →
      (∃ t, exec (.ddrReadData h c .clean) s = .next t ∧
        (r.write = false → t.mem = s.mem ∧ ∀ o ∈ s.outstanding, r.id = some o.id →
          ∃ o' ∈ t.outstanding, o'.id = o.id ∧ o'.data = patchBytes o.data (r.addr - o.req.addr.toNat) (peek s r.addr r.len)) ∧
        (r.write = true → r.id.isSome = true → t.mem = memWrite s.mem r.addr (r.data.take r.len)) ∧
        (llcOn s h = true → ownWays s h r.part ≠ [] → (llcFind t h r.addr).isSome = true) ∧
        (ownWays s h r.part = [] → (hubSt t h).reqs = (hubSt s h).reqs.erase r ∧ (hubSt t h).lines = (hubSt s h).lines ∧ t.regs = s.regs)) ∧
      (∃ t, exec (.ddrReadData h c .uncorrectable) s = .next t ∧ (hubSt t h).reqs = (hubSt s h).reqs.erase r ∧ t.mem = s.mem ∧
        fget t (pgDdr h c) Fl.hubDdrEccUncorr = min (fget s (pgDdr h c) Fl.hubDdrEccUncorr + 1) (2 ^ Fl.hubDdrEccUncorr.width - 1) ∧
        fget t (pgDdr h c) Fl.hubDdrEccAddrLine = r.addr / 64 % 2 ^ 30 ∧
        (fget s (pgDdr h c) Fl.faultClass = 0 → fget t (pgDdr h c) Fl.faultClass = 0x0E ∧ fget t (pgDdr h c) Fl.faultDetail = 1) ∧
        ∀ o ∈ s.outstanding, r.id = some o.id → o.err = none → ∃ o' ∈ t.outstanding, o'.id = o.id ∧ o'.err = some (0x0E, 1)) ∧
      (∃ t, exec (.ddrReadData h c .corrected) s = .next t ∧ (subSt t (subNo h c)).fix = (subSt s (subNo h c)).fix ++ [r.addr / 64] ∧
        fget t (pgDdr h c) Fl.hubDdrEccCorrected = min (fget s (pgDdr h c) Fl.hubDdrEccCorrected + 1) (2 ^ Fl.hubDdrEccCorrected.width - 1) ∧
        bitAt (rd t (pgDdr h c) 0x010) 9 = true ∧ (r.write = false → t.mem = s.mem))) ∧
    (∀ (l : Nat) (rest : List Nat) (p : Nat), (subSt s (subNo h c)).fix = l :: rest → nextPos s h (8 + c.val) 1 = some p →
      (claimant s h (8 + c.val) p = none →
        ∃ t, exec (.eccWriteback h c) s = .next t ∧ (subSt t (subNo h c)).fix = rest ∧ posOf (hubSt t h) (8 + c.val) = p + 1 ∧
          t = { s with subs := t.subs, hubs := t.hubs }) ∧
      ((claimant s h (8 + c.val) p).isSome = true → exec (.eccWriteback h c) s = .next s)) ∧
    (subServing s h c = true → fon s (pgDdr h c) Fl.hubDdrMaintScrubEn = true → positionFree s h (8 + c.val) = true →
      ∃ t, exec (.scrubRead h c .clean) s = .next t ∧ t.mem = s.mem ∧
        ((subSt s (subNo h c)).scrub + 1 < subLines s → (subSt t (subNo h c)).scrub = (subSt s (subNo h c)).scrub + 1 ∧ t.regs = s.regs) ∧
        (subLines s ≤ (subSt s (subNo h c)).scrub + 1 → (subSt t (subNo h c)).scrub = 0 ∧
          fget t (pgDdr h c) Fl.hubDdrMaintPasses = min (fget s (pgDdr h c) Fl.hubDdrMaintPasses + 1) (2 ^ Fl.hubDdrMaintPasses.width - 1))) ∧
    ((subServing s h c && fon s (pgDdr h c) Fl.hubDdrMaintScrubEn && positionFree s h (8 + c.val)) = false →
      ∀ e, exec (.scrubRead h c e) s = .next s) ∧
    ((subSt s (subNo h c)).riseAt < s.now / 1600000000 →
      ∃ t, exec (.ceRateWindow h c) s = .next t ∧ (subSt t (subNo h c)).riseAt = s.now / 1600000000 ∧
        (∀ k, Tab.get 0 (subSt t (subNo h c)).rises k = if k < s.now / 1600000000 then 0 else Tab.get 0 (subSt s (subNo h c)).rises k) ∧
        ((∃ e ∈ (subSt s (subNo h c)).rises, e.1 < s.now / 1600000000 ∧ fget s (pgDdr h c) Fl.hubDdrCeLimitLimit < e.2) →
          fget s (pgDdr h c) Fl.faultClass = 0 → fget t (pgDdr h c) Fl.faultClass = 0x0E ∧ fget t (pgDdr h c) Fl.faultDetail = 7) ∧
        ((∀ e ∈ (subSt s (subNo h c)).rises, e.1 < s.now / 1600000000 → e.2 ≤ fget s (pgDdr h c) Fl.hubDdrCeLimitLimit) → t.regs = s.regs)) ∧
    (s.now / 1600000000 ≤ (subSt s (subNo h c)).riseAt → exec (.ceRateWindow h c) s = .next s)

/-- Refresh and RFM by R309, live calibration by R310 and R311. The refresh-rate codes above the normal limit, the activate threshold and the grid of the intervals are the model's (logs 113, 7 and 114). -/
def Obligations.SubchannelMaintenance : Prop :=
  ∀ (h : HubId) (c : Sub) (s : State), subServing s h c = true →
    (∀ (rank : Fin 2) (mr4 : Fin 8), c.val < cfgSubs (memConfig s) → rank.val ≤ Fl.hubMemCfgRanks.get (memConfig s) →
      let same := fon s (pgDdr h c) Fl.hubDdrMaintSamebank && subPending s h c
      let every := refreshEvery (fget s (pgDdr h c) Fl.hubDdrStatusRefrate)
      ((∀ e ∈ (subSt s (subNo h c)).refs, e.1 = rank.val → e.2.1 + every ≤ s.now) →
        ∃ t, exec (.refresh h c rank mr4) s = .next t ∧ Tab.get (0, false) (subSt t (subNo h c)).refs rank.val = (s.now, same) ∧
          fget t (pgDdr h c) Fl.hubDdrStatusRefrate = mr4.val ∧
          (same = false → ∀ e ∈ (subSt t (subNo h c)).rows, e.1 / 32 ≠ rank.val) ∧ t.mem = s.mem ∧
          OnlyRegs (keysOf (pgDdr h c) [0x100]) { s with subs := t.subs } t) ∧
      ((∃ e ∈ (subSt s (subNo h c)).refs, e.1 = rank.val ∧ s.now < e.2.1 + every) → exec (.refresh h c rank mr4) s = .next s)) ∧
    (∀ (rank : Fin 2) (bank : Fin 32), fon s (pgDdr h c) Fl.hubDdrMaintRfm = true →
      (rfmLimit (subNo h c) ≤ Tab.get 0 (subSt s (subNo h c)).acts (rank.val * 32 + bank.val) →
        ∃ t, exec (.rfm h c rank bank) s = .next t ∧ Tab.get 0 (subSt t (subNo h c)).acts (rank.val * 32 + bank.val) = 0 ∧
          (∀ e ∈ (subSt t (subNo h c)).rows, e.1 ≠ rank.val * 32 + bank.val) ∧
          (∀ k, k ≠ rank.val * 32 + bank.val → Tab.get 0 (subSt t (subNo h c)).acts k = Tab.get 0 (subSt s (subNo h c)).acts k) ∧
          t = { s with subs := t.subs }) ∧
      (Tab.get 0 (subSt s (subNo h c)).acts (rank.val * 32 + bank.val) < rfmLimit (subNo h c) → exec (.rfm h c rank bank) s = .next s)) ∧
    (∀ (drift centre : List Int) (osc : BitVec 16),
      (fon s (pgDdr h c) Fl.hubDdrCalCtrlLiveEn = true → calDue s h c = true →
        ∃ t, exec (.liveCalibration h c drift centre osc) s = .next t ∧
          (∀ l, l < 5 →
            (fget t (pgDdr h c) (Fl.hubDdrLaneWr l) : Int) = clampI 0 255 ((fget s (pgDdr h c) (Fl.hubDdrLaneWr l) : Int) +
              stepTo 2 (fget s (pgDdr h c) (Fl.hubDdrLaneWr l)) ((fget s (pgDdr h c) (Fl.hubDdrLaneWrTrained l) : Int) + nth 0 drift l)) ∧
            (fget t (pgDdr h c) (Fl.hubDdrLaneRd l) : Int) = clampI 0 255 ((fget s (pgDdr h c) (Fl.hubDdrLaneRd l) : Int) +
              stepTo 1 (fget s (pgDdr h c) (Fl.hubDdrLaneRd l)) (nth (fget s (pgDdr h c) (Fl.hubDdrLaneRd l) : Int) centre l))) ∧
          fget t (pgDdr h c) Fl.hubDdrCalStatCount = (fget s (pgDdr h c) Fl.hubDdrCalStatCount + 1) % 2 ^ 16 ∧
          fget t (pgDdr h c) Fl.hubDdrOscCount =
            (if (subSt s (subNo h c)).calRank = 0 then osc.toNat else fget s (pgDdr h c) Fl.hubDdrOscCount) ∧
          (subSt t (subNo h c)).calRank = ((subSt s (subNo h c)).calRank + 1) % (Fl.hubMemCfgRanks.get (memConfig s) + 1) ∧
          (subSt t (subNo h c)).calAt = s.us ∧ t.mem = s.mem) ∧
      (fon s (pgDdr h c) Fl.hubDdrCalCtrlLiveEn = false → exec (.liveCalibration h c drift centre osc) s = .next s) ∧
      (calDue s h c = false → exec (.liveCalibration h c drift centre osc) s = .next s)) ∧
    (fon s (pgDdr h c) Fl.hubDdrStatusCalFast = true → (calDue s h c = true ↔ (subSt s (subNo h c)).calAt + 1000 ≤ s.us))

/-- Ways by R296, flushes by R322, periods by R301 and R303, the LOAD by R318. -/
def Obligations.LlcWaysFlushesAndPeriods : Prop :=
  ∀ (h : HubId) (s : State),
    (∀ w : Fin 16, Memory.wf s.mem = true → fbit s (pgLlc h) Fl.hubLlcWaystatBusy w.val = true →
      ((∀ l ∈ (hubSt s h).lines, l.way ≠ w.val) → ∃ t, exec (.wayTransitionDone h w) s = .next t ∧
        (∀ a, memGet t.mem a = if windowBase h w.val ≤ a ∧ a < windowBase h w.val + 0x200000 then 0 else memGet s.mem a) ∧
        fbit t (pgLlc h) Fl.hubLlcWaystatBusy w.val = false ∧ bitAt (rd t (pgLlc h) 0x010) 8 = true ∧ (hubSt t h).lines = (hubSt s h).lines) ∧
      ((∃ l ∈ (hubSt s h).lines, l.way = w.val) → exec (.wayTransitionDone h w) s = .next s)) ∧
    (∀ (who : Requester) (v : Word), Accepted s who (pgLlc h) 0x130 0 →
      ∃ t, exec (.llcFlush who h v) s = .next t ∧ (hubSt t h).flush = (hubSt s h).flush ||| Fl.hubLlcFlushWays.get v ∧
        (hubSt t h).lines = (hubSt s h).lines ∧ t.mem = s.mem ∧
        ∀ l ∈ (hubSt s h).lines, (Fl.hubLlcFlushWays.get v).testBit l.way = true → l.way < 16 → wayMode s h l.way = 0 →
          fbit s (pgLlc h) Fl.hubLlcWaystatBusy l.way = false → l.dirty = true →
          ∃ r ∈ (hubSt t h).reqs, r.id = none ∧ r.addr = l.line * 64) ∧
    ((hubSt s h).flush ≠ 0 → flushLeft s h = false →
      ∃ t, exec (.flushDone h) s = .next t ∧ (hubSt t h).flush = 0 ∧ (hubSt t h).lines = (hubSt s h).lines ∧
        bitAt (rd t (pgLlc h) 0x010) 9 = true ∧ t.mem = s.mem) ∧
    (((hubSt s h).flush = 0 ∨ flushLeft s h = true) → exec (.flushDone h) s = .next s) ∧
    (∀ srv : Fin 12,
      let left := min 16 (periodLen - posOf (hubSt s h) srv.val)
      ((∀ i, i < left → claimant s h srv.val (posOf (hubSt s h) srv.val + i) = none) →
        ∃ t, exec (.bwPeriodEnd h srv) s = .next t ∧
          forceOf (hubSt t h) srv.val = ⟨rd s (pgHub h) 0x110, [rd s (pgHub h) 0x120, rd s (pgHub h) 0x124, rd s (pgHub h) 0x128, rd s (pgHub h) 0x12C]⟩ ∧
          (∀ c p, budgetLeft (hubSt t h) srv.val c p = budgetOf (forceOf (hubSt t h) srv.val) c p) ∧ posOf (hubSt t h) srv.val = 0 ∧
          (∀ srv' c p, srv' ≠ srv.val → budgetLeft (hubSt t h) srv' c p = budgetLeft (hubSt s h) srv' c p) ∧ t = { s with hubs := t.hubs }) ∧
      ((∃ i, i < left ∧ (claimant s h srv.val (posOf (hubSt s h) srv.val + i)).isSome = true) → exec (.bwPeriodEnd h srv) s = .next s)) ∧
    ((hubSt s h).loadAt < s.us / 1000 → ∃ t, exec (.hubLoadInterval h) s = .next t ∧ t = { s with hubs := t.hubs } ∧ (hubSt t h).loadAt = s.us / 1000 ∧
      ∀ k c p, k < 2 → c < 3 → p < 4 → Tab.get 0 (hubSt t h).load (k, c, p) =
        (if Tab.get 0 (hubSt s h).loadRoom (k, c, p) = 0 then 0
          else min 0x400 (Tab.get 0 (hubSt s h).loadUsed (k, c, p) * 1024 / Tab.get 0 (hubSt s h).loadRoom (k, c, p)))) ∧
    (s.us / 1000 ≤ (hubSt s h).loadAt → exec (.hubLoadInterval h) s = .next s)

/-- Packets and replays by R21, the retrain by R22, the fault by R30. -/
def Obligations.PacketsAreReplayed : Prop :=
  ∀ (k : LinkId) (s : State), linkState s k = 2 →
    (∃ t, exec (.linkPacketReceive k true) s = .next t ∧ linkSt t k = { linkSt s k with unacked := (linkSt s k).unacked - 1 } ∧
      t = { s with links := t.links } ∧ ∀ j, j ≠ k → linkSt t j = linkSt s j) ∧
    (∃ t, exec (.linkPacketReceive k false) s = .next t ∧ linkSt t k = { linkSt s k with toReplay := (linkSt s k).toReplay + 1 } ∧
      t = { s with links := t.links } ∧ ∀ j, j ≠ k → linkSt t j = linkSt s j) ∧
    (0 < (linkSt s k).toReplay → ∃ t, exec (.linkReplay k) s = .next t ∧ (linkSt t k).toReplay + 1 = (linkSt s k).toReplay ∧
      (linkSt t k).replays = (linkSt s k).replays + 1 ∧
      fget t (pgHub 0) (Fl.hubLinkStatReplayCnt k.val) = min (fget s (pgHub 0) (Fl.hubLinkStatReplayCnt k.val) + 1) 0xFFFF ∧ linkState t k = 2 ∧ t.mem = s.mem) ∧
    ((linkSt s k).gridAt + 1600000 ≤ s.now → ∃ t, exec (.replayIntervalEnd k) s = .next t ∧
      linkSt t k = { linkSt s k with replays := 0, gridAt := (linkSt s k).gridAt + 1600000 } ∧ t = { s with links := t.links }) ∧
    (s.now < (linkSt s k).gridAt + 1600000 → exec (.replayIntervalEnd k) s = .next s) ∧
    (fget s (pgHub 0) Fl.hubLinkCtrlReplayLimit < (linkSt s k).replays →
      (∀ o ∈ s.outstanding, regionOf s o.who o.req.addr.toNat ≠ .regs) → ∃ t, exec (.replayLimit k) s = .next t ∧
      linkState t k = 3 ∧ fget t (pgHub 0) (Fl.hubLinkStatRetrainCnt k.val) = min (fget s (pgHub 0) (Fl.hubLinkStatRetrainCnt k.val) + 1) 0xFF ∧
      (∀ j : LinkId, j ≠ k → linkState t j = linkState s j) ∧
      (fget s (pgHub 0) Fl.faultClass = 0 → fget t (pgHub 0) Fl.faultClass = 0x0F ∧ fget t (pgHub 0) Fl.faultDetail = 1) ∧
      (s.outstanding = [] → t.mem = s.mem)) ∧
    ((linkSt s k).replays ≤ fget s (pgHub 0) Fl.hubLinkCtrlReplayLimit → exec (.replayLimit k) s = .next s)

/-- Retraining by R22, detours by R23 and R25, training by R26, FORCE_DOWN by R28. -/
def Obligations.LinksTrainRetrainAndGoDown : Prop :=
  ∀ (k : LinkId) (s : State), (∀ o ∈ s.outstanding, regionOf s o.who o.req.addr.toNat ≠ .regs) →
    (linkState s k = 3 → ∀ spared : Bool, ∃ t, exec (.retrainDone k spared) s = .next t ∧ linkState t k = 2 ∧ (linkSt t k).fails = 0 ∧
      ((∀ o ∈ s.outstanding, o.around ≠ some k) → fget t (pgHub 0) (Fl.hubLinkStatDetour k.val) = 0) ∧
      (spared = true → fget t (pgHub 0) (Fl.hubLinkStatSpared k.val) = 1) ∧ (s.outstanding = [] → t.mem = s.mem)) ∧
    (linkState s k = 1 → linkPowered s k = true → s.us ≤ (linkSt s k).trainAt + 30 → ∃ t, exec (.linkTrained k) s = .next t ∧
      linkState t k = 2 ∧ (linkSt t k).fails = 0 ∧ (linkSt t k).gridAt = s.now ∧ (s.outstanding = [] → t.mem = s.mem)) ∧
    (linkState s k = 3 → ∃ t, exec (.retrainFail k) s = .next t ∧ (linkSt t k).fails = (linkSt s k).fails + 1 ∧
      linkState t k = (if 2 ≤ (linkSt s k).fails then 4 else 3) ∧
      (2 ≤ (linkSt s k).fails → fget s (pgHub 0) Fl.faultClass = 0 → fget t (pgHub 0) Fl.faultClass = 0x0F ∧ fget t (pgHub 0) Fl.faultDetail = 2)) ∧
    (linkState s k = 1 → linkPowered s k = true → (linkSt s k).trainAt + 30 ≤ s.us → ∃ t, exec (.linkTrainTimeout k) s = .next t ∧
      (linkSt t k).fails = (linkSt s k).fails + 1 ∧ linkState t k = (if 2 ≤ (linkSt s k).fails then 4 else 1) ∧
      ((linkSt s k).fails < 2 → (linkSt t k).trainAt = s.us)) ∧
    (linkState s k = 3 ∨ linkState s k = 4 → k ≠ 3 → (∃ p, detourPath s (linkEnds k).1 (linkEnds k).2 = some p ∧ ∀ j ∈ p, linkState s j = 2) →
      ∃ t, exec (.detourReady k) s = .next t ∧ fget t (pgHub 0) (Fl.hubLinkStatDetour k.val) = 1 ∧
      (s.outstanding = [] → OnlyRegs (keysOf (pgHub 0) [0x800 + 4 * k.val]) s t)) ∧
    (linkState s k = 2 → (∀ o ∈ s.outstanding, o.around ≠ some k) → ∃ t, exec (.detourRelease k) s = .next t ∧
      fget t (pgHub 0) (Fl.hubLinkStatDetour k.val) = 0 ∧ OnlyRegs (keysOf (pgHub 0) [0x800 + 4 * k.val]) s t) ∧
    (∀ (who : Requester) (h : HubId), Accepted s who (pgHub h) 0x820 0 → fget s (pgHub h) Fl.lockCfg = 0 →
      ((fget s (pgHub 0) Fl.hubLinkCtrlForceDown).testBit k.val = false → ∃ t, exec (.forceDown who h k) s = .next t ∧ linkState t k = 4 ∧
        (fget t (pgHub 0) Fl.hubLinkCtrlForceDown).testBit k.val = true ∧ (∀ j : LinkId, j ≠ k → linkState t j = linkState s j)) ∧
      ((fget s (pgHub 0) Fl.hubLinkCtrlForceDown).testBit k.val = true → linkPowered s k = true → (linkSt s k).fails < 3 →
        ∃ t, exec (.forceDownRelease who h k) s = .next t ∧ linkState t k = 3 ∧
        (fget t (pgHub 0) Fl.hubLinkCtrlForceDown).testBit k.val = false ∧ (∀ j : LinkId, j ≠ k → linkState t j = linkState s j)))

/-- Requests by R31 and R33, held and routed by R23 to R26, checked by R378 and R379, queued by R298; completions by R24 and R187. -/
def Obligations.RequestsIntoTheAddressSpace : Prop :=
  (∀ (who : Requester) (q : Req) (s : State), (∀ o ∈ s.outstanding, ∀ k, o.place ≠ .held k) → (∀ o ∈ s.outstanding, o.id ≠ s.nextReq) →
      1 ≤ q.len → q.addr.toNat % 64 + q.len ≤ 64 → (q.write = true → q.data.length = q.len) →
      let a := q.addr.toNat
      let g := regionOf s who a
      let route := routeOf s (reqDie who) (regionDie a g)
      let fw := firewall s (reqPart s who) (reqSafe s who) q.write a g
      ((g = .regs → q.write = false) → ∃ t o, exec (.deviceRequest who q) s = .next t ∧ t.outstanding = s.outstanding ++ [o] ∧
        o.id = s.nextReq ∧ o.who = who ∧
        (g = .none → o.place = .answered ∧ o.err = some (0x0F, 5) ∧ t.mem = s.mem) ∧
        (g ≠ .none → (g = .regs → (regTarget a).isSome = true) → route = .noRoute → o.place = .answered ∧ o.err = some (0x0F, 3) ∧ t.mem = s.mem) ∧
        (∀ k : LinkId, g ≠ .none → (g = .regs → (regTarget a).isSome = true) → route = .held k → o.place = .held k ∧ t.mem = s.mem ∧
          t.regs = s.regs) ∧
        (∀ l d, route = .path l → fw = some d → (∃ h c, g = .ddr h c) ∨ (∃ h w, g = .window h w) ∨ (∃ u, g = .spad u) →
          o.place = .answered ∧ o.err = some (5, d) ∧ t.mem = s.mem ∧
          fget t (pgPart (reqPart s who)) Fl.partFwCntCount =
            min (fget s (pgPart (reqPart s who)) Fl.partFwCntCount + 1) (2 ^ Fl.partFwCntCount.width - 1)) ∧
        (∀ l h, route = .path l → fw = none → (∃ c, g = .ddr h c) ∨ (∃ w, g = .window h w) →
          o.place = .sent ∧ o.path = l ∧ t.mem = s.mem ∧
          ∃ r, (hubSt t h).reqs = (hubSt s h).reqs ++ [r] ∧ r.id = some o.id ∧ r.part = reqPart s who ∧ r.write = q.write ∧ r.addr = a ∧
            r.len = q.len ∧ (q.write = true → r.data = q.data) ∧ ∀ k, l.getLast? = some k → r.cls = if k.val ≤ 1 then b2n q.write else 2) ∧
        (∀ u : TileId, g = .spad u → grantOf s who q.write a = .served → o.place = .answered ∧ o.err = none ∧
          t.mem = (if q.write then memWrite s.mem (physAddr s a) q.data else s.mem) ∧
          (q.write = false → o.data = peek s (physAddr s a) q.len) ∧ RegsBut s t (conflictKeys (redirTile s u))) ∧
        (∀ l x, g = .regs → regTarget a = some x → route = .path l → fw = none →
          ((q.len ≠ 4 ∨ x.2 % 4 ≠ 0) → o.err = none ∧ t.mem = s.mem ∧ o.data = List.replicate q.len 0 ∧
            (fget s x.1 Fl.faultClass = 0 → fget t x.1 Fl.faultClass = 6 ∧ fget t x.1 Fl.faultDetail = 8)) ∧
          (∀ d, q.len = 4 → x.2 % 4 = 0 → readRefusal s who x.1 = some d → o.err = some (5, d) ∧ t.mem = s.mem))) ∧
      (∀ l x, g = .regs → q.write = true → regTarget a = some x → route = .path l → fw = none →
        ((q.len ≠ 4 ∨ x.2 % 4 ≠ 0) → ∃ t o, exec (.deviceRequest who q) s = .next t ∧ t.outstanding = s.outstanding ++ [o] ∧ o.err = none ∧
          t.mem = s.mem ∧ (fget s x.1 Fl.faultClass = 0 → fget t x.1 Fl.faultClass = 6 ∧ fget t x.1 Fl.faultDetail = 8)) ∧
        (∀ d, q.len = 4 → x.2 % 4 = 0 → writeRefusal s who x.1 x.2 (nth 0 (wordsOf q.data) 0) = some d →
          ∃ t o, exec (.deviceRequest who q) s = .next t ∧ t.outstanding = s.outstanding ++ [o] ∧ o.err = some (5, d) ∧ t.mem = s.mem))) ∧
    (∀ (id : Nat) (o : Outstanding) (s : State), s.outstanding.find? (fun o => decide (o.id = id) && decide (o.place = .answered)) = some o →
      (o.epoch ≠ reqEpoch s o.who → ∃ t, exec (.responseReceive id) s = .next t ∧ (∀ x ∈ t.outstanding, x.id ≠ id) ∧
        t = { s with outstanding := t.outstanding }) ∧
      (o.epoch = reqEpoch s o.who → ∃ t, exec (.responseReceive id) s = .next t ∧
        (o.err = none → strmOf o.who = none → t.completed = some o ∧ (∀ x ∈ t.outstanding, x.id ≠ id) ∧
          t = { s with completed := t.completed, outstanding := t.outstanding }) ∧
        (∀ (u : TileId) (e : Engine) (c d : Nat), o.err = some (c, d) → o.who = .tile u e → tileFaulted (tile t u) = true)))

/-- Frames by R325 to R327, their samples by R339. -/
def Obligations.CameraFramesBeginAndEnd : Prop :=
  ∀ (n : Port) (s : State),
    (pageOn s (pgCam n) = true → (camSt s n).frame = none → fget s (pgIsp n) Fl.state ≠ 1 → fget s (pgTap n) Fl.state ≠ 1 →
      ∃ t, exec (.frameBegin n) s = .next t ∧ (camSt t n).frame = some s.us ∧ (camSt t n).cause = 0 ∧
        fget t (pgCam n) Fl.camFrameCntFrames = (fget s (pgCam n) Fl.camFrameCntFrames + 1) % 2 ^ 32 ∧
        ((∀ r ∈ camRings n, (ringSt s r).closing = false) → t.mem = s.mem) ∧
        ∀ r ∈ camRings n, (ringTakes s n r = false → ringSt t r = ringSt s r) ∧
          (ringTakes s n r = true → (ringSt s r).closing = false → 0 < ringFree (ringSt s r) →
            (ringSt t r).held = (ringSt s r).held + 1 ∧ (ringSt t r).seq = ((ringSt s r).seq + 1) % 2 ^ 32 ∧
            (ringSt t r).samples = (ringSt s r).samples ++
              [⟨(ringSt s r).seq, false, 0, 0, fget s (pgCam n) Fl.camFrameCntFrames, camExt s n r⟩]) ∧
          (ringTakes s n r = true → (ringSt s r).closing = false → ringFree (ringSt s r) = 0 → ringSt t r = ringSt s r ∧
            ringGet t r 0x18 0 32 = min (ringGet s r 0x18 0 32 + 1) (2 ^ 32 - 1))) ∧
    (∀ (lines : List (List (BitVec 16))), (camSt s n).frame.isSome = true →
      ∃ t, exec (.frameEnd n lines) s = .next t ∧ (camSt t n).frame = none ∧ (camSt t n).cause = 0 ∧ (camSt t n).ended = (camSt s n).ended + 1 ∧
        bitAt (rd t (pgCam n) 0x010) 8 = true ∧
        ∀ r ∈ camRings n, (∀ m ∈ (ringSt t r).samples, m.ready = true) ∧
          ((ringSt s r).on = true → (camSt s n).cause ≠ 0 → ∀ m ∈ openSamples s r,
            ∃ m' ∈ (ringSt t r).samples, m'.seq = m.seq ∧ m'.cause = (camSt s n).cause)) ∧
    (∀ t0 : Nat, (camSt s n).frame = some t0 →
      (s.us < t0 + fget s (pgCam n) Fl.camFrameTimeoutUs → exec (.frameTimeout n) s = .next s) ∧
      (t0 + fget s (pgCam n) Fl.camFrameTimeoutUs ≤ s.us →
        ∃ t, exec (.frameTimeout n) s = .next t ∧ (camSt t n).frame = none ∧ (camSt t n).ended = (camSt s n).ended + 1 ∧
          (∀ r ∈ camRings n, ∀ m ∈ (ringSt t r).samples, m.ready = true) ∧
          (pageOn s (pgCam n) = true → s.groups = [] → s.shadow = [] → (∀ r ∈ camRings n, openSamples s r = []) →
            fget s (pgCam n) Fl.faultClass = 0 → fget t (pgCam n) Fl.faultClass = 0x0A ∧ fget t (pgCam n) Fl.faultDetail = 9))) ∧
    ((camSt s n).frame.isSome = true →
      (∃ t, exec (.inputOverflow n) s = .next t ∧ (camSt t n).cause = (if (camSt s n).cause = 0 then 0x0E else (camSt s n).cause) ∧
        t = { s with cams := t.cams }) ∧
      (∃ t, exec (.outputOverflow n) s = .next t ∧ (camSt t n).cause = (if (camSt s n).cause = 0 then 4 else (camSt s n).cause) ∧
        t = { s with cams := t.cams })) ∧
    ((camSt s n).frame = none → exec (.inputOverflow n) s = .next s ∧
      ((camSt s n).ended ≠ 0 → ∃ t, exec (.outputOverflow n) s = .next t ∧ t.cams = s.cams ∧
        ∀ r ∈ camRings n, ∀ m, (ringSt s r).samples.getLast? = some m → m.cause = 0 →
          ∃ m' ∈ (ringSt t r).samples, m'.seq = m.seq ∧ m'.cause = 4)) ∧
    ((camSt s n).ended ≠ 0 → portQuiet s n = true →
      ∃ t, exec (.frameDone n) s = .next t ∧ (camSt t n).ended + 1 = (camSt s n).ended ∧
        ((∀ pg ∈ camPages n, fget s pg Fl.state ≠ 3 ∧ fget s pg Fl.state ≠ 4) → t = { s with cams := t.cams })) ∧
    ((camSt s n).ended = 0 ∨ portQuiet s n = false → exec (.frameDone n) s = .next s)

/-- Power by R328, turning on by R329, the pin test by R330 and R331, the start check by R332. -/
def Obligations.CameraPowerAndStartCheck : Prop :=
  ∀ (n : Port) (s : State),
    let faulted := fun (t : State) (det : Nat) => fget t (pgCam n) Fl.state = 7 ∧ (camSt t n).phase = .none ∧ (camSt t n).frame = none ∧
      (fget s (pgCam n) Fl.faultClass = 0 → fget t (pgCam n) Fl.faultClass = 0x0A ∧ fget t (pgCam n) Fl.faultDetail = det)
    (s.softPend.contains (pgCam n) = false →
      (fget s (pgCam n) Fl.camPwrPwren = 1 → ∃ t, exec (.pwrFault n) s = .next t ∧ faulted t 8 ∧ fget t (pgCam n) Fl.camPwrFlt = 1 ∧
        fget t (pgCam n) Fl.camPwrPwren = 0) ∧
      (∀ (high low bridged : BitVec 19) (i : Nat), (camSt s n).phase = .pinTest →
        ((upTo 19).filter (pinUsed s n)).find? (fun i => high.getLsbD i || low.getLsbD i || bridged.getLsbD i) = some i →
        ∃ t, exec (.pinTest n high low bridged) s = .next t ∧ faulted t (if high.getLsbD i then 2 else if low.getLsbD i then 1 else 3)) ∧
      (∀ obs : CamObs, (camSt s n).phase = .startCheck → ∃ t, exec (.startCheck n obs) s = .next t ∧
        (obs.pclk = false → faulted t 4 ∧ fget t (pgCam n) Fl.camPinOpenPins = 1 ∧ fget t (pgCam n) Fl.camCheckStatResult = 2) ∧
        (obs.pclk = true → obs.hs = false ∨ obs.vs = false → faulted t 5 ∧ fget t (pgCam n) Fl.camCheckStatResult = 2 ∧
          fget t (pgCam n) Fl.camPinOpenPins = 2 * b2n (!obs.hs) + 4 * b2n (!obs.vs)) ∧
        (obs.pclk = true → obs.hs = true → obs.vs = true →
          (phaseHolds obs.hsActive (camW s n) = false → phaseHolds obs.hsInactive (camW s n) = false → faulted t 6) ∧
          (phaseHolds obs.hsActive (camW s n) = true ∨ phaseHolds obs.hsInactive (camW s n) = true → checkFound s n obs ≠ 0 →
            fon s (pgCam n) Fl.camTestAutoFix = false → faulted t 7 ∧ fget t (pgCam n) Fl.camCheckStatFound = checkFound s n obs)))) ∧
    (∀ high low bridged : BitVec 19, (camSt s n).phase = .pinTest →
      (∀ i, i < 19 → pinUsed s n i = true → high.getLsbD i = false ∧ low.getLsbD i = false ∧ bridged.getLsbD i = false) →
      ∃ t, exec (.pinTest n high low bridged) s = .next t ∧ (camSt t n).phase = .pwrDelay ∧ (camSt t n).since = s.us ∧
        fget t (pgCam n) Fl.camPinShortHiPins = high.toNat ∧ fget t (pgCam n) Fl.camPinShortLoPins = low.toNat ∧
        fget t (pgCam n) Fl.camPinBridgePins = bridged.toNat ∧ t.mem = s.mem) ∧
    ((camSt s n).phase = .pwrDelay →
      ((camSt s n).since + 1000 * fget s (pgCam n) Fl.camTestPwrDelay ≤ s.us → ∃ t, exec (.pwrDelay n) s = .next t ∧
        (camSt t n).phase = (if fget s (pgCam n) Fl.camTestCheck = 0 then .waitVs else .startCheck) ∧ t = { s with cams := t.cams }) ∧
      (s.us < (camSt s n).since + 1000 * fget s (pgCam n) Fl.camTestPwrDelay → exec (.pwrDelay n) s = .next s)) ∧
    (∀ obs : CamObs, (camSt s n).phase = .startCheck → obs.pclk = true → obs.hs = true → obs.vs = true →
      phaseHolds obs.hsActive (camW s n) = true ∨ phaseHolds obs.hsInactive (camW s n) = true →
      checkFound s n obs = 0 ∨ fon s (pgCam n) Fl.camTestAutoFix = true →
      ∃ t, exec (.startCheck n obs) s = .next t ∧ (camSt t n).phase = .waitVs ∧ fget t (pgCam n) Fl.camCheckStatResult = 1 ∧
        fget t (pgCam n) Fl.camCheckStatFound = checkFound s n obs ∧ t.mem = s.mem ∧
        rd t (pgCam n) 0x108 = rd s (pgCam n) 0x108 ^^^ BitVec.ofNat 32 (checkFound s n obs) ∧
        (checkFound s n obs ≠ 0 → fget t (pgCam n) Fl.camCheckStatApplied = 1))

/-- Rings by R339 to R346, slices and submission by R347 and R350, what the engines make by R352 to R357. -/
def Obligations.RingsAndSharedEngines : Prop :=
  ∀ s : State,
    (∀ (r : RingId) (m : Sample) (rest : List Sample), (ringSt s r).samples = m :: rest →
      let last := decide (m.seq % ringBatch s r + 1 = ringBatch s r)
      let words := statusWords m last ((ringSt s r).mask ||| (if m.cause = 0 then 2 ^ (m.seq % ringBatch s r) else 0))
      let at' := recAddr (ringSt s r) m.seq
      (m.ready = true → unacked s (ringWho r) (bufAddr (ringSt s r) m.seq) (ringSt s r).stride = false → (last = true → recsUnacked s r = false) →
        ∃ t, exec (.sampleStatusWrite r) s = .next t ∧ (ringSt t r).samples = rest ∧
        (ringSt t r).acks = (if last then (ringSt s r).acks + 1 else (ringSt s r).acks) ∧
        (at' % 64 ≤ 48 → at' < 2 ^ 40 → ∃ o ∈ t.outstanding, o.who = ringWho r ∧ o.req = ⟨true, BitVec.ofNat 40 at', 16, words.flatMap wordBytes⟩)) ∧
      (m.ready = false ∨ unacked s (ringWho r) (bufAddr (ringSt s r) m.seq) (ringSt s r).stride = true ∨ (last = true ∧ recsUnacked s r = true) →
        exec (.sampleStatusWrite r) s = .next s)) ∧
    (∀ r : RingId, ((ringSt s r).acks ≠ 0 → recsUnacked s r = false → ∃ t, exec (.batchDone r) s = .next t ∧
        (ringSt t r).acks + 1 = (ringSt s r).acks ∧ bitAt (rd t (ringPage r) 0x010) (batchIrq r) = true ∧ t.mem = s.mem) ∧
      ((ringSt s r).acks = 0 ∨ recsUnacked s r = true → exec (.batchDone r) s = .next s)) ∧
    (∀ (who : Requester) (r : RingId) (count : Nat), Accepted s who (ringPage r) (ringOff r + 0x14) 0 → count < 64 →
      (autoChans s r = [] → ringGet s r 12 16 1 = 0 ∨ (ringSt s r).on = true →
        ∃ t, exec (.ringRel who r count) s = .next t ∧ (ringSt t r).held = (ringSt s r).held - count ∧ t = { s with rings := t.rings }) ∧
      (autoChans s r ≠ [] → exec (.ringRel who r count) s = .next s)) ∧
    (∀ r : RingId, (ringSt s r).closing = true → batchOpen s r = true →
      let left := ringBatch s r - (ringSt s r).seq % ringBatch s r
      let k := min (ringFree (ringSt s r)) left
      (ringSt s r).seq + k < 2 ^ 32 → (∀ m ∈ (ringSt s r).samples, m.seq < (ringSt s r).seq) →
      ∃ t, exec (.batchClose r) s = .next t ∧ (ringSt t r).held = (ringSt s r).held + k ∧ (ringSt t r).seq = (ringSt s r).seq + k ∧
        (ringSt t r).closing = decide (ringFree (ringSt s r) < left) ∧
        (ringSt t r).samples = (ringSt s r).samples ++
          (List.range k).map (fun i => ⟨(ringSt s r).seq + i, true, 6, 0, closeInfo s r, closeExt s r⟩)) ∧
    (∀ e : SharedEng, ∃ t, exec (.sliceSwitch e) s = .next t ∧ sliceNow t e = (sliceNow s e + 1) % 32 ∧ t = { s with slices := t.slices }) ∧
    (∀ (who : Requester) (e : SharedEng) (c : Chan) (v : Word), Accepted s who (pgEng e) (Fl.chSubCtlGo c.val).off 0 →
      (v.toNat.testBit 0 = false ∨ fget s (pgEng e) (Fl.chAutoEn c.val) = 1 → exec (.chSubmit who e c v) s = .next s) ∧
      (v.toNat.testBit 0 = true → fget s (pgEng e) (Fl.chAutoEn c.val) = 0 →
        ((engChan s e c).queue.length < 8 → ∃ t, exec (.chSubmit who e c v) s = .next t ∧
          (engChan t e c).queue = (engChan s e c).queue ++ [⟨fget s (pgEng e) (Fl.chSubLoAddr c.val) + 2 ^ 32 * fget s (pgEng e) (Fl.chSubHiAddr c.val),
            fget s (pgEng e) (Fl.chSubHiBytes c.val), v.toNat.testBit 1, 0, none⟩] ++
            (engChan s e c).wait.take (7 - (engChan s e c).queue.length) ∧
          fget t (pgEng e) (Fl.chStatQueued c.val) = (engChan t e c).queue.length ∧ t.mem = s.mem) ∧
        (8 ≤ (engChan s e c).queue.length → ∃ t, exec (.chSubmit who e c v) s = .next t ∧
          fget t (pgEng e) (Fl.chStatRefused c.val) = min (fget s (pgEng e) (Fl.chStatRefused c.val) + 1) 0xFFFF ∧
          OnlyRegs (keysOf (pgEng e) [(Fl.chStatRefused c.val).off]) s t))) ∧
    (∀ (c : Chan) (w : WorkEnt) (rest : List WorkEnt),
      (TakesEntry s .warp c w rest → (warpMake c w (taken s .warp c rest)).1.wait = none →
        ∃ t, exec (.warpSample c) s = .next t ∧ SampleMade s t .warp c w rest (warpMake c w (taken s .warp c rest))) ∧
      (TakesEntry s .codec c w rest → within 1 3 (cdf s Fl.codecChModeMode c) = true → (decodeMake c w (taken s .codec c rest)).1.wait = none →
        ∃ t, exec (.codecDecode c) s = .next t ∧ SampleMade s t .codec c w rest (decodeMake c w (taken s .codec c rest))) ∧
      (TakesEntry s .codec c w rest → within 4 5 (cdf s Fl.codecChModeMode c) = true → (encodeMake c w (taken s .codec c rest)).1.wait = none →
        ∃ t, exec (.codecEncode c) s = .next t ∧ SampleMade s t .codec c w rest (encodeMake c w (taken s .codec c rest))) ∧
      (TakesEntry s .token c w rest → (tokenMake c w (taken s .token c rest)).1.wait = none →
        ∃ t, exec (.tokenize c) s = .next t ∧ SampleMade s t .token c w rest (tokenMake c w (taken s .token c rest))))

/-- The subset of R366; what R366 takes from the SD specifications is the model's (log 80). -/
def Obligations.SdioPortCommands : Prop :=
  ∀ (p : PartId) (arg : Word) (s : State),
    (hears s p = false → exec (.cmd0 p arg) s = .next s ∧ exec (.cmd5 p arg) s = .next s ∧ exec (.cmd7 p arg) s = .next s) ∧
    (hears s p = true →
      (∃ t, exec (.cmd0 p arg) s = .next t ∧ sdioSt t p = { sdioSt s p with answered := false } ∧ t = { s with sdio := t.sdio }) ∧
      (∃ t, exec (.cmd5 p arg) s = .next t ∧ (sdioSt t p).answered = true ∧
        (sdioSt t p).resp.toNat / 2 ^ 24 = 0xA0 + b2n (Config.vddioSd18 p.val) ∧ (sdioSt t p).card = (sdioSt s p).card ∧ t = { s with sdio := t.sdio }) ∧
      ((sdioSt s p).card = .idle ∨ (sdioSt s p).card = .standby → ∃ t, exec (.cmd3 p arg) s = .next t ∧ (sdioSt t p).card = .standby ∧
        1 ≤ (sdioSt t p).rca ∧ (sdioSt t p).rca ≤ 0xFFFF ∧ (sdioSt t p).resp = BitVec.ofNat 32 ((sdioSt t p).rca * 65536) ∧
        (sdioSt t p).answered = true ∧ fget t (pgSdio p) Fl.sdioStatusReady = 1 ∧ t.mem = s.mem) ∧
      ((sdioSt s p).card = .standby → argRca arg = (sdioSt s p).rca → ∃ t, exec (.cmd7 p arg) s = .next t ∧ (sdioSt t p).card = .selected ∧
        (sdioSt t p).answered = true ∧ t.regs = s.regs ∧ t.mem = s.mem) ∧
      ((sdioSt s p).card = .selected → argRca arg ≠ (sdioSt s p).rca → ∃ t, exec (.cmd7 p arg) s = .next t ∧ (sdioSt t p).card = .standby ∧
        (sdioSt t p).answered = false ∧ t.regs = s.regs ∧ t.mem = s.mem) ∧
      ((sdioSt s p).card = .selected → ∃ t, exec (.cmd3 p arg) s = .next t ∧ (sdioSt t p).answered = false ∧ t = { s with sdio := t.sdio }) ∧
      ((sdioSt s p).card = .standby → argRca arg ≠ (sdioSt s p).rca → ∃ t, exec (.cmd7 p arg) s = .next t ∧ (sdioSt t p).card = .standby ∧
        (sdioSt t p).answered = false ∧ t = { s with sdio := t.sdio }) ∧
      ((sdioSt s p).card = .selected → argRca arg = (sdioSt s p).rca → ∃ t, exec (.cmd7 p arg) s = .next t ∧ (sdioSt t p).card = .selected ∧
        (sdioSt t p).answered = true ∧ t.regs = s.regs ∧ t.mem = s.mem) ∧
      (Config.vddioSd18 p.val = true → ∃ t, exec (.cmd11 p arg) s = .next t ∧ (sdioSt t p).uhs = true ∧
        fget t (pgSdio p) Fl.sdioStatusMode = 2 ∧ (sdioSt t p).answered = true ∧ t.mem = s.mem) ∧
      (Config.vddioSd18 p.val = false → ∃ t, exec (.cmd11 p arg) s = .next t ∧ (sdioSt t p).answered = false ∧ t = { s with sdio := t.sdio }) ∧
      ((sdioSt s p).card = .standby ∨ (sdioSt s p).card = .selected → argRca arg = (sdioSt s p).rca →
        ∃ t, exec (.cmd15 p arg) s = .next t ∧ (sdioSt t p).card = .inactive ∧ hears t p = false ∧ t = { s with sdio := t.sdio }) ∧
      ((sdioSt s p).card = .selected → Config.vddioSd18 p.val = true → ∃ t, exec (.cmd19 p arg) s = .next t ∧
        (sdioSt t p).rdata = tuningBlock ∧ (sdioSt t p).answered = true ∧ t.regs = s.regs ∧ t.mem = s.mem) ∧
      ((sdioSt s p).card ≠ .selected ∨ Config.vddioSd18 p.val = false → ∃ t, exec (.cmd19 p arg) s = .next t ∧
        (sdioSt t p).answered = false ∧ t = { s with sdio := t.sdio }) ∧
      (argRca arg ≠ (sdioSt s p).rca → ∃ t, exec (.cmd15 p arg) s = .next t ∧ (sdioSt t p).card = (sdioSt s p).card ∧
        (sdioSt t p).answered = false ∧ t = { s with sdio := t.sdio }) ∧
      (∀ idx : Fin 64, isSubset idx.val = false → ∃ t, exec (.illegalCommand p idx) s = .next t ∧ (sdioSt t p).resp = r5 flagIllegal 0 ∧
        (sdioSt t p).answered = true ∧ (sdioSt t p).card = (sdioSt s p).card ∧ t = { s with sdio := t.sdio }))

/-- Function 0 by R366, the window by R367 and R368, the mailbox and the bulk queue by R370, the header store by R476. -/
def Obligations.SdioTransfers : Prop :=
  ∀ (p : PartId) (s : State), (sdioSt s p).card = .selected →
    (hears s p = true → ∀ arg : Word,
      (argFn arg = 0 → argWrite arg = false → ∃ t, exec (.cmd52 p arg) s = .next t ∧ (sdioSt t p).resp = r5 0 (ciaRead s p (argAddr arg)) ∧
        (sdioSt t p).answered = true ∧ t = { s with sdio := t.sdio }) ∧
      (2 < argFn arg → ∃ t, exec (.cmd52 p arg) s = .next t ∧ (sdioSt t p).resp = r5 flagFunction 0 ∧ t = { s with sdio := t.sdio }) ∧
      (∀ a : Nat, argFn arg = 1 → sdioAddr s p 1 (argAddr arg) = some a → inRegs s p 1 (argAddr arg) = false → regTarget a = none →
        (grantOf s (.host p) (argWrite arg) a = .served →
          (argWrite arg = true → bitAt arg 27 = false → ∃ t, exec (.cmd52 p arg) s = .next t ∧
            t.mem = memWrite s.mem (physAddr s a) [BitVec.ofNat 8 arg.toNat] ∧ (sdioSt t p).resp = r5 0 (BitVec.ofNat 8 arg.toNat)) ∧
          (argWrite arg = false → ∃ t, exec (.cmd52 p arg) s = .next t ∧ (sdioSt t p).resp = r5 0 (memGet s.mem (physAddr s a)) ∧
            t.mem = s.mem)) ∧
        ((fnWaits s p 1 (argWrite arg) (argAddr arg)).isSome = true → ∃ t, exec (.cmd52 p arg) s = .next t ∧
          (sdioSt t p).busy = some (false, arg, []) ∧ (sdioSt t p).answered = false ∧ t.mem = s.mem))) ∧
    (transfers s p = true →
      (∀ (arg : Word) (d : List Byte),
        (2 < argFn arg → ∃ t, exec (.cmd53 p arg d) s = .next t ∧ (sdioSt t p).resp = r5 flagFunction 0 ∧ t = { s with sdio := t.sdio }) ∧
        (argFn arg = 0 → argWrite arg = false → bitAt arg 27 = false → ∃ t, exec (.cmd53 p arg d) s = .next t ∧ (sdioSt t p).resp = r5 0 0 ∧
          (sdioSt t p).rdata = (List.range (count53 s p arg d)).map (fun i =>
            ciaRead s p (if bitAt arg 26 then argAddr arg + i else argAddr arg)) ∧ t = { s with sdio := t.sdio }) ∧
        (argFn arg = 1 → (bitAt arg 27 = true → 1 ≤ blockSize s p 1 ∧ blockSize s p 1 ≤ 512) →
          (∀ c ∈ pieces53 s p arg d, inRegs s p 1 c.1 = false ∧ regTarget (winBase s p + c.1 % 0x20000) = none ∧
            grantOf s (.host p) (argWrite arg) (winBase s p + c.1 % 0x20000) = .served) →
          ∃ t, exec (.cmd53 p arg d) s = .next t ∧ (sdioSt t p).resp = r5 0 0 ∧ (sdioSt t p).answered = true ∧
            (argWrite arg = true → t.mem = (pieces53 s p arg d).foldl (fun m c =>
              memWrite m (physAddr s (winBase s p + c.1 % 0x20000)) ((d.drop c.2.1).take c.2.2)) s.mem) ∧
            (argWrite arg = false → t.mem = s.mem ∧ (sdioSt t p).rdata = (pieces53 s p arg d).flatMap (fun c =>
              peek s (physAddr s (winBase s p + c.1 % 0x20000)) c.2.2)))) ∧
      (∀ d : List Byte, d.length = 64 →
        ((sdioSt s p).toFw.length < 8 → ∃ t, exec (.mboxWrite p d) s = .next t ∧ (sdioSt t p).toFw = (sdioSt s p).toFw ++ [d] ∧
          fget t (pgSdio p) Fl.sdioMboxStatToFw = (sdioSt s p).toFw.length + 1 ∧ bitAt (rd t (pgSdio p) 0x010) 8 = true ∧ t.mem = s.mem) ∧
        (8 ≤ (sdioSt s p).toFw.length → ∃ t, exec (.mboxWrite p d) s = .next t ∧ (sdioSt t p).toFw = (sdioSt s p).toFw ∧
          fget t (pgSdio p) Fl.sdioErrCntMbox = min (fget s (pgSdio p) Fl.sdioErrCntMbox + 1) 0xFF ∧ t.mem = s.mem)) ∧
      (∀ (m : List Byte) (rest : List (List Byte)), (sdioSt s p).toHost = m :: rest → ∃ t, exec (.mboxRead p) s = .next t ∧
        (sdioSt t p).rdata = m ∧ (sdioSt t p).toHost = rest ∧ t.mem = s.mem) ∧
      ((sdioSt s p).toHost = [] → ∃ t, exec (.mboxRead p) s = .next t ∧ (sdioSt t p).rdata = List.replicate 64 0 ∧ t = { s with sdio := t.sdio }) ∧
      (∀ d : List Byte, bulkSize s p = 0 → ∃ t, exec (.bulkWrite p d) s = .next t ∧ (sdioSt t p).resp = r5 flagError 0 ∧
        t = { s with sdio := t.sdio }) ∧
      (∀ d : List Byte, p.val = 0 → s.boot.push = true → bulkSize s p ≠ 0 → ∃ t, exec (.bulkWrite p d) s = .next t ∧
        t.boot.header = s.boot.header ++ d.take (0x2000 - s.boot.header.length)) ∧
      (∀ d : List Byte, d ≠ [] → s.boot.push = false → bulkSize s p ≠ 0 →
        (d.length ≤ 512 → (sdioSt s p).used + d.length ≤ bulkSize s p → bulkWait s p d.length = none → ∃ t, exec (.bulkWrite p d) s = .next t ∧
          (sdioSt t p).used = (sdioSt s p).used + d.length ∧ (sdioSt t p).bulk = none ∧ (sdioSt t p).answered = true ∧
          (sdioSt t p).resp = r5 0 0 ∧ bitAt (rd t (pgSdio p) 0x010) 9 = true ∧
          fget t (pgSdio p) Fl.sdioBulkWrOffset = (fget s (pgSdio p) Fl.sdioBulkWrOffset + d.length) % bulkSize s p % 2 ^ Fl.sdioBulkWrOffset.width) ∧
        (d.length ≤ 512 → (sdioSt s p).used + d.length ≤ bulkSize s p → (bulkWait s p d.length).isSome = true →
          ∃ t, exec (.bulkWrite p d) s = .next t ∧ (sdioSt t p).used = (sdioSt s p).used ∧ (sdioSt t p).bulk = some ([d], s.us) ∧
          (sdioSt t p).answered = false ∧ t.mem = s.mem) ∧
        (bulkSize s p < (sdioSt s p).used + min 512 d.length → ∃ t, exec (.bulkWrite p d) s = .next t ∧ (sdioSt t p).used = (sdioSt s p).used ∧
          (sdioSt t p).bulk = some (blocksOf 512 d, s.us) ∧ (sdioSt t p).answered = false ∧ t = { s with sdio := t.sdio }))) ∧
    (∀ (bs : List (List Byte)) (a : Nat), (sdioSt s p).bulk = some (bs, a) →
      (a + 10000 ≤ s.us → ∃ t, exec (.bulkTimeout p) s = .next t ∧ (sdioSt t p).bulk = none ∧ (sdioSt t p).resp = r5 0x8000 0 ∧
        (sdioSt t p).answered = true ∧ t = { s with sdio := t.sdio }) ∧
      (s.us < a + 10000 → exec (.bulkTimeout p) s = .next s))

/-- Submission by R383 and R384, release by R385 and R398, placement by R386 and R391, loading and start by R387 and R388, resuming by R393. -/
def Obligations.JobsAreSubmittedReleasedAndStarted : Prop :=
  ∀ (p : PartId) (s : State),
    (∀ (who : Requester) (v : Word), Accepted s who (pgPart p) 0x214 0 → fget s pgPwr Fl.pwrIdleState ≠ 1 → fget s (pgPart p) Fl.lockCfg = 0 →
      Fl.partJobSubHiGo.get v = 1 →
      let a := fget s (pgPart p) Fl.partJobSubLoAddr * 64 + 2 ^ 32 * Fl.partJobSubHiAddr.get v
      (fwRuns s = false → ∃ t, exec (.jobSubmit who p v) s = .next t ∧ t.jobs = s.jobs ∧ t.mem = s.mem ∧ t.submits = s.submits ++ [(p, a)]) ∧
      (fwRuns s = true → (∀ x ∈ s.submits, x.1 ≠ p) →
        ∃ t, exec (.jobSubmit who p v) s = .next t ∧
          (∀ j, (queuedJobs s p).length < 16 → fetchJob s p a s.nextJid = .got j → t.jobs = s.jobs ++ [j] ∧ t.nextJid = s.nextJid + 1 ∧
            t.submits = s.submits ∧ t.mem = s.mem) ∧
          ((16 ≤ (queuedJobs s p).length ∨ ∃ g, fetchJob s p a s.nextJid = .fails g) → t.jobs = s.jobs ∧ t.submits = s.submits ∧
            fget t (pgPart p) Fl.partJobStatRefused =
              min (fget s (pgPart p) Fl.partJobStatRefused + 1) (2 ^ Fl.partJobStatRefused.width - 1)))) ∧
    (∀ j : JobRun, fwRuns s = false ∨ (∀ x ∈ s.submits, x.1 ≠ p) →
      s.jobs.find? (fun j => decide (j.part = p) && canRelease s j) = some j →
      ∃ t, exec (.jobRelease p) s = .next t ∧ t.nextRel = s.nextRel + 1 ∧
        cplOf t p = { next := ((cplOf s p).next + 1) % cplSize s p, held := (cplOf s p).held ++ [((cplOf s p).next, false)] } ∧
        (∀ x ∈ t.jobs, x.jid = j.jid → x.stage = .released ∧ x.relNo = s.nextRel + 1 ∧ x.start = partCount s p ∧ x.entry = (cplOf s p).next) ∧
        (∀ x, x.jid ≠ j.jid → (x ∈ t.jobs ↔ x ∈ s.jobs)) ∧ (jwFrame j.words = false → t.regs = s.regs ∧ t.window = s.window) ∧ t.mem = s.mem ∧
        (jwFrame j.words = true → fget s (pgPart p) Fl.partWinLenCycles ≠ 0 → ∃ rsv, fget s (pgPart p) Fl.partWinRsvCycles ≤ rsv ∧
          windowOf t p = some ⟨partCount s p, fget s (pgPart p) Fl.partWinLenCycles, rsv, false⟩)) ∧
    (∀ j : JobRun, placeHead s p = some j →
      let idle := (maskTiles s p).filter (tileIdle s p)
      let pref := j.prefer.filter idle.contains
      let order := pref ++ (byGroup s j.words idle).filter (fun t => !pref.contains t)
      let fits := barHolders s p j.words = [] ∧ jwTiles j.words ≤ idle.length
      (inReserve s p = true → exec (.jobPlacement p) s = .next s) ∧
      (inReserve s p = false → fits → ∃ t, exec (.jobPlacement p) s = .next t ∧ (∀ x ∈ t.jobs, x.jid = j.jid → x.stage = .loading ∧
        x.tiles = ascending (order.take (jwTiles j.words))) ∧ (∀ x, x.jid ≠ j.jid → (x ∈ t.jobs ↔ x ∈ s.jobs))) ∧
      (inReserve s p = false → ¬ fits → jwSafe j.words = false → exec (.jobPlacement p) s = .next s) ∧
      (inReserve s p = false → ¬ fits → jwSafe j.words = true →
        (victims s j idle.length = none → exec (.jobPlacement p) s = .next s) ∧
        (∀ vs, victims s j idle.length = some vs → (∀ v ∈ vs, v.jid ≠ j.jid) → ∃ t, exec (.jobPlacement p) s = .next t ∧
          (∀ x ∈ t.jobs, x.jid = j.jid → x.stage = .loading) ∧
          (∀ v ∈ vs, (∀ x ∈ t.jobs, x.jid = v.jid → x.stage = .preempted ∧ x.wasPreempted = true) ∧
            bitAt (rd t (pgPart v.part) 0x010) 13 = true)))) ∧
    (∀ (j : JobRun), fwRuns s = true → findJob s p j.jid = some j → j.stage = .loading → tilesReady s j = true →
      let who : Requester := .fw p (jwSafe j.words)
      let list := if j.isFb then Fetch.got j.load else fetchList s who listFuel (jwProg j.words)
      (∀ (l : List LinkId) (ws : List Word), routeOf s .xd .cd = .path l → list = .got ws → firstWait s who (copySources ws.length ws) = none →
        (runList who j.tiles j.tiles j.resident (jwWset j.words) ws.length ws (giveTiles j s)).2 = none →
        ∃ t, exec (.jobStart p j.jid) s = .next t ∧ (∀ x ∈ t.jobs, x.jid = j.jid → x.stage = .running ∧ x.startNo = s.nextRel + 1) ∧
          (∀ n ∈ barList j.words, Tab.get 0 t.barriers (p, n) = 0)) ∧
      (∀ (l : List LinkId) g, (routeOf s .xd .cd = .path l ∧ list = .fails g) ∨ routeOf s .xd .cd = .noRoute → (∀ x ∈ s.jobs, x.jid = j.jid → x = j) →
        ∃ t, exec (.jobStart p j.jid) s = .next t ∧ ∀ x ∈ t.jobs, x.jid = j.jid → x.stage = .ending ∧ x.status = 1)) ∧
    (∀ (j : JobRun), fwRuns s = true → findJob s p j.jid = some j →
      (canResume s j = true → ∃ u, exec (.jobResume p j.jid) s = .next u ∧ (∀ x ∈ u.jobs, x.jid = j.jid → x.stage = .restoring) ∧
        (∀ t ∈ j.tiles, ctxBusy u t = true) ∧ u.mem = s.mem) ∧
      (j.stage = .restoring → (∀ t ∈ j.tiles, ctxBusy s t = false) →
        ∃ u, exec (.jobResume p j.jid) s = .next u ∧ (∀ x ∈ u.jobs, x.jid = j.jid → x.stage = .running ∧ x.bars = []) ∧
        (∀ t ∈ j.tiles, fget u (pgTile t) Fl.tileCtxCtlFreeze = 0) ∧
        (∀ b n, (b, n) ∈ j.bars → (∀ m, (b, m) ∈ j.bars → m = n) → Tab.get 0 u.barriers (p, b) = n % 2 ^ 16) ∧ u.mem = s.mem)) ∧
    (∀ (who : Requester) (v : Word), Accepted s who (pgPart p) 0x220 0 → fget s pgPwr Fl.pwrIdleState ≠ 1 →
      ∃ t k, exec (.cplRel who p v) s = .next t ∧ k ≤ Fl.partCplRelCount.get v ∧ (cplOf t p).held = (cplOf s p).held.drop k ∧
        (∀ e ∈ (cplOf s p).held.take k, e.2 = true) ∧
        (k = Fl.partCplRelCount.get v ∨ (cplOf t p).held.head?.elim True (fun e => e.2 = false)) ∧
        (cplOf t p).next = (cplOf s p).next ∧ t = { s with cpl := t.cpl }) ∧
    (∀ who : Requester, partReaches s (reqPart s who) (pgPart p) = true → mayReadBy s (reqPart s who) (pgPart p) 0x200 = true →
      ∃ t, exec (.partCntRead who p) s = .next t ∧ fget t (pgPart p) Fl.partCntHiCount = partCount s p / 2 ^ 32 % 2 ^ 32 ∧
        OnlyRegs (keysOf (pgPart p) [0x204]) s t)

/-- Ends by R389 and R390, misses by R395 to R397, windows by R398, cancels by R384 and R389, tokens by R401. -/
def Obligations.JobsEndMissAndAreCancelled : Prop :=
  ∀ (p : PartId) (s : State),
    (∀ j : JobRun, findJob s p j.jid = some j → hasEnded s j = true → j.jid < s.nextJid →
      let a := fgetAddr s (pgPart p) Fl.partCplBaseLoBase Fl.partCplBaseHiBase + 32 * j.entry
      let follows := j.stage ≠ .running ∧ j.status ≠ 1 ∧ j.noFallback = false ∧ j.isFb = false ∧ j.fbWords ≠ []
      firstWait s (.fw p (jwSafe j.words)) [(a, 32)] = none →
      ∃ t, exec (.jobEnd p j.jid) s = .next t ∧ (∀ x ∈ t.jobs, x.jid ≠ j.jid) ∧
        bitAt (rd t (pgPart p) 0x010) (if j.stage = .running then 8 else 9) = true ∧
        (s.groups = [] → t.mem = (pokeReq (.fw p (jwSafe j.words)) a ((cplWords j (partCount s p)).flatMap wordBytes) s).mem) ∧
        (¬ follows → (cplOf t p).held = (cplOf s p).held.map (fun e => if e.1 = j.entry then (e.1, true) else e)) ∧
        (follows → ∃ x ∈ t.jobs, x.jid = s.nextJid ∧ x.isFb = true ∧ x.words = j.fbWords ∧ x.prefer = j.tiles)) ∧
    (∀ j : JobRun, findJob s p j.jid = some j → hasEnded s j = false → exec (.jobEnd p j.jid) s = .next s) ∧
    (∀ j : JobRun, findJob s p j.jid = some j → watched j = true → j.part = p →
      (∀ (m : Nat) (b : MarkBudget), j.marks[m]? = some b → markReached j b = false →
        (j.start + b.deadline ≤ partCount s p → ∃ t, exec (.markMissed p j.jid m) s = .next t ∧
          (fget s (pgPart p) Fl.faultClass = 0 →
            fget t (pgPart p) Fl.faultClass = 0x0C ∧ fget t (pgPart p) Fl.faultDetail = (if j.isFb then 4 else 1)) ∧
          fget t (pgPart p) Fl.partDlLastJobId = jwId j.words ∧ fget t (pgPart p) Fl.partDlLastMark = b.mark % 256 ∧
          bitAt (rd t (pgPart p) 0x010) 10 = true ∧ (∀ x ∈ t.jobs, x.jid = j.jid → x.stage = .ending ∧ x.status = 2 ∧ x.missed = b.mark)) ∧
        (partCount s p < j.start + b.deadline → exec (.markMissed p j.jid m) s = .next s)) ∧
      (jwBudget j.words ≠ 0 → j.start + jwBudget j.words ≤ partCount s p →
        ∃ t, exec (.jobBudgetMissed p j.jid) s = .next t ∧
          (fget s (pgPart p) Fl.faultClass = 0 → fget t (pgPart p) Fl.faultClass = 0x0C ∧
            fget t (pgPart p) Fl.faultDetail = (if j.isFb then 4 else 2)) ∧ fget t (pgPart p) Fl.partDlLastMark = 0xFF ∧
          (∀ x ∈ t.jobs, x.jid = j.jid → x.stage = .ending ∧ x.status = 2 ∧ x.missed = 0xFF)) ∧
      (partCount s p < j.start + jwBudget j.words → exec (.jobBudgetMissed p j.jid) s = .next s)) ∧
    (∀ w : FrameWin, windowOf s p = some w →
      (w.reserved = false → inReserve s p = true →
        ∃ t, exec (.windowReserve p) s = .next t ∧ windowOf t p = some { w with reserved := true } ∧
          ∀ j ∈ s.jobs, j.part = p → j.stage = .loading ∨ j.stage = .running ∨ j.stage = .restoring →
            ∀ x ∈ t.jobs, x.jid = j.jid → x.stage = .ending ∧ x.status = 3 ∧ x.noFallback = true) ∧
      (w.reserved = true ∨ inReserve s p = false → exec (.windowReserve p) s = .next s) ∧
      (w.start + w.len ≤ partCount s p → ∃ t, exec (.windowClose p) s = .next t ∧ windowOf t p = none ∧ t = { s with window := t.window }) ∧
      (partCount s p < w.start + w.len → exec (.windowClose p) s = .next s)) ∧
    (∀ (who : Requester) (v : Word) (j : JobRun), Accepted s who (pgPart p) 0x21C 0 → fget s pgPwr Fl.pwrIdleState ≠ 1 →
      Fl.partJobCancelGo.get v = 1 →
      s.jobs.find? (fun j => decide (j.part = p) && j.stage != .ending && decide (jwId j.words = Fl.partJobCancelJobId.get v)) = some j →
      (j.stage = .queued → ∃ t, exec (.jobCancel who p v) s = .next t ∧ t.jobs = s.jobs.filter (fun x => x.jid != j.jid) ∧
        t = { s with jobs := t.jobs }) ∧
      (j.stage ≠ .queued → ∃ t, exec (.jobCancel who p v) s = .next t ∧ ∀ x ∈ t.jobs, x.jid = j.jid → x.stage = .ending ∧ x.status = 4)) ∧
    (∀ (who : Requester) (v : Word), Accepted s who (pgPart p) 0x208 0 → fget s pgPwr Fl.pwrIdleState ≠ 1 →
      ∃ t, exec (.partSync who p v) s = .next t ∧ ∀ g ∈ s.groups, g.part = p → g.event = 3 → g.arg < 16 → bitAt v g.arg = true →
        (∀ x ∈ t.staged, x.pg ∉ g.members) ∧ (g.reopen = false → g ∉ t.groups) ∧
        ∀ pg ∈ g.members, pg.kind ∈ storeKinds → fget s pg Fl.lockCfg = 0 → (∀ h ∈ s.groups, ∀ m ∈ h.members, m.kind ≠ .part) →
          (∀ h ∈ s.groups, pg ∈ h.members → h = g) → ∀ (off : Nat) (w mask : Word), 0x100 ≤ off → ⟨pg, off, w, mask⟩ ∈ s.staged →
          (∀ y ∈ s.staged, y.pg = pg → y.off = off → y = ⟨pg, off, w, mask⟩) → Stores s t pg off w mask)

/-- Contexts by R392 and R393, their control by R404. -/
def Obligations.ContextsAreSavedAndRestored : Prop :=
  ∀ (t : TileId) (s : State),
    (∀ (who : Requester) (v : Word), Accepted s who (pgTile t) 0x508 0 → fget s (pgTile t) Fl.lockCfg = 0 →
      (∃ u, exec (.ctxFreeze who t v) s = .next u ∧ fget u (pgTile t) Fl.tileCtxCtlBanks = Fl.tileCtxCtlBanks.get v ∧
        fget u (pgTile t) Fl.tileCtxCtlFreeze = Fl.tileCtxCtlFreeze.get v ∧ u.mem = s.mem ∧
        (bitAt v 16 = true → OnlyRegs (keysOf (pgTile t) [0x508]) s u) ∧ (bitAt v 16 = false → (tile u t).hold = false)) ∧
      (bitAt v 16 = true → ctxBusy s t = false →
        ((tile s t).kill = none → ∃ u, exec (.ctxSave who t v) s = .next u ∧ fget u (pgTile t) Fl.tileCtxStatBusy = 1 ∧
          u.ctxRun.find? (fun e => decide (e.1 = t)) = some (t, true, 1536 + 1024 * (banksIn (Fl.tileCtxCtlBanks.get v)).length) ∧ u.mem = s.mem) ∧
        (∃ u, exec (.ctxRestore who t v) s = .next u ∧ fget u (pgTile t) Fl.tileCtxStatBusy = 1 ∧
          u.ctxRun.find? (fun e => decide (e.1 = t)) = some (t, false, 1536 + 1024 * (banksIn (Fl.tileCtxCtlBanks.get v)).length) ∧ u.mem = s.mem))) ∧
    (∀ lines : Nat, s.ctxRun.find? (fun e => decide (e.1 = t)) = some (t, true, lines) →
      grantRanges s (.tile t .s0) true (ctxRanges (ctxAddr s t) (areaBanks s t) (fget s (pgTile t) Fl.tileCtxCtlBanks)) = .served →
      ∃ u, exec (.ctxDone t) s = .next u ∧ fget u (pgTile t) Fl.tileCtxStatBusy = 0 ∧ ctxBusy u t = false ∧ (tile u t).job = none ∧
        (tile u t).descs = [] ∧ (∀ q, queue u t q = []) ∧
        (∃ c, u.saved.find? (fun d => d.addr = ctxAddr s t) = some c ∧ c.tile = t ∧ c.banks = fget s (pgTile t) Fl.tileCtxCtlBanks ∧
          c.regs = s.regs.filter (fun e => inContext t e.1) ∧ c.ctx.lane = (tile s t).lane ∧ c.ctx.vec = (tile s t).vec ∧
          c.ctx.s0 = (tile s t).s0 ∧ c.ctx.s1 = (tile s t).s1 ∧ c.ctx.descs = (tile s t).descs ∧ c.ctx.job = (tile s t).job) ∧
        (Memory.wf s.mem = true → fget s (pgTile t) Fl.tileCtxCtlBanks = 0 → ∀ a, (a < ctxAddr s t ∨ ctxAddr s t + 0x18000 ≤ a) →
          memGet u.mem a = memGet s.mem a)) ∧
    (∀ (lines : Nat) (c : SavedCtx), s.ctxRun.find? (fun e => decide (e.1 = t)) = some (t, false, lines) →
      grantRanges s (.tile t .s0) false (ctxRanges (ctxAddr s t) (areaBanks s t) (fget s (pgTile t) Fl.tileCtxCtlBanks)) = .served →
      s.saved.find? (fun d => d.addr = ctxAddr s t) = some c →
      ∃ u, exec (.ctxDone t) s = .next u ∧ fget u (pgTile t) Fl.tileCtxStatBusy = 0 ∧ (tile u t).lane = c.ctx.lane ∧ (tile u t).vec = c.ctx.vec ∧
        (tile u t).s0 = c.ctx.s0 ∧ (tile u t).s1 = c.ctx.s1 ∧ (tile u t).descs = c.ctx.descs ∧ (tile u t).hold = true ∧
        (tile u t).job = (tile s t).job)

/-- The transitions of R407 and R408 and the heartbeat of R409. -/
def Obligations.CalderaModes : Prop :=
  ∀ s : State,
    (calRuns s = true ∨ (calOn s = true ∧ fget s pgCal Fl.calStatusRestart = 1) → (∀ u, s.cal.lockAt = some u → u + 1000000 ≤ s.us) →
      ∃ t, exec .lockstep s = .next t ∧ fget t pgCal Fl.calStatusMode = 0 ∧
      fget t pgCal Fl.calStatusSafeFault = 1 ∧ fget t pgCal Fl.calStatusRestart = 1 ∧
      fget t pgCal Fl.calStatusRestarts = min (fget s pgCal Fl.calStatusRestarts + 1) 255 ∧ t.evidenceIn = [] ∧ t.cal.jobs = []) ∧
    (∀ u : Nat, calRuns s = true ∨ (calOn s = true ∧ fget s pgCal Fl.calStatusRestart = 1) → s.cal.lockAt = some u → s.us < u + 1000000 → ∃ t, exec .lockstep s = .next t ∧
      fget t pgCal Fl.calStatusMode = 3 ∧ fget t pgCal Fl.calStatusSafeFault = 1 ∧ t.cal.failed = true ∧ t.evidenceIn = []) ∧
    (calOn s = true → fget s pgCal Fl.calStatusRestart = 1 →
      (∃ t, exec (.calderaRestartDone true) s = .next t ∧ fget t pgCal Fl.calStatusMode = 1 ∧ fget t pgCal Fl.calStatusSafeFault = 0 ∧
        fget t pgCal Fl.calStatusRestart = 0 ∧ ∀ e ∈ t.cal.ended, e.late = true) ∧
      (∃ t, exec (.calderaRestartDone false) s = .next t ∧ fget t pgCal Fl.calStatusMode = 3 ∧ fget t pgCal Fl.calStatusSafeFault = 1 ∧
        t.cal.failed = true)) ∧
    (∀ (who : Requester) (v : Word), Accepted s who pgCal 0x114 0 → bitAt v 0 = true → ∃ t, exec (.calFwHb who v) s = .next t ∧
      fget t pgCal Fl.calStatusFwHbLost = 0 ∧ t.cal = { s.cal with fwAt := s.us } ∧ ∀ pg off, off ≠ 0x104 → rd t pg off = rd s pg off) ∧
    (calRuns s = true → fget s pgCal Fl.calStatusFwHbLost = 0 → s.cal.fwAt + fget s pgCal Fl.calFwHbLimitUs < s.us →
      ∃ t, exec .fwLost s = .next t ∧ fget t pgCal Fl.calStatusFwHbLost = 1 ∧ fget t pgCal Fl.calStatusMode = 2) ∧
    (s.us ≤ s.cal.fwAt + fget s pgCal Fl.calFwHbLimitUs → exec .fwLost s = .next s) ∧
    (∀ who : Requester, Accepted s who pgCal 0x100 0 → calMode s ≠ 2 ∨ fget s pgCal Fl.calGeyStatResult ≠ 1 ∨ fget s pgCal Fl.calStatusFwHbLost = 1 →
      exec (.clrDegraded who) s = .next s) ∧
    (∀ who : Requester, Accepted s who pgCal 0x100 0 → calOn s = true → calMode s = 2 → fget s pgCal Fl.calGeyStatResult = 1 →
      fget s pgCal Fl.calStatusFwHbLost = 0 → ∃ t, exec (.clrDegraded who) s = .next t ∧ fget t pgCal Fl.calStatusMode = 1 ∧
        fget t pgCal Fl.calStatusSafeFault = 0 ∧ OnlyRegs (keysOf pgCal [0x104]) s t) ∧
    (calOn s = true → ∃ t, exec .calEcc s = .next t ∧ fget t pgCal Fl.calStatusMode = 3 ∧ fget t pgCal Fl.calStatusSafeFault = 1 ∧
      t.cal.failed = true)

/-- The intake of R409 to R411 and its time limits (R410, R417). -/
def Obligations.EvidenceReachesCaldera : Prop :=
  ∀ s : State,
    (∀ (e : Evidence) (r : List Evidence), s.evidenceIn = e :: r → calRuns s = false →
      exec .evidenceRecord s = .next { s with evidenceIn := r }) ∧
    (∀ (e : Evidence) (r : List Evidence), s.evidenceIn = e :: r → calRuns s = true → e.safe = false ∨ safetyPart s ≠ some e.part →
      exec .evidenceRecord s = .next { s with evidenceIn := r, cal := { s.cal with taken := s.cal.taken + 1 } }) ∧
    (∀ (e : Evidence) (r : List Evidence) (n : Nat), s.evidenceIn = e :: r → calRuns s = true → e.safe = true → safetyPart s = some e.part →
      e.jid = some n →
      ∃ t, exec .evidenceRecord s = .next t ∧ t.evidenceIn = r ∧ t.cal.taken = s.cal.taken + 1 ∧
        (e.kind = .residue → Tab.get 0 (calJob t n).recv e.tile = (Tab.get 0 (calJob s n).recv e.tile + 1) % 2 ^ 16 ∧
          (nth 0 e.data 1 ≠ 0 ∨ nth 0 e.data 3 ≠ 0 → nth 0 e.data 6 = 0 → (calJob t n).residue = true ∧
            (fget s pgCal Fl.faultClass = 0 → fget t pgCal Fl.faultClass = 3 ∧ fget t pgCal Fl.faultDetail = 0x10))) ∧
        (e.kind = .adapt → t.regs = s.regs ∧ (nth 0 e.data 3 = 2 → (calJob t n).range = true)) ∧
        (e.kind = .notice → t.regs = s.regs ∧ ((calJob s n).bufs.length < 64 → ∃ b ∈ (calJob t n).bufs, b.handle = nth 0 e.data 0) ∧
          (nth 0 e.data 3 ≠ 0 → (calJob t n).range = true)) ∧
        (e.kind = .heartbeat → Tab.get 0 t.cal.hb e.tile = s.us ∧ (nth 0 e.data 2 = 1 → e.tile ∈ (calJob t n).finals) ∧
          (n ∉ s.cal.cut → Tab.get 0 (calJob s n).recv e.tile ≠ nth 0 e.data 0 → (calJob t n).residue = true))) ∧
    (∀ (u : TileId) (j : TileJob), (tile s u).job = some j → j.safe = true → j.jid.isSome = true →
      ((tile s u).hbAt + 10 ≤ s.us → ∃ t, exec (.tileHeartbeat u) s = .next t ∧ (tile t u).hbAt = s.us ∧
        t.evidenceIn = s.evidenceIn ++ [⟨.heartbeat, u, j.part, j.jobId, j.jid, true, [(tile s u).resSent, fget s (pgSeq u) Fl.seqStatusStall, 0]⟩]) ∧
      (s.us < (tile s u).hbAt + 10 → exec (.tileHeartbeat u) s = .next s)) ∧
    (∀ (u : TileId) (j : TileJob) (n : Nat), calRuns s = true → (tile s u).job = some j → j.safe = true → j.jid = some n →
      safetyPart s = some j.part → u ∉ s.cal.lost → Tab.get 0 s.cal.hb u + fget s pgCal Fl.calHbLimitUs < s.us →
      ∃ t, exec (.tileLost u) s = .next t ∧ t.cal.lost = s.cal.lost ++ [u] ∧ u ∈ (calJob t n).lost ∧
        (fget s pgCal Fl.faultClass = 0 → fget t pgCal Fl.faultClass = 3 ∧ fget t pgCal Fl.faultDetail = 0x11)) ∧
    (∀ u : TileId, s.us ≤ Tab.get 0 s.cal.hb u + fget s pgCal Fl.calHbLimitUs → exec (.tileLost u) s = .next s) ∧
    (∀ jid : Nat, ∃ t, exec (.evidenceTimeout jid) s = .next t ∧ t = { s with cal := { s.cal with ended := t.cal.ended } } ∧
      t.cal.ended.length = s.cal.ended.length ∧ ∀ (i : Nat) (e : EndedJob), s.cal.ended[i]? = some e →
        ((e.job.jid = jid ∧ evidenceDone s e.job = false ∧ e.us + fget s pgCal Fl.calEvidLimitUs ≤ s.us) → t.cal.ended[i]? = some { e with late := true }) ∧
        (¬ (e.job.jid = jid ∧ evidenceDone s e.job = false ∧ e.us + fget s pgCal Fl.calEvidLimitUs ≤ s.us) → t.cal.ended[i]? = some e))

/-- The ring of R419 and the records of R414 and R420. -/
def Obligations.VerdictsLeaveInOrder : Prop :=
  ∀ s : State,
    (∀ (p : PartId) (e : EndedJob) (rest : List EndedJob), safetyPart s = some p → calRuns s = true → s.cal.held = [] →
      s.cal.ended = e :: rest →
      ((e.late = true ∨ e.job.jid ∈ s.cal.cut ∨ evidenceDone s e.job = true) →
        ∃ t, exec .verdictWrite s = .next t ∧ t.cal.ended = s.cal.ended.filter (fun d => d.job.jid != e.job.jid) ∧
          (∀ c ∈ t.cal.jobs, c.jid ≠ e.job.jid) ∧
          t.cal.used + t.cal.held.length = s.cal.used + (verdictsFor s p e ++ lateAmends s p (verdictsFor s p e)).length ∧
          (e.job.stage = .ending → ∃ v, verdictsFor s p e = [v] ∧ verdictOf v.words = (if (reasons s e).testBit 0 then 1 else 4) ∧
            (0 < vringFree s → vringWait s p = none → lateAmends s p [v] = [] → t.cal.used = s.cal.used + 1 ∧ t.cal.held = [] ∧ v ∈ t.cal.log ∧
              fget t pgCal Fl.calVringStatNext = (fget s pgCal Fl.calVringStatNext + 1) % vringSize s ∧
              bitAt (rd t pgCal 0x010) 8 = true ∧ bitAt (rd t pgCal 0x010) 9 = true) ∧
            (vringFree s = 0 ∨ (vringWait s p).isSome = true → t.cal.used = s.cal.used ∧ t.cal.held = v :: lateAmends s p [v] ∧ t.mem = s.mem ∧ t.regs = s.regs))) ∧
      (e.late = false → e.job.jid ∉ s.cal.cut → evidenceDone s e.job = false → exec .verdictWrite s = .next s)) ∧
    (∀ (p : PartId) (v : VerdictRec) (r : List VerdictRec), safetyPart s = some p → calRuns s = true → s.cal.held = v :: r →
      (0 < vringFree s → vringWait s p = none → ∃ t, exec .verdictWrite s = .next t ∧ t.cal.held = r ∧ t.cal.used = s.cal.used + 1 ∧
        t.cal.ended = s.cal.ended ∧ bitAt (rd t pgCal 0x010) 8 = true) ∧
      (0 < vringFree s → (vringWait s p).isSome = true → ∃ t, exec .verdictWrite s = .next t ∧ t.cal = s.cal ∧ t.mem = s.mem) ∧
      (vringFree s = 0 → exec .verdictWrite s = .next s)) ∧
    (∀ (who : Requester) (v : Word), Accepted s who pgCal 0x12C 0 →
      exec (.calVringRel who v) s = .next { s with cal := { s.cal with used := s.cal.used - Fl.calVringRelCount.get v } })

/-- Geyser by R421 to R424, self-tests and their coverage by R425 to R427, the load by R413. -/
def Obligations.GeyserAndSelfTests : Prop :=
  ∀ s : State,
    (∀ (p : PartId) (w : FrameWin), fwRuns s = true → safetyPart s = some p → windowOf s p = some w → calRuns s = true → inReserve s p = true →
      s.cal.gey = none → s.cal.geyWin ≠ some (Tab.get 0 s.winNo p - 1) →
      ∃ t, exec .geyserSliceStart s = .next t ∧ t.cal.geyWin = some (Tab.get 0 s.winNo p - 1) ∧
        (nextGroup s p = none → t.cal.gey = none ∧ fget t pgCal Fl.calStatusGmiss = min 3 (fget s pgCal Fl.calStatusGmiss + 1) ∧
          fget t pgCal Fl.calGeyStatResult = 3 ∧ bitAt (rd t pgCal 0x010) 11 = true ∧
          fget t pgCal Fl.calStatusMode = (if fget s pgCal Fl.calStatusGmiss = 2 then 2 else fget s pgCal Fl.calStatusMode)) ∧
        (∀ g, nextGroup s p = some g → ∃ x, t.cal.gey = some x ∧ x.tg = g ∧ x.tiles = geyTiles s p g ∧ x.bad = [] ∧
          x.endAt = w.start + (w.len - w.rsv) + ceilDiv w.len 50)) ∧
    (∀ (p : PartId) (g : GeySlice), safetyPart s = some p → s.cal.gey = some g →
      let sig := BitVec.ofNat 64 (fget s pgCal Fl.calGeySigLoSig + 2 ^ 32 * fget s pgCal Fl.calGeySigHiSig)
      let fails := g.tiles.filter (fun u => g.bad.contains u || decide (geySignature s p u ≠ some sig))
      ((∀ u ∈ g.tiles, fget s (pgSeq u) Fl.seqStatusState = 2) → firstWait s (.fw p true) (g.tiles.map (geyRegion s)) = none → g.tg < 12 →
        ∃ t, exec .geyserResult s = .next t ∧ t.cal.gey = none ∧ fget t pgCal Fl.calGeyStatLastTg = g.tg ∧
          fget t pgCal Fl.calStatusGmiss = 0 ∧ bitAt (rd t pgCal 0x010) 11 = true ∧
          (fails = [] → t.cal = { s.cal with gey := none } ∧ fget t pgCal Fl.calGeyStatResult = 1 ∧ fget t pgCal Fl.calGeyStatFailTiles = 0 ∧
            fget t pgCal Fl.calGeyStatPasses = min (fget s pgCal Fl.calGeyStatPasses + 1) (2 ^ Fl.calGeyStatPasses.width - 1) ∧ t.mem = s.mem) ∧
          (fails ≠ [] → fget t pgCal Fl.calGeyStatResult = 2 ∧ ∀ u ∈ fails, u ∈ t.cal.out ∧
            (fget t pgCal Fl.calGeyStatFailTiles).testBit (u.val % 8) = true)) ∧
      ((∃ u ∈ g.tiles, fget s (pgSeq u) Fl.seqStatusState ≠ 2) →
        (g.endAt ≤ partCount s p → calOn s = true → ∃ t, exec .geyserResult s = .next t ∧ t.cal.gey = none ∧
          fget t pgCal Fl.calStatusGmiss = min 3 (fget s pgCal Fl.calStatusGmiss + 1) ∧ fget t pgCal Fl.calGeyStatResult = 3) ∧
        (partCount s p < g.endAt → exec .geyserResult s = .next s))) ∧
    (∀ c : Bool, calRuns s = true →
      (stMay s (if c then 12 else dueGroup s) = true → exec (.selftestSliceStart c) s =
        .next { s with cal := { s.cal with st := some ⟨if c then 12 else dueGroup s, s.us⟩ } }) ∧
      (stMay s (if c then 12 else dueGroup s) = false → ∃ t, exec (.selftestSliceStart c) s = .next t ∧
        fget t pgCal Fl.calStDeferCount = min (fget s pgCal Fl.calStDeferCount + 1) (2 ^ Fl.calStDeferCount.width - 1) ∧
        OnlyRegs (keysOf pgCal [Fl.calStDeferCount.off]) s t)) ∧
    (∀ (x : StSlice) (fails : BitVec 8), s.cal.st = some x →
      (x.since + stLength x.grp ≤ s.us → ∃ t, exec (.selftestSliceDone fails) s = .next t ∧ t.cal.st = none ∧ Tab.get 0 t.cal.tested x.grp = s.us ∧
        (x.grp = 12 → (fails.getLsbD 0 = true → t.cal.failed = true ∧ fget t pgCal Fl.calStatusMode = 3) ∧
          (fails.getLsbD 0 = false → t.regs = s.regs)) ∧
        (x.grp < 12 → fget t pgCal Fl.calStStatLastTg = x.grp ∧
          (∀ u ∈ groupTiles x.grp, fails.getLsbD (u.val % 8) = true → u ∈ t.cal.out) ∧ (∀ u ∈ groupTiles x.grp, (tile t u).acc = []))) ∧
      (s.us < x.since + stLength x.grp → exec (.selftestSliceDone fails) s = .next s)) ∧
    (∀ grp : Fin 13, calOn s = true →
      (Tab.get 0 s.cal.covAt grp.val + (if grp.val = 12 then 100000 else 1000000) ≤ s.us →
        ∃ t, exec (.coverage grp) s = .next t ∧ Tab.get 0 t.cal.covAt grp.val = s.us ∧ bitAt (rd t pgCal 0x010) 12 = true ∧
        (grp.val = 12 → fget t pgCal Fl.calStStatCalMissed = min (fget s pgCal Fl.calStStatCalMissed + 1) (2 ^ Fl.calStStatCalMissed.width - 1)) ∧
        (grp.val ≠ 12 → fget t pgCal Fl.calStStatTgMissed = min (fget s pgCal Fl.calStStatTgMissed + 1) (2 ^ Fl.calStStatTgMissed.width - 1))) ∧
      (s.us < Tab.get 0 s.cal.covAt grp.val + (if grp.val = 12 then 100000 else 1000000) → exec (.coverage grp) s = .next s)) ∧
    (s.cal.loadAt < s.us / 1000 → ∃ t, exec .calLoadInterval s = .next t ∧ t.cal = { s.cal with taken := 0, loadAt := s.us / 1000 } ∧
      fget t pgCal Fl.calLoadLoad = min 1024 (s.cal.taken * 1024 / (1000 * (fabricPerUs s * 6 / 16))) ∧
      OnlyRegs (keysOf pgCal [Fl.calLoadLoad.off]) { s with cal := t.cal } t) ∧
    (s.us / 1000 ≤ s.cal.loadAt → exec .calLoadInterval s = .next s)

/-- CAL_TILE_FORCE and CAL_REDIRk by R427, R430 and R440, the first steps of R429. -/
def Obligations.TilesLeaveAndAreRedirected : Prop :=
  ∀ s : State,
    (∀ (who : Requester) (v : Word), Accepted s who pgCal 0x19C 0 → bitAt v 8 = true → Fl.calTileForceTile.get v < 96 →
      ∃ t, exec (.calTileForce who v) s = .next t ∧ tileOf (Fl.calTileForceTile.get v) ∈ t.cal.out ∧
        tileOf (Fl.calTileForceTile.get v) ∈ t.cal.retry ∧ t = { s with cal := t.cal }) ∧
    (∀ (who : Requester) (k : Fin 4) (v : Word), Accepted s who pgCal (Fl.calRedirEn k.val).off 0 → fget s pgCal Fl.lockCfg = 0 →
      ∃ t, exec (.redirectEnable who k v) s = .next t ∧ fget t pgCal (Fl.calRedirFrom k.val) = (Fl.calRedirFrom k.val).get v ∧
        fget t pgCal (Fl.calRedirTo k.val) = (Fl.calRedirTo k.val).get v ∧ fget t pgCal (Fl.calRedirEn k.val) = (Fl.calRedirEn k.val).get v ∧
        ((Fl.calRedirEn k.val).get v = 0 → OnlyRegs (keysOf pgCal [(Fl.calRedirEn k.val).off]) s t) ∧
        ((Fl.calRedirEn k.val).get v = 1 → ∀ r ∈ t.remoteSteps, r.got = none → r.ringTile.val = (Fl.calRedirFrom k.val).get v →
          (tileOf ((Fl.calRedirTo k.val).get v)).val = (Fl.calRedirFrom k.val).get v)) ∧
    (∀ (u : TileId) (bad : Bool) (j : JobRun), fwRuns s = true → jobOfTile s u = some j → fget s pgCal Fl.calCtrlRemapEn = 1 →
      pageOn s pgCal = true → jwSafe j.words = true → j.stage = .running → (tile s u).kill = none → u ∉ s.cal.given →
      let spares := byGroup s j.words ((maskTiles s j.part).filter (tileIdle s j.part))
      let full := ∀ k : Fin 4, fget s pgCal (Fl.calRedirEn k.val) = 1
      (fget s (pgTile u) Fl.tileRunHalted = 1 →
        (full ∨ (spares = [] ∧ savePending s j.part = false ∧ remapVictim s j.part = none) →
          ∃ t, exec (.tileRemap u bad) s = .next t ∧ t.cal.given = s.cal.given ++ [u] ∧
          (fget s pgCal Fl.faultClass = 0 → fget t pgCal Fl.faultClass = 3 ∧ fget t pgCal Fl.faultDetail = 0x18)) ∧
        (∀ v : JobRun, ¬ full → spares = [] → savePending s j.part = false → remapVictim s j.part = some v →
          ∃ t, exec (.tileRemap u bad) s = .next t ∧ ∀ x ∈ t.jobs, x.jid = v.jid → x.stage = .preempted) ∧
        (∀ (k : Nat) (w : TileId) (more : List TileId) (l : List Word),
          (upTo 4).find? (fun k => !fon s pgCal (Fl.calRedirEn k)) = some k → spares = w :: more → (jobPages w).all (pageOn s) = true →
          (∀ pg ∈ jobPages w, fget s pg Fl.ctrlEn = 1) →
          (if j.isFb then Fetch.got j.load else fetchList s (.fw j.part true) listFuel (jwProg j.words)) = .got l →
          let area := fgetAddr s pgCal Fl.calRemapLoAddr Fl.calRemapHiAddr
          let rl := residentOnly (j.tiles.idxOf u) l.length l
          let banks := jobBanks j &&& (0xFFFF - filledBanks rl.length rl)
          (bad = true → ∃ t, exec (.tileRemap u bad) s = .next t ∧ u ∈ t.cal.given ∧ u ∈ t.cal.out ∧ fget t pgCal (Fl.calRedirEn k) = 0) ∧
          (bad = false → (∀ a, area ≤ a → a < area + 0x118000 → ∃ h c, regionOf s (.fw j.part true) a = .ddr h c) →
            grantRanges s (.fw j.part true) true (ctxRanges area (jobBanks j) banks) = .served →
            ∃ t, exec (.tileRemap u bad) s = .next t ∧ fget t pgCal (Fl.calRedirEn k) = 1 ∧ fget t pgCal (Fl.calRedirFrom k) = u.val ∧
              fget t pgCal (Fl.calRedirTo k) = w.val ∧ u ∈ t.cal.out ∧
              ∀ x ∈ t.jobs, x.jid = j.jid → x.tiles = j.tiles.map (fun v => if v = u then w else v)))) ∧
      (fget s (pgTile u) Fl.tileRunHalted = 0 → u ∈ s.cal.lost → u ∉ s.cal.lostKill →
        ∃ t, exec (.tileRemap u bad) s = .next t ∧ t.cal.lostKill = s.cal.lostKill ++ [u] ∧ (tile t u).kill.isSome = true))

/-- Domains by R26 and R446 to R450, the alert by R450 and R466, VAON by R445 and R512. -/
def Obligations.DomainsPowerOnAndOff : Prop :=
  ∀ s : State,
    (∀ d : Domain,
      (wakeCause s d.val = false → exec (.wakeRequest d) s = .next s) ∧
      (wakeCause s d.val = true → s.pwr.winAt = none → domainOn s d.val = false →
        fbit s pgPwr Fl.pwrDomBusyRamp d.val = false → (∀ w ∈ s.wakeQ, w.1 ≠ d) →
        ∃ t, exec (.wakeRequest d) s = .next t ∧ (∃ l, t.wakeQ = s.wakeQ ++ l ++ [(d, wakePart s d.val)] ∧ (13 ≤ d.val → l = [])) ∧
          (∀ q, requires d.val = some q → domainOn s q = true ∨ fbit s pgPwr Fl.pwrDomBusyRamp q = true ∨ ∃ w ∈ t.wakeQ, w.1.val = q) ∧
          t = { s with wakeQ := t.wakeQ }) ∧
      (∀ a : Nat, s.pwr.ramps.find? (fun e => e.1 = d.val) = some (d.val, a) →
        (s.us < a + onRamp d.val → exec (.domainPowerGood d) s = .next s) ∧
        (a + onRamp d.val ≤ s.us → (∀ w ∈ s.wakeQ, w.1 ≠ d) →
          ∃ t, exec (.domainPowerGood d) s = .next t ∧ domainOn t d.val = true ∧ fbit t pgPwr Fl.pwrDomBusyRamp d.val = false) ∧
        (s.us < a + 50 → exec (.wakeTimeout d) s = .next s) ∧
        (a + 50 ≤ s.us →
          ∃ t, exec (.wakeTimeout d) s = .next t ∧ domainOn t d.val = false ∧ fbit t pgPwr Fl.pwrDomBusyRamp d.val = false ∧
            (∀ pg ∈ domainPages d.val, switchable pg = true → pg ∉ s.softPend → fget t pg Fl.state = 7) ∧
            (fget s pgPwr Fl.faultClass = 0 → fget t pgPwr Fl.faultClass = 8 ∧ fget t pgPwr Fl.faultDetail = 4))) ∧
      (∀ a : Nat, s.pwr.idleAt.find? (fun e => e.1 = d.val) = some (d.val, a) →
        (s.us < a + fget s pgPwr Fl.pwrOffDelayUs → exec (.domainOff d) s = .next s) ∧
        (offOk s d.val = true → a + fget s pgPwr Fl.pwrOffDelayUs ≤ s.us →
          ∃ t, exec (.domainOff d) s = .next t ∧ domainOn t d.val = false ∧
            ∀ k ∈ allLinks, (linkDomains k).contains d.val = true → linkState s k ≠ 4 → linkState t k = 0))) ∧
    (∀ w : Nat, s.pwr.winAt = some w →
      (s.us < w + 10 → exec .wakeWindow s = .next s) ∧
      (w + 10 ≤ s.us → fget s pgPwr Fl.pwrAlertAsserted ≠ 0 → ∃ t, exec .wakeWindow s = .next t ∧ t.wakeQ = s.wakeQ ∧ t.regs = s.regs) ∧
      (∀ (d : Domain) (p : PartId) (r : List (Domain × PartId)), w + 10 ≤ s.us → wakeOrder s = (d, p) :: r →
        (∀ q, requires d.val = some q → domainOn s q = true) → fget s pgPwr Fl.pwrAlertAsserted = 0 →
        s.pwr.vaonLow = false → tripped s = false →
        ∃ t, exec .wakeWindow s = .next t ∧ fbit t pgPwr Fl.pwrDomBusyRamp d.val = true ∧
          (∀ x ∈ t.wakeQ, x.1 ≠ d ∧ x ∈ s.wakeQ) ∧
          t.pwr.ramps.find? (fun e => e.1 = d.val) = some (d.val, s.us) ∧ t.pwr.winAt = some (s.us - (s.us - w) % 10) ∧
          fget t pgPwr Fl.pwrWakeQFrozen = 0 ∧
          fget t pgPwr Fl.pwrWakeQWindows = (fget s pgPwr Fl.pwrWakeQWindows + 1) % 2 ^ 16 ∧ t.mem = s.mem)) ∧
    (fget s pgPwr Fl.pwrAlertAsserted ≠ 0 → exec .alert s = .next s ∧
      ∃ t, exec .alertRelease s = .next t ∧ fget t pgPwr Fl.pwrAlertAsserted = 0 ∧ t.pwr.alertHigh = some s.us ∧
        t = { s with regs := t.regs, pwr := t.pwr }) ∧
    (fget s pgPwr Fl.pwrAlertAsserted = 0 → exec .alertRelease s = .next s ∧
      ∃ t, exec .alert s = .next t ∧ fget t pgPwr Fl.pwrAlertAsserted = 1 ∧ fget t pgPwr Fl.pwrWakeQFrozen = 1 ∧
        fget t pgPwr Fl.pwrAlertCount = min (fget s pgPwr Fl.pwrAlertCount + 1) 255 ∧ t.pwr.alertFloor = true ∧
        bitAt (rd t pgPwr 0x010) 8 = true ∧
        (fget s pgPwr Fl.faultClass = 0 → fget t pgPwr Fl.faultClass = 8 ∧ fget t pgPwr Fl.faultDetail = 1) ∧ t.mem = s.mem) ∧
    (∀ a : Nat, s.pwr.alertHigh = some a →
      (s.us < a + fget s pgPwr Fl.pwrAlertHoldUs → exec .alertHoldExpiry s = .next s) ∧
      (a + fget s pgPwr Fl.pwrAlertHoldUs ≤ s.us →
        exec .alertHoldExpiry s = .next { s with pwr := { s.pwr with alertFloor := false, alertHigh := none } })) ∧
    (∃ t, exec .vaonLow s = .next t ∧ t.pwr.vaonLow = true ∧ fget t pgPwr Fl.pwrWakeQFrozen = 1 ∧ bitAt (rd t pgPwr 0x010) 11 = true ∧
      fget t pgFum Fl.fumStatFlushing = 1 ∧
      (fget s pgPwr Fl.faultClass = 0 → fget t pgPwr Fl.faultClass = 8 ∧ fget t pgPwr Fl.faultDetail = 6) ∧
      (∀ k ∈ allLinks, linkAtXd k = true → linkState s k ≠ 4 → linkState t k = 0) ∧ t.mem = s.mem)

/-- The root by R456, sources by R454, monitoring by R457, deep idle by R451 and R452. -/
def Obligations.ClocksAndDeepIdle : Prop :=
  ∀ s : State,
    (∀ (who : Requester) (v : Word), Accepted s who pgClk 0x100 0 → fget s pgClk Fl.lockCfg = 0 →
      (rootOk s (v.toNat % 4) = true → ∃ t, exec (.rootSwitch who v) s = .next t ∧ fget t pgClk Fl.clkRootSrc = v.toNat % 4 ∧
        fget t pgClk Fl.clkStatSwitching = 1 ∧ fget t pgClk Fl.clkStatFallback = 0 ∧
        fget t pgClk Fl.clkStatRoot = fget s pgClk Fl.clkStatRoot ∧ t.pwr.rootTo = v.toNat % 4 ∧ t.mem = s.mem) ∧
      (rootOk s (v.toNat % 4) = false → ∃ t, exec (.rootSwitch who v) s = .next t ∧ fget t pgClk Fl.clkStatRefused = 1 ∧
        fget t pgClk Fl.clkRootSrc = fget s pgClk Fl.clkRootSrc ∧ fget t pgClk Fl.clkStatRoot = fget s pgClk Fl.clkStatRoot ∧
        bitAt (rd t pgClk 0x010) 8 = true ∧
        (fget s pgClk Fl.faultClass = 0 → fget t pgClk Fl.faultClass = 7 ∧ fget t pgClk Fl.faultDetail = 1) ∧ t.mem = s.mem)) ∧
    (fget s pgClk Fl.clkStatSwitching = 0 → exec .rootSwitchDone s = .next s) ∧
    (fget s pgClk Fl.clkStatSwitching = 1 → fget s pgPwr Fl.pwrIdleState ≠ 3 →
      ∃ t, exec .rootSwitchDone s = .next t ∧ fget t pgClk Fl.clkStatSwitching = 0 ∧
        (s.pwr.rootTo ≠ 0 → s.pwr.winAt = none → t.pwr.winAt = some s.us) ∧ t.mem = s.mem ∧
        (s.pwr.rootTo = 0 ∨ srcReady s (rootSource s.pwr.rootTo) = true → fget t pgClk Fl.clkStatRoot = s.pwr.rootTo % 4) ∧
        (s.pwr.rootTo ≠ 0 → srcReady s (rootSource s.pwr.rootTo) = false → fget t pgClk Fl.clkStatRoot = 0 ∧
          fget t pgClk Fl.clkStatFallback = 1 ∧ bitAt (rd t pgClk 0x010) 9 = true)) ∧
    (fget s pgClk Fl.clkStatSwitching = 1 → fget s pgPwr Fl.pwrIdleState = 3 → s.pwr.rootTo = 2 → srcReady s 0 = true → srcReady s 4 = true → s.pwr.vcdOff = false →
      fget s pgClk Fl.clkPllCtrlRootEn = 1 → s.pwr.xtalA = true → ∃ t, exec .rootSwitchDone s = .next t ∧ fget t pgClk Fl.clkStatRoot = 2 ∧
        fget t pgPwr Fl.pwrIdleState = 0 ∧ bitAt (rd t pgPwr 0x010) 10 = true ∧ t.mem = s.mem) ∧
    (∀ src : Fin 6,
      (sourceRuns s src.val = false → exec (.sourceReady src) s = .next s) ∧
      (sourceRuns s src.val = true → fget s pgPwr Fl.pwrIdleState ≠ 3 →
        ∃ t, exec (.sourceReady src) s = .next t ∧ srcReady t src.val = true ∧ OnlyRegs (keysOf pgClk [0x104]) s t) ∧
      (∀ lost : Bool,
        (src.val ∉ [2, 4, 5] ∨ srcReady s src.val = false → exec (.clockMonitor src lost) s = .next s) ∧
        (src.val ∈ [2, 4, 5] → srcReady s src.val = true →
          ∃ t, exec (.clockMonitor src lost) s = .next t ∧ srcReady t src.val = false ∧ fbit t pgClk Fl.clkMonFail src.val = true ∧
            (fget s pgClk Fl.faultClass = 0 → fget t pgClk Fl.faultClass = 7 ∧
              fget t pgClk Fl.faultDetail = (if src.val = 2 then 3 else if lost then 2 else 5)) ∧
            (fget s pgClk Fl.clkStatRoot ≠ 0 → rootSource (fget s pgClk Fl.clkStatRoot) = src.val →
              fget t pgClk Fl.clkStatRoot = 0 ∧ fget t pgClk Fl.clkStatFallback = 1 ∧ bitAt (rd t pgClk 0x010) 9 = true) ∧ t.mem = s.mem))) ∧
    (∀ who : Requester, Accepted s who pgPwr 0x130 0 →
      (idleOk s = true → ∃ t, exec (.deepIdleEnter who) s = .next t ∧ fget t pgPwr Fl.pwrIdleState = 1 ∧ t.pwr.idleStep = 2 ∧
        (∀ i, i < 8 → fget s ⟨.hubDdr, i⟩ Fl.state = 2 → fget t ⟨.hubDdr, i⟩ Fl.state = 0 ∧
          fget t ⟨.hubDdr, i⟩ Fl.hubDdrStatusPhase = 4) ∧ t.mem = s.mem) ∧
      (idleOk s = false → ∃ t, exec (.deepIdleEnter who) s = .next t ∧ fget t pgPwr Fl.pwrIdleRefused = 1 ∧
        fget t pgPwr Fl.pwrIdleState = fget s pgPwr Fl.pwrIdleState ∧ OnlyRegs (keysOf pgPwr [0x130]) s t)) ∧
    (s.boot.rst = some .pin → exec .wakeN s = .next s) ∧
    (sleeping s = false → exec .wakeN s = .next s ∧ ∀ p : PartId, exec (.sdioStartBit p) s = .next s) ∧
    (sleeping s = true →
      (s.boot.rst ≠ some .pin → ∃ t, exec .wakeN s = .next t ∧ fget t pgPwr Fl.pwrWakeSrcSrc = 1 ∧ t.pwr.idleStep = 0 ∧
        (srcReady s 0 = false → fget t pgPwr Fl.pwrIdleState = 3) ∧ t.mem = s.mem) ∧
      (∀ p : PartId, ∃ t, exec (.sdioStartBit p) s = .next t ∧ fget t pgPwr Fl.pwrWakeSrcSrc = 2 ∧ t.pwr.idleStep = 0 ∧
        (srcReady s 0 = false → fget t pgPwr Fl.pwrIdleState = 3) ∧ t.mem = s.mem)) ∧
    (fget s pgPwr Fl.pwrIdleState ≠ 2 → exec .pwrWakeTimer s = .next s) ∧
    (fget s pgPwr Fl.pwrIdleState = 2 → fget s pgPwr Fl.pwrWakeTimerTicks ≠ 0 → fget s pgPwr Fl.pwrWakeTimerTicks ≤ s.pwr.aon →
      ∃ t, exec .pwrWakeTimer s = .next t ∧ fget t pgPwr Fl.pwrWakeSrcSrc = 4 ∧ t.pwr.idleStep = 0 ∧ t.mem = s.mem)

/-- PMBus by R443 and R444, ARITH states by R459 and R460, the sensors by R461 to R463, power by R464 and R465; each periodic event lies on a fixed grid of its period, which is the model's choice (log 118). -/
def Obligations.PowerAndTemperature : Prop :=
  ∀ s : State,
    (s.pwr.pmb = [] → exec (.pmbusTransaction true) s = .next s ∧
      exec (.pmbusTransaction false) s = .next { s with pwr := { s.pwr with pmb := [{ cmd := .read, retried := true }] } }) ∧
    (∀ (x : PmbTx) (r : List PmbTx) (mv : Nat), s.pwr.pmb = x :: r → x.cmd = .vout mv →
      (∃ t, exec (.pmbusTransaction true) s = .next t ∧ t.pwr.cmdMv = some mv ∧ t.pwr.pmb = r ∧ t = { s with pwr := t.pwr }) ∧
      (x.retried = false →
        exec (.pmbusTransaction false) s = .next { s with pwr := { s.pwr with pmb := { x with retried := true } :: r } }) ∧
      (x.retried = true → ∃ t, exec (.pmbusTransaction false) s = .next t ∧ t.pwr.pmb = r ∧ t.pwr.cmdMv = s.pwr.cmdMv ∧
        (fget s pgPwr Fl.faultClass = 0 → fget t pgPwr Fl.faultClass = 8 ∧ fget t pgPwr Fl.faultDetail = 2) ∧ t.mem = s.mem)) ∧
    (s.us / 1000 ≤ s.pwr.pollAt → ∀ vout : BitVec 16, exec (.pmbusPoll vout) s = .next s) ∧
    (s.pwr.pollAt < s.us / 1000 → s.pwr.cmdMv = none → ∀ vout : BitVec 16, ∃ t, exec (.pmbusPoll vout) s = .next t ∧
      t.pwr = { s.pwr with pollAt := s.us / 1000, vBad := 0 } ∧ OnlyRegs (keysOf pgPwr [Fl.pwrVcdMvMv.off]) { s with pwr := t.pwr } t) ∧
    (∀ (vout : BitVec 16) (c : Nat), s.pwr.pollAt < s.us / 1000 → s.pwr.cmdMv = some c →
      let n := (linear16 s vout.toNat).1
      let d := (linear16 s vout.toNat).2
      ∃ t, exec (.pmbusPoll vout) s = .next t ∧ fget t pgPwr Fl.pwrVcdMvMv = n / d % 2 ^ 10 ∧ t.mem = s.mem ∧
        (97 * c * d ≤ 100 * n → 100 * n ≤ 103 * c * d → t.pwr.vBad = 0 ∧ fget t pgPwr Fl.faultClass = fget s pgPwr Fl.faultClass) ∧
        (100 * n < 97 * c * d ∨ 103 * c * d < 100 * n →
          (s.pwr.vBad = 0 → t.pwr.vBad = 1 ∧ fget t pgPwr Fl.faultClass = fget s pgPwr Fl.faultClass) ∧
          (s.pwr.vBad ≠ 0 → t.pwr.vBad = 0 ∧
            (fget s pgPwr Fl.faultClass = 0 → fget t pgPwr Fl.faultClass = 8 ∧ fget t pgPwr Fl.faultDetail = 3)))) ∧
    (fget s pgClk Fl.clkArithEffective < pstateTarget s →
      ∃ t, exec .pstateChange s = .next t ∧ fget t pgClk Fl.clkArithEffective = pstateTarget s ∧
        fget t pgClk Fl.clkArithChanges = (fget s pgClk Fl.clkArithChanges + 1) % 2 ^ 16 ∧ bitAt (rd t pgClk 0x010) 10 = true ∧
        t.pwr.pmb = s.pwr.pmb ++ [{ cmd := .vout (pstateMv s (pstateTarget s)) }] ∧ t.pwr.rise = none ∧ t.mem = s.mem) ∧
    (pstateTarget s = fget s pgClk Fl.clkArithEffective ∨ (pstateTarget s < fget s pgClk Fl.clkArithEffective ∧
        (s.pwr.barred = some (pstateTarget s) ∨ ∃ r, s.pwr.rise = some r ∧ r.target = pstateTarget s)) →
      ∃ t, exec .pstateChange s = .next t ∧ t.pwr.pmb = s.pwr.pmb ∧ t = { s with pwr := t.pwr }) ∧
    (pstateTarget s < fget s pgClk Fl.clkArithEffective → (∀ r, s.pwr.rise = some r → r.target ≠ pstateTarget s) →
      s.pwr.barred ≠ some (pstateTarget s) →
      ∃ t, exec .pstateChange s = .next t ∧ t.pwr.rise = some { target := pstateTarget s, mv := pstateMv s (pstateTarget s) } ∧
        t.pwr.pmb = s.pwr.pmb ++ [{ cmd := .vout (pstateMv s (pstateTarget s)) }] ∧ t = { s with pwr := t.pwr }) ∧
    (∀ mv : Nat, (∀ r, s.pwr.rise = some r → r.since = none) →
      ∃ t, exec (.voltageSettled mv) s = .next t ∧ fget t pgPwr Fl.pwrVcdMvMv = mv % 2 ^ 10 ∧ OnlyRegs (keysOf pgPwr [0x188]) s t) ∧
    (∀ (mv a : Nat) (r : Rise), s.pwr.rise = some r → r.since = some a →
      ((mv ≤ r.mv + 10 ∧ r.mv ≤ mv + 10) ∨ a + 200 ≤ s.us → ∃ t, exec (.voltageSettled mv) s = .next t ∧
        fget t pgClk Fl.clkArithEffective = r.target % 8 ∧ t.pwr.rise = none ∧ t.mem = s.mem) ∧
      (¬ (mv ≤ r.mv + 10 ∧ r.mv ≤ mv + 10) → s.us < a + 200 → ∃ t, exec (.voltageSettled mv) s = .next t ∧
        t.pwr.rise = some r ∧ OnlyRegs (keysOf pgPwr [0x188]) s t)) ∧
    (∀ (n : Sensor) (r : Int),
      (s.us / 20 ≤ Tab.get 0 s.thm.sampled n.val → exec (.sensorSample n r) s = .next s) ∧
      (Tab.get 0 s.thm.sampled n.val < s.us / 20 → -220 ≤ r → r ≤ 600 → Tab.get none s.thm.prev n.val = none → senValid s n.val = false →
        ∃ t, exec (.sensorSample n r) s = .next t ∧ fget t pgThm (Fl.thmTValid n.val) = 1 ∧ senTemp t n.val = r ∧
          (fget t pgThm (Fl.thmTWarn n.val) = 1 ↔ warnAt s n.val ≤ r) ∧
          (critAt s n.val ≤ r → tripped s = false → tripped t = true ∧ fget t pgThm Fl.thmTripSensor = n.val)) ∧
      (Tab.get 0 s.thm.sampled n.val < s.us / 20 →
        r < -220 ∨ 600 < r ∨ (∃ q, Tab.get none s.thm.prev n.val = some q ∧ (80 < r - q ∨ 80 < q - r)) → ∃ t, exec (.sensorSample n r) s = .next t ∧ fget t pgThm (Fl.thmTValid n.val) = 0 ∧
        bitAt (rd t pgThm 0x010) 10 = true ∧
        (fget s pgThm Fl.faultClass = 0 → fget t pgThm Fl.faultClass = 9 ∧ fget t pgThm Fl.faultDetail = 3) ∧ t.mem = s.mem)) ∧
    (∀ a : Nat, s.thm.riseAt = some a → thermHot s = true →
      (s.us < a + fget s pgThm Fl.thmCtrlStepUs → exec .thermalStep s = .next s) ∧
      (a + fget s pgThm Fl.thmCtrlStepUs ≤ s.us → fget s pgThm Fl.thmMaxFloor < 5 → ∃ t, exec .thermalStep s = .next t ∧
        fget t pgThm Fl.thmMaxFloor = fget s pgThm Fl.thmMaxFloor + 1 ∧ t.thm.riseAt = some s.us ∧ t.mem = s.mem)) ∧
    (∀ a : Nat, s.thm.coolAt = some a →
      (s.us < a + fget s pgThm Fl.thmRelaxUs → exec .thermalRelax s = .next s) ∧
      (a + fget s pgThm Fl.thmRelaxUs ≤ s.us → fget s pgThm Fl.thmMaxFloor ≠ 0 → ∃ t, exec .thermalRelax s = .next t ∧
        fget t pgThm Fl.thmMaxFloor = fget s pgThm Fl.thmMaxFloor - 1 ∧ t.thm.coolAt = some s.us ∧
        t = { s with regs := t.regs, thm := t.thm })) ∧
    (s.us / 10 ≤ s.pwr.estAt → ∀ mw : BitVec 17, exec (.powerEstimate mw) s = .next s) ∧
    (s.pwr.estAt < s.us / 10 → ∀ mw : BitVec 17, ∃ t, exec (.powerEstimate mw) s = .next t ∧ fget t pgPwr Fl.pwrPkgNowMw = mw.toNat ∧
      t.pwr.est = (mw.toNat :: s.pwr.est).take 10000 ∧
      fget t pgPwr Fl.pwrPkgAvgMw = t.pwr.est.foldl (fun a b => a + b) 0 / t.pwr.est.length % 2 ^ 17 ∧ t.mem = s.mem) ∧
    (s.us / 1000 ≤ s.pwr.factorAt → exec .powerRecalibrate s = .next s) ∧
    (s.pwr.factorAt < s.us / 1000 → exec .powerRecalibrate s =
      .next { s with freeCtr := s.freeCtr + 1, pwr := { s.pwr with factor := Config.freeNat s.freeCtr, factorAt := s.us / 1000 } }) ∧
    (s.us / 10 ≤ s.pwr.capAt → exec .capThrottle s = .next s) ∧
    (s.pwr.capAt < s.us / 10 → fget s pgPwr Fl.pwrPkgPeakMw < fget s pgPwr Fl.pwrPkgNowMw ∨ fget s pgPwr Fl.pwrPkgCapMw < fget s pgPwr Fl.pwrPkgAvgMw →
      ∀ c : Nat, (capOrder s).reverse.find? (fun c => decide (fget s pgPwr (capField c).1 < (capField c).2)) = some c →
        ∃ t, exec .capThrottle s = .next t ∧ fget t pgPwr (capField c).1 = fget s pgPwr (capField c).1 + 1 ∧
          bitAt (rd t pgPwr 0x010) 9 = true ∧
          (c ≠ 0 → fget s pgPwr Fl.faultClass = 0 → fget t pgPwr Fl.faultClass = 8 ∧ fget t pgPwr Fl.faultDetail = 5) ∧ t.mem = s.mem) ∧
    (s.pwr.capAt < s.us / 10 → fget s pgPwr Fl.pwrPkgNowMw ≤ fget s pgPwr Fl.pwrPkgPeakMw → fget s pgPwr Fl.pwrPkgAvgMw ≤ fget s pgPwr Fl.pwrPkgCapMw →
      ∀ a c : Nat, s.pwr.capLow = some a → a + 1000 ≤ s.us →
        (capOrder s).find? (fun c => fget s pgPwr (capField c).1 != 0) = some c →
        ∃ t, exec .capThrottle s = .next t ∧ fget t pgPwr (capField c).1 = fget s pgPwr (capField c).1 - 1 ∧
          t.pwr = { s.pwr with capAt := s.us / 10 } ∧ OnlyRegs (keysOf pgPwr [0x154]) { s with pwr := t.pwr } t)

/-- The services by R370, R476, R477 and R480, the fuses by R478 and R479, the certificate and the attestation by R481 and R482. -/
def Obligations.ServicesAnswerTheirMessages : Prop :=
  ∀ s : State,
    (∀ p : PartId, fwRuns s = true → 8 ≤ (sdioSt s p).toHost.length →
      exec (.bootImage p) s = .next s ∧ exec (.attest p) s = .next s ∧ exec (.cert p) s = .next s ∧ exec (.unknown p) s = .next s ∧
        ∀ good : Bool, exec (.fuseCustkey p good) s = .next s ∧ exec (.fuseRevoke p good) s = .next s ∧
          exec (.arbAdvance p good) s = .next s ∧ exec (.bootDisable p good) s = .next s) ∧
    (∀ (p : PartId) (m : List Byte) (rest : List (List Byte)), (sdioSt s p).toFw = m :: rest → (sdioSt s p).toHost.length < 8 →
      let w := wordsOf m
      let i := pushedImage s
      (msgService m = 1 → p = 0 → s.boot.push = true →
        (imageFault s i.1 i.2 = none → ∃ t, exec (.bootImage p) s = .next t ∧ Replied s t p 1 m rest [rd t pgSec 0x130] ∧
          t.boot.running = true ∧ t.boot.push = false ∧ fget t pgSec Fl.secBootStatPhase = 7 ∧
          fget t pgSec Fl.secFwVerRollback = hdr i.1 0x10 8 ∧ fget t pgXcore Fl.xcoreRunRun = 0xF ∧ t.mem = s.mem) ∧
        (∀ d : Nat, imageFault s i.1 i.2 = some d → ∃ t, exec (.bootImage p) s = .next t ∧
          Replied s t p 1 m rest [rd t pgSec 0x130] ∧ t.boot.running = s.boot.running ∧ t.boot.push = true ∧
          fget t pgSec Fl.secBootStatDetail = d ∧
          (fget s pgSec Fl.faultClass = 0 → fget t pgSec Fl.faultClass = 0x0D ∧ fget t pgSec Fl.faultDetail = d) ∧ t.mem = s.mem)) ∧
      (msgService m = 1 → s.boot.push = true ∨ fwRuns s = true → s.boot.push = false ∨ p ≠ 0 →
        ∃ t, exec (.bootImage p) s = .next t ∧ Replied s t p 1 m rest [1] ∧ t.boot = s.boot ∧ t.mem = s.mem) ∧
      (fwRuns s = true →
        (∀ c e : Nat, (grantRange s (.fw p false) true (reqAddr w 9) 2176 = .error c e → msgService m = 2 →
            ∃ t, exec (.attest p) s = .next t ∧ Replied s t p 2 m rest [1] ∧ t.mem = s.mem) ∧
          (grantRange s (.fw p false) true (reqAddr w 9) (certBytes s).length = .error c e → msgService m = 3 →
            ∃ t, exec (.cert p) s = .next t ∧ Replied s t p 3 m rest [4] ∧ t.mem = s.mem)) ∧
        (msgService m = 2 → grantRange s (.fw p false) true (reqAddr w 9) 2176 = .served →
          ∃ (t : State) (out : List Byte), exec (.attest p) s = .next t ∧ Replied s t p 2 m rest [0] ∧ out.length = 2176 ∧
            (let d := Config.shake256 (s.boot.hImg ++ cfgBytes s ++ ((w.drop 1).take 8).flatMap wordBytes)
             out.take 64 = d.take 64 ++ List.replicate (64 - d.length) 0) ∧
            t.mem = (pokeReq (.fw p false) (reqAddr w 9) out s).mem) ∧
        (msgService m = 3 → grantRange s (.fw p false) true (reqAddr w 9) (certBytes s).length = .served →
          ∃ t, exec (.cert p) s = .next t ∧ Replied s t p 3 m rest [0] ∧
            t.mem = (pokeReq (.fw p false) (reqAddr w 9) (certBytes s) s).mem) ∧
        (msgService m = 4 → p = 0 → jw w 3 = 0x4B455953 → fget s pgSec Fl.secFuseFlagsCustValid = 0 →
          ∀ d : List Word, fetchWords s (.fw 0 false) (reqAddr w 1) 16 = .got d →
          ∃ t, exec (.fuseCustkey p true) s = .next t ∧ Replied s t p 4 m rest [0] ∧ fget t pgSec Fl.secFuseFlagsCustValid = 1 ∧
            (∀ k, k < 16 → rd t pgSec (0x1C0 + 4 * k) = rd s pgSec (0x1C0 + 4 * k) ||| nth 0 d k) ∧ t.mem = s.mem) ∧
        (msgService m = 5 → p = 0 → jw w 3 = 0x5245564B → fget s pgSec Fl.secFuseFlagsCustValid = 1 →
          fget s pgSec Fl.secFuseFlagsVendorRevoked = 0 →
          ∃ t, exec (.fuseRevoke p true) s = .next t ∧ Replied s t p 5 m rest [0] ∧ fget t pgSec Fl.secFuseFlagsVendorRevoked = 1 ∧
            fget t pgSec Fl.secFuseFlagsCustValid = 1 ∧ t.mem = s.mem) ∧
        (msgService m = 6 → p = 0 →
          ∃ t, exec (.arbAdvance p true) s = .next t ∧
            Replied s t p 6 m rest [0, BitVec.ofNat 32 (fget t pgSec Fl.secArbFuseCount)] ∧
            fget t pgSec Fl.secArbFuseCount =
              max (fget s pgSec Fl.secArbFuseCount) (min (jw w 1 % 128) (fget s pgSec Fl.secFwVerRollback)) ∧ t.mem = s.mem) ∧
        (msgService m = 7 → p = 0 → jw w 3 = 0x424F4F54 → (4 * (jw w 1 % 4) ||| (rd s pgSec 0x150).toNat) &&& 0xC ≠ 0xC →
          ∃ t, exec (.bootDisable p true) s = .next t ∧ Replied s t p 7 m rest [0] ∧
            rd t pgSec 0x150 = rd s pgSec 0x150 ||| BitVec.ofNat 32 (4 * (jw w 1 % 4)) ∧ t.mem = s.mem) ∧
        (p = 0 → ∀ good : Bool,
          (msgService m = 4 → jw w 3 ≠ 0x4B455953 → ∃ t, exec (.fuseCustkey p good) s = .next t ∧ Replied s t p 4 m rest [3] ∧ t.boot = s.boot) ∧
          (msgService m = 4 → jw w 3 = 0x4B455953 → fget s pgSec Fl.secFuseFlagsCustValid = 1 →
            ∃ t, exec (.fuseCustkey p good) s = .next t ∧ Replied s t p 4 m rest [2] ∧ t.boot = s.boot) ∧
          (msgService m = 5 → jw w 3 ≠ 0x5245564B ∨ fget s pgSec Fl.secFuseFlagsCustValid = 0 →
            ∃ t, exec (.fuseRevoke p good) s = .next t ∧ Replied s t p 5 m rest [3] ∧ t.boot = s.boot) ∧
          (msgService m = 7 → jw w 3 ≠ 0x424F4F54 ∨ (4 * (jw w 1 % 4) ||| (rd s pgSec 0x150).toNat) &&& 0xC = 0xC →
            ∃ t, exec (.bootDisable p good) s = .next t ∧ Replied s t p 7 m rest [3] ∧ t.boot = s.boot)) ∧
        (p ≠ 0 → ∀ good : Bool,
          (msgService m = 4 → ∃ t, exec (.fuseCustkey p good) s = .next t ∧ Replied s t p 4 m rest [1] ∧ t.boot = s.boot) ∧
          (msgService m = 5 → ∃ t, exec (.fuseRevoke p good) s = .next t ∧ Replied s t p 5 m rest [1] ∧ t.boot = s.boot) ∧
          (msgService m = 6 → ∃ t, exec (.arbAdvance p good) s = .next t ∧ Replied s t p 6 m rest [1] ∧ t.boot = s.boot) ∧
          (msgService m = 7 → ∃ t, exec (.bootDisable p good) s = .next t ∧ Replied s t p 7 m rest [1] ∧ t.boot = s.boot)) ∧
        (¬ (1 ≤ msgService m ∧ msgService m ≤ 7) →
          ∃ t, exec (.unknown p) s = .next t ∧ Replied s t p 0xFF m rest [] ∧ t.mem = s.mem))) ∧
    (∀ (who : Requester) (v : Word), Accepted s who pgSec 0x144 0 → ∃ t, exec (.secArbAdv who v true) s = .next t ∧
      fget t pgSec Fl.secArbFuseCount =
        max (fget s pgSec Fl.secArbFuseCount) (min (v.toNat % 128) (fget s pgSec Fl.secFwVerRollback)) ∧ t.mem = s.mem)

/-- Resets by R471 and R472, the end of a flush by R493, boot by R473, R476 and R477, the SRAM by R501. -/
def Obligations.ResetsAndBoot : Prop :=
  ∀ s : State,
    (∃ t, exec .por s = .next t ∧ fget t pgSec Fl.secRstCauseCause = 1 ∧ t.snt = s.snt ∧ t.boot.fuses = s.boot.fuses ∧
      t.pending = s.pending ∧ t.groups = [] ∧ t.jobs = [] ∧ t.fum.buf = [] ∧
      (∀ pg off, pg ≠ pgSec → pg ≠ pgPwr → pg ≠ pgThm → rd t pg off = rd State.reset pg off) ∧
      (industrial t = false → ∀ off, rd t pgThm off = rd State.reset pgThm off) ∧
      (industrial t = true → ∀ n, n < 32 → rd t pgThm (0x200 + 16 * n) = 0x190 ∧ rd t pgThm (0x204 + 16 * n) = 0x1A4 ∧
        rd t pgThm (0x208 + 16 * n) = 0x1CC) ∧
      ((∀ e ∈ s.hubs, ∀ l ∈ e.2.lines, l.dirty = false) → t.mem = s.mem)) ∧
    (s.boot.rst ≠ none → exec .pin s = .next s) ∧
    (s.boot.rst = none →
      (∃ t, exec .pin s = .next t ∧ t.boot.rst = some .pin ∧ fget t pgFum Fl.fumStatFlushing = 1 ∧ t.fumIn = [] ∧
        (s.fumIn = [] → fget s pgFum Fl.fumStatFlushing = 0 → t.fum.buf = s.fum.buf ∧ t.fum.writing = s.fum.buf.length) ∧
        t.mem = s.mem ∧ t.snt = s.snt) ∧
      (∀ k : Nat, s.boot.kickAt = some k →
        (s.us < k + 1000 * fget s pgSec Fl.secWdogLimitMs → exec .wdog s = .next s) ∧
        (k + 1000 * fget s pgSec Fl.secWdogLimitMs ≤ s.us → ∃ t, exec .wdog s = .next t ∧ t.boot.rst = some .wdog ∧
          fget t pgFum Fl.fumStatFlushing = 1 ∧
          (fget s pgSec Fl.faultClass = 0 → fget t pgSec Fl.faultClass = 0x0D ∧ fget t pgSec Fl.faultDetail = 0x0B) ∧ t.mem = s.mem)) ∧
      (∀ (who : Requester) (v : Word), Accepted s who pgSec 0x124 0 →
        (∀ a : Nat, s.boot.armAt = some a → s.us ≤ a + 1000 → ∃ t, exec (.soft who v) s = .next t ∧ t.boot.rst = some .soft ∧
          fget t pgFum Fl.fumStatFlushing = 1 ∧ t.mem = s.mem) ∧
        ((∀ a : Nat, s.boot.armAt = some a → a + 1000 < s.us) → ∃ t, exec (.soft who v) s = .next t ∧ t.boot.rst = none ∧ t.regs = s.regs))) ∧
    (∀ who : Requester,
      (Accepted s who pgSec 0x124 0 → exec (.secRstArm who) s = .next { s with boot := { s.boot with armAt := some s.us } }) ∧
      (Accepted s who pgSec 0x128 0 → exec (.wdogKick who) s = .next { s with boot := { s.boot with kickAt := some s.us } })) ∧
    (fget s pgFum Fl.fumStatFlushing = 0 → exec .flushed s = .next s) ∧
    (fget s pgFum Fl.fumStatFlushing = 1 → s.fum.again = true → ∃ t, exec .flushed s = .next t ∧ fget t pgFum Fl.fumStatFlushing = 1 ∧
      t.fum.buf = s.fum.buf.drop s.fum.writing ∧ t.fum.writing = t.fum.buf.length ∧ t.fum.again = false ∧ t.boot = s.boot ∧
      bitAt (rd t pgFum 0x010) 8 = true ∧ t.mem = s.mem) ∧
    (fget s pgFum Fl.fumStatFlushing = 1 → s.fum.again = false →
      let out := { (s.fum.buf.take s.fum.writing).foldl storeRec s.snt with
        optime := max s.snt.optime s.fum.optime, cycles := max s.snt.cycles s.fum.cycle }
      (s.boot.rst = none → ∃ t, exec .flushed s = .next t ∧ t.snt = out ∧ t.fum.buf = s.fum.buf.drop s.fum.writing ∧
        fget t pgFum Fl.fumStatFlushing = 0 ∧ bitAt (rd t pgFum 0x010) 8 = true ∧ t.mem = s.mem) ∧
      (∀ c : RstCause, s.boot.rst = some c → ∃ t, exec .flushed s = .next t ∧ t.snt = out ∧ t.boot.rst = none ∧
        t.boot.fuses = s.boot.fuses ∧ fget t pgSec Fl.secRstCauseCause = causeBit c ∧ t.groups = [] ∧ t.jobs = [])) ∧
    (∀ o : BootObs,
      (fget s pgSec Fl.secBootStatFailed ≠ 0 → exec (.bootSequence o) s = .next s) ∧
      (fget s pgSec Fl.secBootStatFailed = 0 → s.boot.rst = none →
        (bootPhase s = 0 → tripped s = false → fget s pgPwr Fl.pwrAlertAsserted = 0 → domainOn s 23 = false →
          fbit s pgPwr Fl.pwrDomBusyRamp 23 = false →
          ∃ t, exec (.bootSequence o) s = .next t ∧ bootPhase t = 1 ∧ fbit t pgPwr Fl.pwrDomBusyRamp 23 = true ∧ t.mem = s.mem) ∧
        (bootPhase s = 1 →
          (domainOn s 23 = false → exec (.bootSequence o) s = .next s) ∧
          (domainOn s 23 = true → ∃ t, exec (.bootSequence o) s = .next t ∧ bootPhase t = 2 ∧
            fget t pgSec Fl.secBootStatFailed = b2n (!o.fuseOk) ∧
            (o.fuseOk = false → fget t pgSec Fl.secBootStatDetail = 1) ∧ t.mem = s.mem)) ∧
        (bootPhase s = 0 → tripped s = true ∨ fget s pgPwr Fl.pwrAlertAsserted ≠ 0 → exec (.bootSequence o) s = .next s) ∧
        (bootPhase s = 2 → s.snt.ignore = true → ∃ t, exec (.bootSequence o) s = .next t ∧ bootPhase t = 3 ∧
          fget t pgSnt Fl.sntStatIgnored = 1 ∧ t.retained = s.retained ∧ t.mem = s.mem) ∧
        (∀ x : Snap, bootPhase s = 2 → s.snt.ignore = false → s.snt.last = some x → ∃ t, exec (.bootSequence o) s = .next t ∧ bootPhase t = 3 ∧
          (o.digestOk = true → fget t pgSnt Fl.sntStatRestored = 1 ∧ t.retained = x.vals ∧ t.trained = x.trained) ∧
          (o.digestOk = false → fget t pgSnt Fl.sntStatDigestFail = 1 ∧ t.retained = s.retained ∧
            (fget s pgSnt Fl.faultClass = 0 → fget t pgSnt Fl.faultClass = 0x0D ∧ fget t pgSnt Fl.faultDetail = 9)) ∧ t.mem = s.mem) ∧
        (bootPhase s = 2 → s.snt.ignore = false → s.snt.last = none → ∃ t, exec (.bootSequence o) s = .next t ∧ bootPhase t = 3 ∧
          t.snt.cycles = s.snt.cycles + b2n (decide (fget s pgSec Fl.secRstCauseCause = 1)) ∧ fget t pgSnt Fl.sntStatNone = 1 ∧
          t.mem = s.mem) ∧
        (bootPhase s = 3 → ∃ t, exec (.bootSequence o) s = .next t ∧ bootPhase t = 4 ∧ fget t pgClk Fl.clkPllCtrlRootEn = 1 ∧
          t.pwr.xtalA = true ∧ t.boot.xtalAt = s.us ∧ t.mem = s.mem) ∧
        (bootPhase s = 4 → fget s pgClk Fl.clkStatSwitching = 0 →
          (fget s pgClk Fl.clkStatRoot = (if s.boot.auxPath then 1 else 2) → ∃ t, exec (.bootSequence o) s = .next t ∧ bootPhase t = 5 ∧ t.mem = s.mem) ∧
          (s.boot.auxPath = false → fget s pgClk Fl.clkStatRoot ≠ 2 → srcReady s 4 = false → srcReady s 2 = false → s.boot.xtalAt + 2000 ≤ s.us →
            ∃ t, exec (.bootSequence o) s = .next t ∧ t.boot.auxPath = true ∧ fget t pgClk Fl.clkPllCtrlAuxEn = 1 ∧ bootPhase t = 4 ∧
              (fget s pgClk Fl.faultClass = 0 → fget t pgClk Fl.faultClass = 7 ∧ fget t pgClk Fl.faultDetail = 3) ∧ t.mem = s.mem)) ∧
        (bootPhase s = 5 → (∃ k ∈ allLinks, linkState s k ≠ 2 ∧ linkState s k ≠ 4) → exec (.bootSequence o) s = .next s) ∧
        (∀ n : Nat, bootPhase s = 5 → (∀ k ∈ allLinks, linkState s k = 2 ∨ linkState s k = 4) → allDies.all (dieReached s) = true →
          fget s pgSec Fl.secFuseFlagsSpiBootDis = 0 → fget s pgSec Fl.secFuseFlagsSdioBootDis = 0 → hdr o.image 0 4 = 0x57465A4F →
          imageFault s (o.image.take 0x2000) (slice o.image 0x2000 (hdr o.image 8 4)) = some n →
          ∃ t, exec (.bootSequence o) s = .next t ∧ bootPhase t = 6 ∧ t.boot.push = true ∧ t.boot.running = s.boot.running ∧
            fget t pgSec Fl.secBootStatDetail = n) ∧
        (bootPhase s = 5 → (∀ k ∈ allLinks, linkState s k = 2 ∨ linkState s k = 4) →
          (allDies.all (dieReached s) = false → ∃ t, exec (.bootSequence o) s = .next t ∧ fget t pgSec Fl.secBootStatFailed = 1 ∧
            fget t pgSec Fl.secBootStatDetail = 8 ∧ t.mem = s.mem) ∧
          (allDies.all (dieReached s) = true → fget s pgSec Fl.secFuseFlagsSpiBootDis = 0 →
            imageFault s (o.image.take 0x2000) (slice o.image 0x2000 (hdr o.image 8 4)) = none →
            ∃ t, exec (.bootSequence o) s = .next t ∧ t.boot.running = true ∧ bootPhase t = 7 ∧
              fget t pgSec Fl.secFwVerRollback = hdr o.image 0x10 8)))) ∧
    (∀ corrected : Bool,
      (domainOn s 23 = false → exec (.fwSramEcc corrected) s = .next s) ∧
      (domainOn s 23 = true →
        (∃ t, exec (.fwSramEcc true) s = .next t ∧
          fget t pgXcore Fl.xcoreEccCorrected = min (fget s pgXcore Fl.xcoreEccCorrected + 1) 65535 ∧
          bitAt (rd t pgXcore 0x010) 8 = true ∧ OnlyRegs (keysOf pgXcore [0x010, 0x10C]) s t) ∧
        (∃ t, exec (.fwSramEcc false) s = .next t ∧
          fget t pgXcore Fl.xcoreEccUncorr = min (fget s pgXcore Fl.xcoreEccUncorr + 1) 65535 ∧ fget t pgXcore Fl.xcoreRunRun = 0 ∧
          t.boot.running = false ∧
          (fget s pgXcore Fl.faultClass = 0 → fget t pgXcore Fl.faultClass = 0x0D ∧ fget t pgXcore Fl.faultDetail = 0x0C) ∧
          t.mem = s.mem)))

/-- Snapshots by R485 to R487, IGNORE by R488, tags by R490, records by R491 to R493, limits by R495. -/
def Obligations.SnapshotsTagsAndRecords : Prop :=
  ∀ s : State,
    (∀ who : Requester, Accepted s who pgSnt 0x104 0 → ∃ t, exec (.sntSnap who) s = .next t ∧
      OnlyRegs (keysOf pgSnt [0x108]) { s with boot := t.boot } t ∧
      (fget s pgSnt Fl.sntStatSnap = 0 → fget t pgSnt Fl.sntStatSnap = 1 ∧ t.boot = { s.boot with readPages := 0, readVals := [] }) ∧
      (fget s pgSnt Fl.sntStatSnap ≠ 0 → t.boot = s.boot ∧ fget t pgSnt Fl.sntStatPending = 1 ∧ fget t pgSnt Fl.sntStatSnap = fget s pgSnt Fl.sntStatSnap)) ∧
    (fget s pgSnt Fl.sntStatSnap ≠ 1 → exec .snapshotCollected s = .next s) ∧
    (fget s pgSnt Fl.sntStatSnap = 1 → ∃ t, exec .snapshotCollected s = .next t ∧ fget t pgSnt Fl.sntStatSnap = 2 ∧
      t.boot.snap = some ⟨((s.snt.last.map Snap.seq).getD 0 + 1) % 2 ^ 32, snapValues s, snapTraining s⟩ ∧ t.snt = s.snt ∧ t.mem = s.mem) ∧
    (∀ x : Snap, s.boot.snap = some x → fget s pgSnt Fl.sntStatSnap = 2 →
      (fget s pgFum Fl.fumStatFlushing = 1 → exec .snapshot s = .next s) ∧
      (fget s pgFum Fl.fumStatFlushing = 0 → ∃ t, exec .snapshot s = .next t ∧ t.snt = { s.snt with last := some x } ∧
        t.retained = x.vals ∧ t.trained = x.trained ∧ t.boot.snap = none ∧ fget t pgSnt Fl.sntSnapSeqSeq = x.seq % 2 ^ 32 ∧
        bitAt (rd t pgSnt 0x010) 8 = true ∧ fget t pgSnt Fl.sntStatSnap = fget s pgSnt Fl.sntStatPending ∧
        fget t pgSnt Fl.sntStatPending = 0 ∧ t.mem = s.mem)) ∧
    (∀ (who : Requester) (v : Word), fget s pgSnt Fl.lockCfg = 0 →
      (Accepted s who pgSnt 0x100 0 → ∃ t, exec (.ignoreWrite who v) s = .next t ∧ t.snt = { s.snt with ignore := bitAt v 0 } ∧
        fget t pgSnt Fl.sntCtrlIgnore = b2n (bitAt v 0) ∧ t = { s with regs := t.regs, snt := t.snt }) ∧
      (∀ i : Fin 256, Accepted s who pgSnt (0x800 + 4 * i.val) 0 →
        (s.snt.tagLock.testBit (i.val / 16) = false → ∃ t, exec (.tagWrite who i v) s = .next t ∧
          (∀ j, Tab.get 0 t.snt.tags j = (if j = i.val then v else Tab.get 0 s.snt.tags j)) ∧ rd t pgSnt (0x800 + 4 * i.val) = v ∧
          t.snt = { s.snt with tags := t.snt.tags } ∧ t = { s with regs := t.regs, snt := t.snt }) ∧
        (s.snt.tagLock.testBit (i.val / 16) = true → ∃ t, exec (.tagWrite who i v) s = .next t ∧ t.snt = s.snt ∧
          rd t pgSnt (0x800 + 4 * i.val) = rd s pgSnt (0x800 + 4 * i.val) ∧
          (fget s pgSnt Fl.faultClass = 0 → fget t pgSnt Fl.faultClass = 0x0D ∧ fget t pgSnt Fl.faultDetail = 0x0A))) ∧
      (Accepted s who pgSnt 0x120 0 → ∃ t, exec (.tagLock who v) s = .next t ∧
        t.snt = { s.snt with tagLock := s.snt.tagLock ||| v.toNat % 2 ^ 16 } ∧ t = { s with regs := t.regs, snt := t.snt })) ∧
    (∀ (r : FumRec) (rest : List FumRec), s.fumIn = r :: rest →
      (r.code = 0x1004 ∨ (s.fum.buckets.length < 32 ∧ ∀ b ∈ s.fum.buckets, b.code = r.code → 0 < b.tokens) →
        (s.fum.buf.length < 64 → ∃ t, exec .fumaroleRecord s = .next t ∧ t.fumIn = rest ∧
          t.fum.buf = s.fum.buf ++ [{ r with optime := s.fum.optime, cycle := s.fum.cycle, seq := fget s pgFum Fl.fumSeqSeq }] ∧
          fget t pgFum Fl.fumSeqSeq = (fget s pgFum Fl.fumSeqSeq + 1) % 2 ^ 32 ∧
          (r.code < 0x1000 → fget t pgFum Fl.fumStatFlushing = 1) ∧ t.snt = s.snt ∧ t.mem = s.mem) ∧
        (64 ≤ s.fum.buf.length → ∃ t, exec .fumaroleRecord s = .next t ∧ t.fumIn = rest ∧ t.fum.buf = s.fum.buf ∧
          fget t pgFum Fl.fumLostCount = min (fget s pgFum Fl.fumLostCount + 1) (2 ^ 32 - 1) ∧ bitAt (rd t pgFum 0x010) 9 = true ∧
          t.snt = s.snt)) ∧
      (∀ b : Bucket, s.fum.buckets.find? (fun b => b.code = r.code) = some b → r.code ≠ 0x1004 → b.tokens = 0 →
        (s.us - b.from') * fumRate s / 1000000 ≤ b.gained → ∃ t, exec .fumaroleRecord s = .next t ∧ t.fumIn = rest ∧
          t.fum.buf = s.fum.buf ∧ fget t pgFum Fl.fumSupprCount = min (fget s pgFum Fl.fumSupprCount + 1) (2 ^ 32 - 1) ∧
          (∃ x ∈ t.fum.buckets, x.code = r.code ∧ x.count = b.count + 1 ∧ x.last = r.code ∧ x.lastAt = s.us))) ∧
    (∀ who : Requester, Accepted s who pgFum 0x100 0 →
      (fget s pgFum Fl.fumStatFlushing = 1 → exec (.flush who) s = .next { s with fum := { s.fum with again := true } }) ∧
      (fget s pgFum Fl.fumStatFlushing = 0 → ∃ t, exec (.flush who) s = .next t ∧ fget t pgFum Fl.fumStatFlushing = 1 ∧
        t.fum = { s.fum with writing := s.fum.buf.length, again := false } ∧ t = { s with regs := t.regs, fum := t.fum })) ∧
    (∃ t, exec .tokenRefill s = .next t ∧ t = { s with fum := t.fum } ∧ t.fum.buf = s.fum.buf ∧
      (∀ b ∈ t.fum.buckets, b.tokens ≤ fumBurst s ∧ (b.tokens = fumBurst s → b.count ≠ 0) ∧ b.code ∈ s.fum.buckets.map Bucket.code)) ∧
    ((∀ b ∈ s.fum.buckets ++ s.fum.shared.toList, b.count = 0 ∨ s.us < b.lastAt + 1000000) →
      ∃ t, exec .suppressed s = .next t ∧ t = { s with fum := t.fum }) ∧
    (∃ t, exec .suppressed s = .next t ∧ t.snt = s.snt ∧ t.mem = s.mem ∧ s.fumIn <+: t.fumIn ∧
      (∀ b ∈ s.fum.buckets ++ s.fum.shared.toList, b.count ≠ 0 → b.lastAt + 1000000 ≤ s.us →
        (⟨0x1004, fumSource pgFum, 0, 0, 0, 0, BitVec.ofNat 32 b.first, BitVec.ofNat 32 b.count, BitVec.ofNat 32 b.last⟩ : FumRec) ∈ t.fumIn) ∧
      (∀ x ∈ t.fum.buckets ++ t.fum.shared.toList, x.count = 0 ∨ s.us < x.lastAt + 1000000))
end

