-- ==== Sys2Proof/Laws/Bits.lean ====
section
/-! SUPPORT. What a reader of a table or of a bit field finds after a write. -/

namespace Sys2Proof.Machine

/-! ## Tables -/

section
variable {κ α : Type} [DecidableEq κ]

theorem Tab.get_drop_other (d : α) (t : Tab κ α) (p : κ → Bool) (k : κ) (h : p k = false) :
    Tab.get d (Tab.drop t p) k = Tab.get d t k := by
  induction t with
  | nil => rfl
  | cons e r ih =>
    obtain ⟨j, v⟩ := e
    by_cases hj : k = j
    · subst hj
      simp [Tab.drop, Tab.get, h]
    · cases hp : p j <;> simp_all [Tab.drop, Tab.get]

theorem Tab.get_drop_same (d : α) (t : Tab κ α) (p : κ → Bool) (k : κ) (h : p k = true) :
    Tab.get d (Tab.drop t p) k = d := by
  induction t with
  | nil => rfl
  | cons e r ih =>
    obtain ⟨j, v⟩ := e
    by_cases hj : k = j
    · subst hj
      simp_all [Tab.drop]
    · cases hp : p j <;> simp_all [Tab.drop, Tab.get]

@[simp] theorem Tab.get_put_same (d : α) (t : Tab κ α) (k : κ) (v : α) : Tab.get d (Tab.put t k v) k = v := by
  simp [Tab.put, Tab.get]

theorem Tab.get_put_other (d : α) (t : Tab κ α) {k j : κ} (v : α) (h : j ≠ k) :
    Tab.get d (Tab.put t k v) j = Tab.get d t j := by
  rw [Tab.put, Tab.get, if_neg h, Tab.get_drop_other]
  simp [h]

theorem Tab.get_put (d : α) (t : Tab κ α) (k j : κ) (v : α) :
    Tab.get d (Tab.put t k v) j = if j = k then v else Tab.get d t j := by
  by_cases h : j = k
  · subst h; simp
  · simp [h, Tab.get_put_other]

end

/-! ## Fields -/

theorem bitsOf_lt (v lo width : Nat) : bitsOf v lo width < 2 ^ width := Nat.mod_lt _ (Nat.two_pow_pos _)

theorem bitsOf_testBit (v lo width i : Nat) : (bitsOf v lo width).testBit i = (decide (i < width) && v.testBit (lo + i)) := by
  simp [bitsOf, Nat.testBit_mod_two_pow, Nat.testBit_div_two_pow, Nat.add_comm]

theorem Fld.get_lt (f : Fld) (w : Word) : f.get w < 2 ^ f.width := bitsOf_lt _ _ _

/-- Bit `i` of a word after a write of a field. -/
theorem Fld.getLsbD_put (f : Fld) (w : Word) (v i : Nat) (h : f.lo + f.width ≤ 32) :
    (f.put w v).getLsbD i =
      if f.lo ≤ i ∧ i < f.lo + f.width then v.testBit (i - f.lo) else w.getLsbD i := by
  by_cases hi : i < 32
  · have h1 : ∀ n, (BitVec.ofNat 32 n).getLsbD i = n.testBit i := by
      intro n; rw [BitVec.getLsbD_ofNat]; simp only [hi, decide_true, Bool.true_and]
    have hm : (maskOf f.lo f.width).getLsbD i = decide (f.lo ≤ i ∧ i < f.lo + f.width) := by
      rw [maskOf, h1, Nat.testBit_mul_two_pow, Nat.testBit_two_pow_sub_one]
      by_cases ha : f.lo ≤ i <;> simp only [ha, decide_true, decide_false, Bool.true_and, Bool.false_and, true_and, false_and]
      congr 1; apply propext; omega
    have hv : (BitVec.ofNat 32 (v % 2 ^ f.width * 2 ^ f.lo)).getLsbD i =
        (decide (f.lo ≤ i ∧ i < f.lo + f.width) && v.testBit (i - f.lo)) := by
      rw [h1, Nat.testBit_mul_two_pow, Nat.testBit_mod_two_pow]
      by_cases ha : f.lo ≤ i <;> simp only [ha, decide_true, decide_false, Bool.true_and, Bool.false_and, true_and, false_and]
      congr 2; apply propext; omega
    have hn : (~~~ maskOf f.lo f.width).getLsbD i = !decide (f.lo ≤ i ∧ i < f.lo + f.width) := by
      rw [BitVec.getLsbD_not, hm]; simp only [hi, decide_true, Bool.true_and]
    rw [Fld.put, BitVec.getLsbD_or, BitVec.getLsbD_and, hn, hv]
    by_cases hc : f.lo ≤ i ∧ i < f.lo + f.width <;> simp only [hc, decide_true, decide_false] <;> simp
  · rw [BitVec.getLsbD_of_ge _ _ (by omega), BitVec.getLsbD_of_ge _ _ (by omega), if_neg (by omega)]

theorem toNat_testBit (w : Word) (i : Nat) : w.toNat.testBit i = w.getLsbD i := by
  simp [BitVec.getLsbD]

/-- A field reads back what was written, modulo its width. -/
theorem Fld.get_put_same (f : Fld) (w : Word) (v : Nat) (h : f.lo + f.width ≤ 32) : f.get (f.put w v) = v % 2 ^ f.width := by
  apply Nat.eq_of_testBit_eq
  intro i
  rw [Fld.get, bitsOf_testBit, toNat_testBit, Fld.getLsbD_put _ _ _ _ h, Nat.testBit_mod_two_pow]
  by_cases hi : i < f.width
  · have : f.lo ≤ f.lo + i ∧ f.lo + i < f.lo + f.width := by omega
    simp [hi]
  · simp [hi]

/-- A field that shares no bit with the one written keeps its value. -/
theorem Fld.get_put_disjoint (f g : Fld) (w : Word) (v : Nat) (hf : f.lo + f.width ≤ 32)
    (h : g.lo + g.width ≤ f.lo ∨ f.lo + f.width ≤ g.lo) : g.get (f.put w v) = g.get w := by
  apply Nat.eq_of_testBit_eq
  intro i
  rw [Fld.get, Fld.get, bitsOf_testBit, bitsOf_testBit, toNat_testBit, toNat_testBit, Fld.getLsbD_put _ _ _ _ hf]
  by_cases hi : i < g.width
  · have : ¬ (f.lo ≤ g.lo + i ∧ g.lo + i < f.lo + f.width) := by omega
    simp [this]
  · simp [hi]

end Sys2Proof.Machine
end

