-- ==== Sys2Proof/Laws/State.lean ====
section
/-! SUPPORT. What each field of the state is after each of the updates that change one field: one lemma per field per
update, true by rfl. -/

namespace Sys2Proof.Machine

/-! ## wr -/

@[simp] theorem wr_pending (pg : PageKey) (off : Nat) (w : Word) (s : State) : (wr pg off w s).pending = s.pending := rfl
@[simp] theorem wr_now (pg : PageKey) (off : Nat) (w : Word) (s : State) : (wr pg off w s).now = s.now := rfl
@[simp] theorem wr_us (pg : PageKey) (off : Nat) (w : Word) (s : State) : (wr pg off w s).us = s.us := rfl
@[simp] theorem wr_usPhase (pg : PageKey) (off : Nat) (w : Word) (s : State) : (wr pg off w s).usPhase = s.usPhase := rfl
@[simp] theorem wr_freeCtr (pg : PageKey) (off : Nat) (w : Word) (s : State) : (wr pg off w s).freeCtr = s.freeCtr := rfl
@[simp] theorem wr_regs (pg : PageKey) (off : Nat) (w : Word) (s : State) : (wr pg off w s).regs = Tab.put s.regs (canonKey pg off) w := rfl
@[simp] theorem wr_mem (pg : PageKey) (off : Nat) (w : Word) (s : State) : (wr pg off w s).mem = s.mem := rfl
@[simp] theorem wr_staged (pg : PageKey) (off : Nat) (w : Word) (s : State) : (wr pg off w s).staged = s.staged := rfl
@[simp] theorem wr_shadow (pg : PageKey) (off : Nat) (w : Word) (s : State) : (wr pg off w s).shadow = s.shadow := rfl
@[simp] theorem wr_groups (pg : PageKey) (off : Nat) (w : Word) (s : State) : (wr pg off w s).groups = s.groups := rfl
@[simp] theorem wr_commits (pg : PageKey) (off : Nat) (w : Word) (s : State) : (wr pg off w s).commits = s.commits := rfl
@[simp] theorem wr_softPend (pg : PageKey) (off : Nat) (w : Word) (s : State) : (wr pg off w s).softPend = s.softPend := rfl
@[simp] theorem wr_links (pg : PageKey) (off : Nat) (w : Word) (s : State) : (wr pg off w s).links = s.links := rfl
@[simp] theorem wr_outstanding (pg : PageKey) (off : Nat) (w : Word) (s : State) : (wr pg off w s).outstanding = s.outstanding := rfl
@[simp] theorem wr_nextReq (pg : PageKey) (off : Nat) (w : Word) (s : State) : (wr pg off w s).nextReq = s.nextReq := rfl
@[simp] theorem wr_completed (pg : PageKey) (off : Nat) (w : Word) (s : State) : (wr pg off w s).completed = s.completed := rfl
@[simp] theorem wr_fumIn (pg : PageKey) (off : Nat) (w : Word) (s : State) : (wr pg off w s).fumIn = s.fumIn := rfl
@[simp] theorem wr_wakeQ (pg : PageKey) (off : Nat) (w : Word) (s : State) : (wr pg off w s).wakeQ = s.wakeQ := rfl
@[simp] theorem wr_tiles (pg : PageKey) (off : Nat) (w : Word) (s : State) : (wr pg off w s).tiles = s.tiles := rfl
@[simp] theorem wr_heldDone (pg : PageKey) (off : Nat) (w : Word) (s : State) : (wr pg off w s).heldDone = s.heldDone := rfl
@[simp] theorem wr_remoteSteps (pg : PageKey) (off : Nat) (w : Word) (s : State) : (wr pg off w s).remoteSteps = s.remoteSteps := rfl
@[simp] theorem wr_barriers (pg : PageKey) (off : Nat) (w : Word) (s : State) : (wr pg off w s).barriers = s.barriers := rfl
@[simp] theorem wr_barrierSeen (pg : PageKey) (off : Nat) (w : Word) (s : State) : (wr pg off w s).barrierSeen = s.barrierSeen := rfl
@[simp] theorem wr_evidenceIn (pg : PageKey) (off : Nat) (w : Word) (s : State) : (wr pg off w s).evidenceIn = s.evidenceIn := rfl
@[simp] theorem wr_memCfg (pg : PageKey) (off : Nat) (w : Word) (s : State) : (wr pg off w s).memCfg = s.memCfg := rfl
@[simp] theorem wr_hubs (pg : PageKey) (off : Nat) (w : Word) (s : State) : (wr pg off w s).hubs = s.hubs := rfl
@[simp] theorem wr_subs (pg : PageKey) (off : Nat) (w : Word) (s : State) : (wr pg off w s).subs = s.subs := rfl
@[simp] theorem wr_devs (pg : PageKey) (off : Nat) (w : Word) (s : State) : (wr pg off w s).devs = s.devs := rfl
@[simp] theorem wr_retained (pg : PageKey) (off : Nat) (w : Word) (s : State) : (wr pg off w s).retained = s.retained := rfl
@[simp] theorem wr_trained (pg : PageKey) (off : Nat) (w : Word) (s : State) : (wr pg off w s).trained = s.trained := rfl
@[simp] theorem wr_jobs (pg : PageKey) (off : Nat) (w : Word) (s : State) : (wr pg off w s).jobs = s.jobs := rfl
@[simp] theorem wr_partCnt (pg : PageKey) (off : Nat) (w : Word) (s : State) : (wr pg off w s).partCnt = s.partCnt := rfl
@[simp] theorem wr_nextJid (pg : PageKey) (off : Nat) (w : Word) (s : State) : (wr pg off w s).nextJid = s.nextJid := rfl
@[simp] theorem wr_nextRel (pg : PageKey) (off : Nat) (w : Word) (s : State) : (wr pg off w s).nextRel = s.nextRel := rfl
@[simp] theorem wr_submits (pg : PageKey) (off : Nat) (w : Word) (s : State) : (wr pg off w s).submits = s.submits := rfl
@[simp] theorem wr_saved (pg : PageKey) (off : Nat) (w : Word) (s : State) : (wr pg off w s).saved = s.saved := rfl
@[simp] theorem wr_ctxRun (pg : PageKey) (off : Nat) (w : Word) (s : State) : (wr pg off w s).ctxRun = s.ctxRun := rfl
@[simp] theorem wr_window (pg : PageKey) (off : Nat) (w : Word) (s : State) : (wr pg off w s).window = s.window := rfl
@[simp] theorem wr_winNo (pg : PageKey) (off : Nat) (w : Word) (s : State) : (wr pg off w s).winNo = s.winNo := rfl
@[simp] theorem wr_cpl (pg : PageKey) (off : Nat) (w : Word) (s : State) : (wr pg off w s).cpl = s.cpl := rfl
@[simp] theorem wr_rings (pg : PageKey) (off : Nat) (w : Word) (s : State) : (wr pg off w s).rings = s.rings := rfl
@[simp] theorem wr_cams (pg : PageKey) (off : Nat) (w : Word) (s : State) : (wr pg off w s).cams = s.cams := rfl
@[simp] theorem wr_chans (pg : PageKey) (off : Nat) (w : Word) (s : State) : (wr pg off w s).chans = s.chans := rfl
@[simp] theorem wr_slices (pg : PageKey) (off : Nat) (w : Word) (s : State) : (wr pg off w s).slices = s.slices := rfl
@[simp] theorem wr_cal (pg : PageKey) (off : Nat) (w : Word) (s : State) : (wr pg off w s).cal = s.cal := rfl
@[simp] theorem wr_pwr (pg : PageKey) (off : Nat) (w : Word) (s : State) : (wr pg off w s).pwr = s.pwr := rfl
@[simp] theorem wr_thm (pg : PageKey) (off : Nat) (w : Word) (s : State) : (wr pg off w s).thm = s.thm := rfl
@[simp] theorem wr_snt (pg : PageKey) (off : Nat) (w : Word) (s : State) : (wr pg off w s).snt = s.snt := rfl
@[simp] theorem wr_fum (pg : PageKey) (off : Nat) (w : Word) (s : State) : (wr pg off w s).fum = s.fum := rfl
@[simp] theorem wr_boot (pg : PageKey) (off : Nat) (w : Word) (s : State) : (wr pg off w s).boot = s.boot := rfl
@[simp] theorem wr_sdio (pg : PageKey) (off : Nat) (w : Word) (s : State) : (wr pg off w s).sdio = s.sdio := rfl

/-! ## poke -/

@[simp] theorem poke_pending (a : Nat) (l : List Byte) (s : State) : (poke a l s).pending = s.pending := rfl
@[simp] theorem poke_now (a : Nat) (l : List Byte) (s : State) : (poke a l s).now = s.now := rfl
@[simp] theorem poke_us (a : Nat) (l : List Byte) (s : State) : (poke a l s).us = s.us := rfl
@[simp] theorem poke_usPhase (a : Nat) (l : List Byte) (s : State) : (poke a l s).usPhase = s.usPhase := rfl
@[simp] theorem poke_freeCtr (a : Nat) (l : List Byte) (s : State) : (poke a l s).freeCtr = s.freeCtr := rfl
@[simp] theorem poke_regs (a : Nat) (l : List Byte) (s : State) : (poke a l s).regs = s.regs := rfl
@[simp] theorem poke_mem (a : Nat) (l : List Byte) (s : State) : (poke a l s).mem = memWrite s.mem a l := rfl
@[simp] theorem poke_staged (a : Nat) (l : List Byte) (s : State) : (poke a l s).staged = s.staged := rfl
@[simp] theorem poke_shadow (a : Nat) (l : List Byte) (s : State) : (poke a l s).shadow = s.shadow := rfl
@[simp] theorem poke_groups (a : Nat) (l : List Byte) (s : State) : (poke a l s).groups = s.groups := rfl
@[simp] theorem poke_commits (a : Nat) (l : List Byte) (s : State) : (poke a l s).commits = s.commits := rfl
@[simp] theorem poke_softPend (a : Nat) (l : List Byte) (s : State) : (poke a l s).softPend = s.softPend := rfl
@[simp] theorem poke_links (a : Nat) (l : List Byte) (s : State) : (poke a l s).links = s.links := rfl
@[simp] theorem poke_outstanding (a : Nat) (l : List Byte) (s : State) : (poke a l s).outstanding = s.outstanding := rfl
@[simp] theorem poke_nextReq (a : Nat) (l : List Byte) (s : State) : (poke a l s).nextReq = s.nextReq := rfl
@[simp] theorem poke_completed (a : Nat) (l : List Byte) (s : State) : (poke a l s).completed = s.completed := rfl
@[simp] theorem poke_fumIn (a : Nat) (l : List Byte) (s : State) : (poke a l s).fumIn = s.fumIn := rfl
@[simp] theorem poke_wakeQ (a : Nat) (l : List Byte) (s : State) : (poke a l s).wakeQ = s.wakeQ := rfl
@[simp] theorem poke_tiles (a : Nat) (l : List Byte) (s : State) : (poke a l s).tiles = s.tiles := rfl
@[simp] theorem poke_heldDone (a : Nat) (l : List Byte) (s : State) : (poke a l s).heldDone = s.heldDone := rfl
@[simp] theorem poke_remoteSteps (a : Nat) (l : List Byte) (s : State) : (poke a l s).remoteSteps = s.remoteSteps := rfl
@[simp] theorem poke_barriers (a : Nat) (l : List Byte) (s : State) : (poke a l s).barriers = s.barriers := rfl
@[simp] theorem poke_barrierSeen (a : Nat) (l : List Byte) (s : State) : (poke a l s).barrierSeen = s.barrierSeen := rfl
@[simp] theorem poke_evidenceIn (a : Nat) (l : List Byte) (s : State) : (poke a l s).evidenceIn = s.evidenceIn := rfl
@[simp] theorem poke_memCfg (a : Nat) (l : List Byte) (s : State) : (poke a l s).memCfg = s.memCfg := rfl
@[simp] theorem poke_hubs (a : Nat) (l : List Byte) (s : State) : (poke a l s).hubs = s.hubs := rfl
@[simp] theorem poke_subs (a : Nat) (l : List Byte) (s : State) : (poke a l s).subs = s.subs := rfl
@[simp] theorem poke_devs (a : Nat) (l : List Byte) (s : State) : (poke a l s).devs = s.devs := rfl
@[simp] theorem poke_retained (a : Nat) (l : List Byte) (s : State) : (poke a l s).retained = s.retained := rfl
@[simp] theorem poke_trained (a : Nat) (l : List Byte) (s : State) : (poke a l s).trained = s.trained := rfl
@[simp] theorem poke_jobs (a : Nat) (l : List Byte) (s : State) : (poke a l s).jobs = s.jobs := rfl
@[simp] theorem poke_partCnt (a : Nat) (l : List Byte) (s : State) : (poke a l s).partCnt = s.partCnt := rfl
@[simp] theorem poke_nextJid (a : Nat) (l : List Byte) (s : State) : (poke a l s).nextJid = s.nextJid := rfl
@[simp] theorem poke_nextRel (a : Nat) (l : List Byte) (s : State) : (poke a l s).nextRel = s.nextRel := rfl
@[simp] theorem poke_submits (a : Nat) (l : List Byte) (s : State) : (poke a l s).submits = s.submits := rfl
@[simp] theorem poke_saved (a : Nat) (l : List Byte) (s : State) : (poke a l s).saved = s.saved := rfl
@[simp] theorem poke_ctxRun (a : Nat) (l : List Byte) (s : State) : (poke a l s).ctxRun = s.ctxRun := rfl
@[simp] theorem poke_window (a : Nat) (l : List Byte) (s : State) : (poke a l s).window = s.window := rfl
@[simp] theorem poke_winNo (a : Nat) (l : List Byte) (s : State) : (poke a l s).winNo = s.winNo := rfl
@[simp] theorem poke_cpl (a : Nat) (l : List Byte) (s : State) : (poke a l s).cpl = s.cpl := rfl
@[simp] theorem poke_rings (a : Nat) (l : List Byte) (s : State) : (poke a l s).rings = s.rings := rfl
@[simp] theorem poke_cams (a : Nat) (l : List Byte) (s : State) : (poke a l s).cams = s.cams := rfl
@[simp] theorem poke_chans (a : Nat) (l : List Byte) (s : State) : (poke a l s).chans = s.chans := rfl
@[simp] theorem poke_slices (a : Nat) (l : List Byte) (s : State) : (poke a l s).slices = s.slices := rfl
@[simp] theorem poke_cal (a : Nat) (l : List Byte) (s : State) : (poke a l s).cal = s.cal := rfl
@[simp] theorem poke_pwr (a : Nat) (l : List Byte) (s : State) : (poke a l s).pwr = s.pwr := rfl
@[simp] theorem poke_thm (a : Nat) (l : List Byte) (s : State) : (poke a l s).thm = s.thm := rfl
@[simp] theorem poke_snt (a : Nat) (l : List Byte) (s : State) : (poke a l s).snt = s.snt := rfl
@[simp] theorem poke_fum (a : Nat) (l : List Byte) (s : State) : (poke a l s).fum = s.fum := rfl
@[simp] theorem poke_boot (a : Nat) (l : List Byte) (s : State) : (poke a l s).boot = s.boot := rfl
@[simp] theorem poke_sdio (a : Nat) (l : List Byte) (s : State) : (poke a l s).sdio = s.sdio := rfl
@[simp] theorem rd_poke (a : Nat) (l : List Byte) (s : State) (pg : PageKey) (off : Nat) : rd (poke a l s) pg off = rd s pg off := rfl

/-! ## sendFum -/

@[simp] theorem sendFum_pending (code : Nat) (src : PageKey) (d0 d1 d2 d3 : Word) (s : State) : (sendFum code src d0 d1 d2 d3 s).pending = s.pending := rfl
@[simp] theorem sendFum_now (code : Nat) (src : PageKey) (d0 d1 d2 d3 : Word) (s : State) : (sendFum code src d0 d1 d2 d3 s).now = s.now := rfl
@[simp] theorem sendFum_us (code : Nat) (src : PageKey) (d0 d1 d2 d3 : Word) (s : State) : (sendFum code src d0 d1 d2 d3 s).us = s.us := rfl
@[simp] theorem sendFum_usPhase (code : Nat) (src : PageKey) (d0 d1 d2 d3 : Word) (s : State) : (sendFum code src d0 d1 d2 d3 s).usPhase = s.usPhase := rfl
@[simp] theorem sendFum_freeCtr (code : Nat) (src : PageKey) (d0 d1 d2 d3 : Word) (s : State) : (sendFum code src d0 d1 d2 d3 s).freeCtr = s.freeCtr := rfl
@[simp] theorem sendFum_regs (code : Nat) (src : PageKey) (d0 d1 d2 d3 : Word) (s : State) : (sendFum code src d0 d1 d2 d3 s).regs = s.regs := rfl
@[simp] theorem sendFum_mem (code : Nat) (src : PageKey) (d0 d1 d2 d3 : Word) (s : State) : (sendFum code src d0 d1 d2 d3 s).mem = s.mem := rfl
@[simp] theorem sendFum_staged (code : Nat) (src : PageKey) (d0 d1 d2 d3 : Word) (s : State) : (sendFum code src d0 d1 d2 d3 s).staged = s.staged := rfl
@[simp] theorem sendFum_shadow (code : Nat) (src : PageKey) (d0 d1 d2 d3 : Word) (s : State) : (sendFum code src d0 d1 d2 d3 s).shadow = s.shadow := rfl
@[simp] theorem sendFum_groups (code : Nat) (src : PageKey) (d0 d1 d2 d3 : Word) (s : State) : (sendFum code src d0 d1 d2 d3 s).groups = s.groups := rfl
@[simp] theorem sendFum_commits (code : Nat) (src : PageKey) (d0 d1 d2 d3 : Word) (s : State) : (sendFum code src d0 d1 d2 d3 s).commits = s.commits := rfl
@[simp] theorem sendFum_softPend (code : Nat) (src : PageKey) (d0 d1 d2 d3 : Word) (s : State) : (sendFum code src d0 d1 d2 d3 s).softPend = s.softPend := rfl
@[simp] theorem sendFum_links (code : Nat) (src : PageKey) (d0 d1 d2 d3 : Word) (s : State) : (sendFum code src d0 d1 d2 d3 s).links = s.links := rfl
@[simp] theorem sendFum_outstanding (code : Nat) (src : PageKey) (d0 d1 d2 d3 : Word) (s : State) : (sendFum code src d0 d1 d2 d3 s).outstanding = s.outstanding := rfl
@[simp] theorem sendFum_nextReq (code : Nat) (src : PageKey) (d0 d1 d2 d3 : Word) (s : State) : (sendFum code src d0 d1 d2 d3 s).nextReq = s.nextReq := rfl
@[simp] theorem sendFum_completed (code : Nat) (src : PageKey) (d0 d1 d2 d3 : Word) (s : State) : (sendFum code src d0 d1 d2 d3 s).completed = s.completed := rfl
@[simp] theorem sendFum_fumIn (code : Nat) (src : PageKey) (d0 d1 d2 d3 : Word) (s : State) : (sendFum code src d0 d1 d2 d3 s).fumIn = s.fumIn ++ [⟨code, fumSource src, 0, 0, 0, d0, d1, d2, d3⟩] := rfl
@[simp] theorem sendFum_wakeQ (code : Nat) (src : PageKey) (d0 d1 d2 d3 : Word) (s : State) : (sendFum code src d0 d1 d2 d3 s).wakeQ = s.wakeQ := rfl
@[simp] theorem sendFum_tiles (code : Nat) (src : PageKey) (d0 d1 d2 d3 : Word) (s : State) : (sendFum code src d0 d1 d2 d3 s).tiles = s.tiles := rfl
@[simp] theorem sendFum_heldDone (code : Nat) (src : PageKey) (d0 d1 d2 d3 : Word) (s : State) : (sendFum code src d0 d1 d2 d3 s).heldDone = s.heldDone := rfl
@[simp] theorem sendFum_remoteSteps (code : Nat) (src : PageKey) (d0 d1 d2 d3 : Word) (s : State) : (sendFum code src d0 d1 d2 d3 s).remoteSteps = s.remoteSteps := rfl
@[simp] theorem sendFum_barriers (code : Nat) (src : PageKey) (d0 d1 d2 d3 : Word) (s : State) : (sendFum code src d0 d1 d2 d3 s).barriers = s.barriers := rfl
@[simp] theorem sendFum_barrierSeen (code : Nat) (src : PageKey) (d0 d1 d2 d3 : Word) (s : State) : (sendFum code src d0 d1 d2 d3 s).barrierSeen = s.barrierSeen := rfl
@[simp] theorem sendFum_evidenceIn (code : Nat) (src : PageKey) (d0 d1 d2 d3 : Word) (s : State) : (sendFum code src d0 d1 d2 d3 s).evidenceIn = s.evidenceIn := rfl
@[simp] theorem sendFum_memCfg (code : Nat) (src : PageKey) (d0 d1 d2 d3 : Word) (s : State) : (sendFum code src d0 d1 d2 d3 s).memCfg = s.memCfg := rfl
@[simp] theorem sendFum_hubs (code : Nat) (src : PageKey) (d0 d1 d2 d3 : Word) (s : State) : (sendFum code src d0 d1 d2 d3 s).hubs = s.hubs := rfl
@[simp] theorem sendFum_subs (code : Nat) (src : PageKey) (d0 d1 d2 d3 : Word) (s : State) : (sendFum code src d0 d1 d2 d3 s).subs = s.subs := rfl
@[simp] theorem sendFum_devs (code : Nat) (src : PageKey) (d0 d1 d2 d3 : Word) (s : State) : (sendFum code src d0 d1 d2 d3 s).devs = s.devs := rfl
@[simp] theorem sendFum_retained (code : Nat) (src : PageKey) (d0 d1 d2 d3 : Word) (s : State) : (sendFum code src d0 d1 d2 d3 s).retained = s.retained := rfl
@[simp] theorem sendFum_trained (code : Nat) (src : PageKey) (d0 d1 d2 d3 : Word) (s : State) : (sendFum code src d0 d1 d2 d3 s).trained = s.trained := rfl
@[simp] theorem sendFum_jobs (code : Nat) (src : PageKey) (d0 d1 d2 d3 : Word) (s : State) : (sendFum code src d0 d1 d2 d3 s).jobs = s.jobs := rfl
@[simp] theorem sendFum_partCnt (code : Nat) (src : PageKey) (d0 d1 d2 d3 : Word) (s : State) : (sendFum code src d0 d1 d2 d3 s).partCnt = s.partCnt := rfl
@[simp] theorem sendFum_nextJid (code : Nat) (src : PageKey) (d0 d1 d2 d3 : Word) (s : State) : (sendFum code src d0 d1 d2 d3 s).nextJid = s.nextJid := rfl
@[simp] theorem sendFum_nextRel (code : Nat) (src : PageKey) (d0 d1 d2 d3 : Word) (s : State) : (sendFum code src d0 d1 d2 d3 s).nextRel = s.nextRel := rfl
@[simp] theorem sendFum_submits (code : Nat) (src : PageKey) (d0 d1 d2 d3 : Word) (s : State) : (sendFum code src d0 d1 d2 d3 s).submits = s.submits := rfl
@[simp] theorem sendFum_saved (code : Nat) (src : PageKey) (d0 d1 d2 d3 : Word) (s : State) : (sendFum code src d0 d1 d2 d3 s).saved = s.saved := rfl
@[simp] theorem sendFum_ctxRun (code : Nat) (src : PageKey) (d0 d1 d2 d3 : Word) (s : State) : (sendFum code src d0 d1 d2 d3 s).ctxRun = s.ctxRun := rfl
@[simp] theorem sendFum_window (code : Nat) (src : PageKey) (d0 d1 d2 d3 : Word) (s : State) : (sendFum code src d0 d1 d2 d3 s).window = s.window := rfl
@[simp] theorem sendFum_winNo (code : Nat) (src : PageKey) (d0 d1 d2 d3 : Word) (s : State) : (sendFum code src d0 d1 d2 d3 s).winNo = s.winNo := rfl
@[simp] theorem sendFum_cpl (code : Nat) (src : PageKey) (d0 d1 d2 d3 : Word) (s : State) : (sendFum code src d0 d1 d2 d3 s).cpl = s.cpl := rfl
@[simp] theorem sendFum_rings (code : Nat) (src : PageKey) (d0 d1 d2 d3 : Word) (s : State) : (sendFum code src d0 d1 d2 d3 s).rings = s.rings := rfl
@[simp] theorem sendFum_cams (code : Nat) (src : PageKey) (d0 d1 d2 d3 : Word) (s : State) : (sendFum code src d0 d1 d2 d3 s).cams = s.cams := rfl
@[simp] theorem sendFum_chans (code : Nat) (src : PageKey) (d0 d1 d2 d3 : Word) (s : State) : (sendFum code src d0 d1 d2 d3 s).chans = s.chans := rfl
@[simp] theorem sendFum_slices (code : Nat) (src : PageKey) (d0 d1 d2 d3 : Word) (s : State) : (sendFum code src d0 d1 d2 d3 s).slices = s.slices := rfl
@[simp] theorem sendFum_cal (code : Nat) (src : PageKey) (d0 d1 d2 d3 : Word) (s : State) : (sendFum code src d0 d1 d2 d3 s).cal = s.cal := rfl
@[simp] theorem sendFum_pwr (code : Nat) (src : PageKey) (d0 d1 d2 d3 : Word) (s : State) : (sendFum code src d0 d1 d2 d3 s).pwr = s.pwr := rfl
@[simp] theorem sendFum_thm (code : Nat) (src : PageKey) (d0 d1 d2 d3 : Word) (s : State) : (sendFum code src d0 d1 d2 d3 s).thm = s.thm := rfl
@[simp] theorem sendFum_snt (code : Nat) (src : PageKey) (d0 d1 d2 d3 : Word) (s : State) : (sendFum code src d0 d1 d2 d3 s).snt = s.snt := rfl
@[simp] theorem sendFum_fum (code : Nat) (src : PageKey) (d0 d1 d2 d3 : Word) (s : State) : (sendFum code src d0 d1 d2 d3 s).fum = s.fum := rfl
@[simp] theorem sendFum_boot (code : Nat) (src : PageKey) (d0 d1 d2 d3 : Word) (s : State) : (sendFum code src d0 d1 d2 d3 s).boot = s.boot := rfl
@[simp] theorem sendFum_sdio (code : Nat) (src : PageKey) (d0 d1 d2 d3 : Word) (s : State) : (sendFum code src d0 d1 d2 d3 s).sdio = s.sdio := rfl
@[simp] theorem rd_sendFum (code : Nat) (src : PageKey) (d0 d1 d2 d3 : Word) (s : State) (pg : PageKey) (off : Nat) : rd (sendFum code src d0 d1 d2 d3 s) pg off = rd s pg off := rfl

/-! ## setTile -/

@[simp] theorem setTile_pending (t : TileId) (x : Tile) (s : State) : (setTile t x s).pending = s.pending := rfl
@[simp] theorem setTile_now (t : TileId) (x : Tile) (s : State) : (setTile t x s).now = s.now := rfl
@[simp] theorem setTile_us (t : TileId) (x : Tile) (s : State) : (setTile t x s).us = s.us := rfl
@[simp] theorem setTile_usPhase (t : TileId) (x : Tile) (s : State) : (setTile t x s).usPhase = s.usPhase := rfl
@[simp] theorem setTile_freeCtr (t : TileId) (x : Tile) (s : State) : (setTile t x s).freeCtr = s.freeCtr := rfl
@[simp] theorem setTile_regs (t : TileId) (x : Tile) (s : State) : (setTile t x s).regs = s.regs := rfl
@[simp] theorem setTile_mem (t : TileId) (x : Tile) (s : State) : (setTile t x s).mem = s.mem := rfl
@[simp] theorem setTile_staged (t : TileId) (x : Tile) (s : State) : (setTile t x s).staged = s.staged := rfl
@[simp] theorem setTile_shadow (t : TileId) (x : Tile) (s : State) : (setTile t x s).shadow = s.shadow := rfl
@[simp] theorem setTile_groups (t : TileId) (x : Tile) (s : State) : (setTile t x s).groups = s.groups := rfl
@[simp] theorem setTile_commits (t : TileId) (x : Tile) (s : State) : (setTile t x s).commits = s.commits := rfl
@[simp] theorem setTile_softPend (t : TileId) (x : Tile) (s : State) : (setTile t x s).softPend = s.softPend := rfl
@[simp] theorem setTile_links (t : TileId) (x : Tile) (s : State) : (setTile t x s).links = s.links := rfl
@[simp] theorem setTile_outstanding (t : TileId) (x : Tile) (s : State) : (setTile t x s).outstanding = s.outstanding := rfl
@[simp] theorem setTile_nextReq (t : TileId) (x : Tile) (s : State) : (setTile t x s).nextReq = s.nextReq := rfl
@[simp] theorem setTile_completed (t : TileId) (x : Tile) (s : State) : (setTile t x s).completed = s.completed := rfl
@[simp] theorem setTile_fumIn (t : TileId) (x : Tile) (s : State) : (setTile t x s).fumIn = s.fumIn := rfl
@[simp] theorem setTile_wakeQ (t : TileId) (x : Tile) (s : State) : (setTile t x s).wakeQ = s.wakeQ := rfl
@[simp] theorem setTile_tiles (t : TileId) (x : Tile) (s : State) : (setTile t x s).tiles = Tab.put s.tiles t x := rfl
@[simp] theorem setTile_heldDone (t : TileId) (x : Tile) (s : State) : (setTile t x s).heldDone = s.heldDone := rfl
@[simp] theorem setTile_remoteSteps (t : TileId) (x : Tile) (s : State) : (setTile t x s).remoteSteps = s.remoteSteps := rfl
@[simp] theorem setTile_barriers (t : TileId) (x : Tile) (s : State) : (setTile t x s).barriers = s.barriers := rfl
@[simp] theorem setTile_barrierSeen (t : TileId) (x : Tile) (s : State) : (setTile t x s).barrierSeen = s.barrierSeen := rfl
@[simp] theorem setTile_evidenceIn (t : TileId) (x : Tile) (s : State) : (setTile t x s).evidenceIn = s.evidenceIn := rfl
@[simp] theorem setTile_memCfg (t : TileId) (x : Tile) (s : State) : (setTile t x s).memCfg = s.memCfg := rfl
@[simp] theorem setTile_hubs (t : TileId) (x : Tile) (s : State) : (setTile t x s).hubs = s.hubs := rfl
@[simp] theorem setTile_subs (t : TileId) (x : Tile) (s : State) : (setTile t x s).subs = s.subs := rfl
@[simp] theorem setTile_devs (t : TileId) (x : Tile) (s : State) : (setTile t x s).devs = s.devs := rfl
@[simp] theorem setTile_retained (t : TileId) (x : Tile) (s : State) : (setTile t x s).retained = s.retained := rfl
@[simp] theorem setTile_trained (t : TileId) (x : Tile) (s : State) : (setTile t x s).trained = s.trained := rfl
@[simp] theorem setTile_jobs (t : TileId) (x : Tile) (s : State) : (setTile t x s).jobs = s.jobs := rfl
@[simp] theorem setTile_partCnt (t : TileId) (x : Tile) (s : State) : (setTile t x s).partCnt = s.partCnt := rfl
@[simp] theorem setTile_nextJid (t : TileId) (x : Tile) (s : State) : (setTile t x s).nextJid = s.nextJid := rfl
@[simp] theorem setTile_nextRel (t : TileId) (x : Tile) (s : State) : (setTile t x s).nextRel = s.nextRel := rfl
@[simp] theorem setTile_submits (t : TileId) (x : Tile) (s : State) : (setTile t x s).submits = s.submits := rfl
@[simp] theorem setTile_saved (t : TileId) (x : Tile) (s : State) : (setTile t x s).saved = s.saved := rfl
@[simp] theorem setTile_ctxRun (t : TileId) (x : Tile) (s : State) : (setTile t x s).ctxRun = s.ctxRun := rfl
@[simp] theorem setTile_window (t : TileId) (x : Tile) (s : State) : (setTile t x s).window = s.window := rfl
@[simp] theorem setTile_winNo (t : TileId) (x : Tile) (s : State) : (setTile t x s).winNo = s.winNo := rfl
@[simp] theorem setTile_cpl (t : TileId) (x : Tile) (s : State) : (setTile t x s).cpl = s.cpl := rfl
@[simp] theorem setTile_rings (t : TileId) (x : Tile) (s : State) : (setTile t x s).rings = s.rings := rfl
@[simp] theorem setTile_cams (t : TileId) (x : Tile) (s : State) : (setTile t x s).cams = s.cams := rfl
@[simp] theorem setTile_chans (t : TileId) (x : Tile) (s : State) : (setTile t x s).chans = s.chans := rfl
@[simp] theorem setTile_slices (t : TileId) (x : Tile) (s : State) : (setTile t x s).slices = s.slices := rfl
@[simp] theorem setTile_cal (t : TileId) (x : Tile) (s : State) : (setTile t x s).cal = s.cal := rfl
@[simp] theorem setTile_pwr (t : TileId) (x : Tile) (s : State) : (setTile t x s).pwr = s.pwr := rfl
@[simp] theorem setTile_thm (t : TileId) (x : Tile) (s : State) : (setTile t x s).thm = s.thm := rfl
@[simp] theorem setTile_snt (t : TileId) (x : Tile) (s : State) : (setTile t x s).snt = s.snt := rfl
@[simp] theorem setTile_fum (t : TileId) (x : Tile) (s : State) : (setTile t x s).fum = s.fum := rfl
@[simp] theorem setTile_boot (t : TileId) (x : Tile) (s : State) : (setTile t x s).boot = s.boot := rfl
@[simp] theorem setTile_sdio (t : TileId) (x : Tile) (s : State) : (setTile t x s).sdio = s.sdio := rfl
@[simp] theorem rd_setTile (t : TileId) (x : Tile) (s : State) (pg : PageKey) (off : Nat) : rd (setTile t x s) pg off = rd s pg off := rfl

/-! ## setHub -/

@[simp] theorem setHub_pending (h : HubId) (x : HubSt) (s : State) : (setHub h x s).pending = s.pending := rfl
@[simp] theorem setHub_now (h : HubId) (x : HubSt) (s : State) : (setHub h x s).now = s.now := rfl
@[simp] theorem setHub_us (h : HubId) (x : HubSt) (s : State) : (setHub h x s).us = s.us := rfl
@[simp] theorem setHub_usPhase (h : HubId) (x : HubSt) (s : State) : (setHub h x s).usPhase = s.usPhase := rfl
@[simp] theorem setHub_freeCtr (h : HubId) (x : HubSt) (s : State) : (setHub h x s).freeCtr = s.freeCtr := rfl
@[simp] theorem setHub_regs (h : HubId) (x : HubSt) (s : State) : (setHub h x s).regs = s.regs := rfl
@[simp] theorem setHub_mem (h : HubId) (x : HubSt) (s : State) : (setHub h x s).mem = s.mem := rfl
@[simp] theorem setHub_staged (h : HubId) (x : HubSt) (s : State) : (setHub h x s).staged = s.staged := rfl
@[simp] theorem setHub_shadow (h : HubId) (x : HubSt) (s : State) : (setHub h x s).shadow = s.shadow := rfl
@[simp] theorem setHub_groups (h : HubId) (x : HubSt) (s : State) : (setHub h x s).groups = s.groups := rfl
@[simp] theorem setHub_commits (h : HubId) (x : HubSt) (s : State) : (setHub h x s).commits = s.commits := rfl
@[simp] theorem setHub_softPend (h : HubId) (x : HubSt) (s : State) : (setHub h x s).softPend = s.softPend := rfl
@[simp] theorem setHub_links (h : HubId) (x : HubSt) (s : State) : (setHub h x s).links = s.links := rfl
@[simp] theorem setHub_outstanding (h : HubId) (x : HubSt) (s : State) : (setHub h x s).outstanding = s.outstanding := rfl
@[simp] theorem setHub_nextReq (h : HubId) (x : HubSt) (s : State) : (setHub h x s).nextReq = s.nextReq := rfl
@[simp] theorem setHub_completed (h : HubId) (x : HubSt) (s : State) : (setHub h x s).completed = s.completed := rfl
@[simp] theorem setHub_fumIn (h : HubId) (x : HubSt) (s : State) : (setHub h x s).fumIn = s.fumIn := rfl
@[simp] theorem setHub_wakeQ (h : HubId) (x : HubSt) (s : State) : (setHub h x s).wakeQ = s.wakeQ := rfl
@[simp] theorem setHub_tiles (h : HubId) (x : HubSt) (s : State) : (setHub h x s).tiles = s.tiles := rfl
@[simp] theorem setHub_heldDone (h : HubId) (x : HubSt) (s : State) : (setHub h x s).heldDone = s.heldDone := rfl
@[simp] theorem setHub_remoteSteps (h : HubId) (x : HubSt) (s : State) : (setHub h x s).remoteSteps = s.remoteSteps := rfl
@[simp] theorem setHub_barriers (h : HubId) (x : HubSt) (s : State) : (setHub h x s).barriers = s.barriers := rfl
@[simp] theorem setHub_barrierSeen (h : HubId) (x : HubSt) (s : State) : (setHub h x s).barrierSeen = s.barrierSeen := rfl
@[simp] theorem setHub_evidenceIn (h : HubId) (x : HubSt) (s : State) : (setHub h x s).evidenceIn = s.evidenceIn := rfl
@[simp] theorem setHub_memCfg (h : HubId) (x : HubSt) (s : State) : (setHub h x s).memCfg = s.memCfg := rfl
@[simp] theorem setHub_hubs (h : HubId) (x : HubSt) (s : State) : (setHub h x s).hubs = Tab.put s.hubs h x := rfl
@[simp] theorem setHub_subs (h : HubId) (x : HubSt) (s : State) : (setHub h x s).subs = s.subs := rfl
@[simp] theorem setHub_devs (h : HubId) (x : HubSt) (s : State) : (setHub h x s).devs = s.devs := rfl
@[simp] theorem setHub_retained (h : HubId) (x : HubSt) (s : State) : (setHub h x s).retained = s.retained := rfl
@[simp] theorem setHub_trained (h : HubId) (x : HubSt) (s : State) : (setHub h x s).trained = s.trained := rfl
@[simp] theorem setHub_jobs (h : HubId) (x : HubSt) (s : State) : (setHub h x s).jobs = s.jobs := rfl
@[simp] theorem setHub_partCnt (h : HubId) (x : HubSt) (s : State) : (setHub h x s).partCnt = s.partCnt := rfl
@[simp] theorem setHub_nextJid (h : HubId) (x : HubSt) (s : State) : (setHub h x s).nextJid = s.nextJid := rfl
@[simp] theorem setHub_nextRel (h : HubId) (x : HubSt) (s : State) : (setHub h x s).nextRel = s.nextRel := rfl
@[simp] theorem setHub_submits (h : HubId) (x : HubSt) (s : State) : (setHub h x s).submits = s.submits := rfl
@[simp] theorem setHub_saved (h : HubId) (x : HubSt) (s : State) : (setHub h x s).saved = s.saved := rfl
@[simp] theorem setHub_ctxRun (h : HubId) (x : HubSt) (s : State) : (setHub h x s).ctxRun = s.ctxRun := rfl
@[simp] theorem setHub_window (h : HubId) (x : HubSt) (s : State) : (setHub h x s).window = s.window := rfl
@[simp] theorem setHub_winNo (h : HubId) (x : HubSt) (s : State) : (setHub h x s).winNo = s.winNo := rfl
@[simp] theorem setHub_cpl (h : HubId) (x : HubSt) (s : State) : (setHub h x s).cpl = s.cpl := rfl
@[simp] theorem setHub_rings (h : HubId) (x : HubSt) (s : State) : (setHub h x s).rings = s.rings := rfl
@[simp] theorem setHub_cams (h : HubId) (x : HubSt) (s : State) : (setHub h x s).cams = s.cams := rfl
@[simp] theorem setHub_chans (h : HubId) (x : HubSt) (s : State) : (setHub h x s).chans = s.chans := rfl
@[simp] theorem setHub_slices (h : HubId) (x : HubSt) (s : State) : (setHub h x s).slices = s.slices := rfl
@[simp] theorem setHub_cal (h : HubId) (x : HubSt) (s : State) : (setHub h x s).cal = s.cal := rfl
@[simp] theorem setHub_pwr (h : HubId) (x : HubSt) (s : State) : (setHub h x s).pwr = s.pwr := rfl
@[simp] theorem setHub_thm (h : HubId) (x : HubSt) (s : State) : (setHub h x s).thm = s.thm := rfl
@[simp] theorem setHub_snt (h : HubId) (x : HubSt) (s : State) : (setHub h x s).snt = s.snt := rfl
@[simp] theorem setHub_fum (h : HubId) (x : HubSt) (s : State) : (setHub h x s).fum = s.fum := rfl
@[simp] theorem setHub_boot (h : HubId) (x : HubSt) (s : State) : (setHub h x s).boot = s.boot := rfl
@[simp] theorem setHub_sdio (h : HubId) (x : HubSt) (s : State) : (setHub h x s).sdio = s.sdio := rfl
@[simp] theorem rd_setHub (h : HubId) (x : HubSt) (s : State) (pg : PageKey) (off : Nat) : rd (setHub h x s) pg off = rd s pg off := rfl

/-! ## setSub -/

@[simp] theorem setSub_pending (i : Nat) (x : SubSt) (s : State) : (setSub i x s).pending = s.pending := rfl
@[simp] theorem setSub_now (i : Nat) (x : SubSt) (s : State) : (setSub i x s).now = s.now := rfl
@[simp] theorem setSub_us (i : Nat) (x : SubSt) (s : State) : (setSub i x s).us = s.us := rfl
@[simp] theorem setSub_usPhase (i : Nat) (x : SubSt) (s : State) : (setSub i x s).usPhase = s.usPhase := rfl
@[simp] theorem setSub_freeCtr (i : Nat) (x : SubSt) (s : State) : (setSub i x s).freeCtr = s.freeCtr := rfl
@[simp] theorem setSub_regs (i : Nat) (x : SubSt) (s : State) : (setSub i x s).regs = s.regs := rfl
@[simp] theorem setSub_mem (i : Nat) (x : SubSt) (s : State) : (setSub i x s).mem = s.mem := rfl
@[simp] theorem setSub_staged (i : Nat) (x : SubSt) (s : State) : (setSub i x s).staged = s.staged := rfl
@[simp] theorem setSub_shadow (i : Nat) (x : SubSt) (s : State) : (setSub i x s).shadow = s.shadow := rfl
@[simp] theorem setSub_groups (i : Nat) (x : SubSt) (s : State) : (setSub i x s).groups = s.groups := rfl
@[simp] theorem setSub_commits (i : Nat) (x : SubSt) (s : State) : (setSub i x s).commits = s.commits := rfl
@[simp] theorem setSub_softPend (i : Nat) (x : SubSt) (s : State) : (setSub i x s).softPend = s.softPend := rfl
@[simp] theorem setSub_links (i : Nat) (x : SubSt) (s : State) : (setSub i x s).links = s.links := rfl
@[simp] theorem setSub_outstanding (i : Nat) (x : SubSt) (s : State) : (setSub i x s).outstanding = s.outstanding := rfl
@[simp] theorem setSub_nextReq (i : Nat) (x : SubSt) (s : State) : (setSub i x s).nextReq = s.nextReq := rfl
@[simp] theorem setSub_completed (i : Nat) (x : SubSt) (s : State) : (setSub i x s).completed = s.completed := rfl
@[simp] theorem setSub_fumIn (i : Nat) (x : SubSt) (s : State) : (setSub i x s).fumIn = s.fumIn := rfl
@[simp] theorem setSub_wakeQ (i : Nat) (x : SubSt) (s : State) : (setSub i x s).wakeQ = s.wakeQ := rfl
@[simp] theorem setSub_tiles (i : Nat) (x : SubSt) (s : State) : (setSub i x s).tiles = s.tiles := rfl
@[simp] theorem setSub_heldDone (i : Nat) (x : SubSt) (s : State) : (setSub i x s).heldDone = s.heldDone := rfl
@[simp] theorem setSub_remoteSteps (i : Nat) (x : SubSt) (s : State) : (setSub i x s).remoteSteps = s.remoteSteps := rfl
@[simp] theorem setSub_barriers (i : Nat) (x : SubSt) (s : State) : (setSub i x s).barriers = s.barriers := rfl
@[simp] theorem setSub_barrierSeen (i : Nat) (x : SubSt) (s : State) : (setSub i x s).barrierSeen = s.barrierSeen := rfl
@[simp] theorem setSub_evidenceIn (i : Nat) (x : SubSt) (s : State) : (setSub i x s).evidenceIn = s.evidenceIn := rfl
@[simp] theorem setSub_memCfg (i : Nat) (x : SubSt) (s : State) : (setSub i x s).memCfg = s.memCfg := rfl
@[simp] theorem setSub_hubs (i : Nat) (x : SubSt) (s : State) : (setSub i x s).hubs = s.hubs := rfl
@[simp] theorem setSub_subs (i : Nat) (x : SubSt) (s : State) : (setSub i x s).subs = Tab.put s.subs i x := rfl
@[simp] theorem setSub_devs (i : Nat) (x : SubSt) (s : State) : (setSub i x s).devs = s.devs := rfl
@[simp] theorem setSub_retained (i : Nat) (x : SubSt) (s : State) : (setSub i x s).retained = s.retained := rfl
@[simp] theorem setSub_trained (i : Nat) (x : SubSt) (s : State) : (setSub i x s).trained = s.trained := rfl
@[simp] theorem setSub_jobs (i : Nat) (x : SubSt) (s : State) : (setSub i x s).jobs = s.jobs := rfl
@[simp] theorem setSub_partCnt (i : Nat) (x : SubSt) (s : State) : (setSub i x s).partCnt = s.partCnt := rfl
@[simp] theorem setSub_nextJid (i : Nat) (x : SubSt) (s : State) : (setSub i x s).nextJid = s.nextJid := rfl
@[simp] theorem setSub_nextRel (i : Nat) (x : SubSt) (s : State) : (setSub i x s).nextRel = s.nextRel := rfl
@[simp] theorem setSub_submits (i : Nat) (x : SubSt) (s : State) : (setSub i x s).submits = s.submits := rfl
@[simp] theorem setSub_saved (i : Nat) (x : SubSt) (s : State) : (setSub i x s).saved = s.saved := rfl
@[simp] theorem setSub_ctxRun (i : Nat) (x : SubSt) (s : State) : (setSub i x s).ctxRun = s.ctxRun := rfl
@[simp] theorem setSub_window (i : Nat) (x : SubSt) (s : State) : (setSub i x s).window = s.window := rfl
@[simp] theorem setSub_winNo (i : Nat) (x : SubSt) (s : State) : (setSub i x s).winNo = s.winNo := rfl
@[simp] theorem setSub_cpl (i : Nat) (x : SubSt) (s : State) : (setSub i x s).cpl = s.cpl := rfl
@[simp] theorem setSub_rings (i : Nat) (x : SubSt) (s : State) : (setSub i x s).rings = s.rings := rfl
@[simp] theorem setSub_cams (i : Nat) (x : SubSt) (s : State) : (setSub i x s).cams = s.cams := rfl
@[simp] theorem setSub_chans (i : Nat) (x : SubSt) (s : State) : (setSub i x s).chans = s.chans := rfl
@[simp] theorem setSub_slices (i : Nat) (x : SubSt) (s : State) : (setSub i x s).slices = s.slices := rfl
@[simp] theorem setSub_cal (i : Nat) (x : SubSt) (s : State) : (setSub i x s).cal = s.cal := rfl
@[simp] theorem setSub_pwr (i : Nat) (x : SubSt) (s : State) : (setSub i x s).pwr = s.pwr := rfl
@[simp] theorem setSub_thm (i : Nat) (x : SubSt) (s : State) : (setSub i x s).thm = s.thm := rfl
@[simp] theorem setSub_snt (i : Nat) (x : SubSt) (s : State) : (setSub i x s).snt = s.snt := rfl
@[simp] theorem setSub_fum (i : Nat) (x : SubSt) (s : State) : (setSub i x s).fum = s.fum := rfl
@[simp] theorem setSub_boot (i : Nat) (x : SubSt) (s : State) : (setSub i x s).boot = s.boot := rfl
@[simp] theorem setSub_sdio (i : Nat) (x : SubSt) (s : State) : (setSub i x s).sdio = s.sdio := rfl
@[simp] theorem rd_setSub (i : Nat) (x : SubSt) (s : State) (pg : PageKey) (off : Nat) : rd (setSub i x s) pg off = rd s pg off := rfl

/-! ## setLinkSt -/

@[simp] theorem setLinkSt_pending (k : LinkId) (x : LinkSt) (s : State) : (setLinkSt k x s).pending = s.pending := rfl
@[simp] theorem setLinkSt_now (k : LinkId) (x : LinkSt) (s : State) : (setLinkSt k x s).now = s.now := rfl
@[simp] theorem setLinkSt_us (k : LinkId) (x : LinkSt) (s : State) : (setLinkSt k x s).us = s.us := rfl
@[simp] theorem setLinkSt_usPhase (k : LinkId) (x : LinkSt) (s : State) : (setLinkSt k x s).usPhase = s.usPhase := rfl
@[simp] theorem setLinkSt_freeCtr (k : LinkId) (x : LinkSt) (s : State) : (setLinkSt k x s).freeCtr = s.freeCtr := rfl
@[simp] theorem setLinkSt_regs (k : LinkId) (x : LinkSt) (s : State) : (setLinkSt k x s).regs = s.regs := rfl
@[simp] theorem setLinkSt_mem (k : LinkId) (x : LinkSt) (s : State) : (setLinkSt k x s).mem = s.mem := rfl
@[simp] theorem setLinkSt_staged (k : LinkId) (x : LinkSt) (s : State) : (setLinkSt k x s).staged = s.staged := rfl
@[simp] theorem setLinkSt_shadow (k : LinkId) (x : LinkSt) (s : State) : (setLinkSt k x s).shadow = s.shadow := rfl
@[simp] theorem setLinkSt_groups (k : LinkId) (x : LinkSt) (s : State) : (setLinkSt k x s).groups = s.groups := rfl
@[simp] theorem setLinkSt_commits (k : LinkId) (x : LinkSt) (s : State) : (setLinkSt k x s).commits = s.commits := rfl
@[simp] theorem setLinkSt_softPend (k : LinkId) (x : LinkSt) (s : State) : (setLinkSt k x s).softPend = s.softPend := rfl
@[simp] theorem setLinkSt_links (k : LinkId) (x : LinkSt) (s : State) : (setLinkSt k x s).links = Tab.put s.links k x := rfl
@[simp] theorem setLinkSt_outstanding (k : LinkId) (x : LinkSt) (s : State) : (setLinkSt k x s).outstanding = s.outstanding := rfl
@[simp] theorem setLinkSt_nextReq (k : LinkId) (x : LinkSt) (s : State) : (setLinkSt k x s).nextReq = s.nextReq := rfl
@[simp] theorem setLinkSt_completed (k : LinkId) (x : LinkSt) (s : State) : (setLinkSt k x s).completed = s.completed := rfl
@[simp] theorem setLinkSt_fumIn (k : LinkId) (x : LinkSt) (s : State) : (setLinkSt k x s).fumIn = s.fumIn := rfl
@[simp] theorem setLinkSt_wakeQ (k : LinkId) (x : LinkSt) (s : State) : (setLinkSt k x s).wakeQ = s.wakeQ := rfl
@[simp] theorem setLinkSt_tiles (k : LinkId) (x : LinkSt) (s : State) : (setLinkSt k x s).tiles = s.tiles := rfl
@[simp] theorem setLinkSt_heldDone (k : LinkId) (x : LinkSt) (s : State) : (setLinkSt k x s).heldDone = s.heldDone := rfl
@[simp] theorem setLinkSt_remoteSteps (k : LinkId) (x : LinkSt) (s : State) : (setLinkSt k x s).remoteSteps = s.remoteSteps := rfl
@[simp] theorem setLinkSt_barriers (k : LinkId) (x : LinkSt) (s : State) : (setLinkSt k x s).barriers = s.barriers := rfl
@[simp] theorem setLinkSt_barrierSeen (k : LinkId) (x : LinkSt) (s : State) : (setLinkSt k x s).barrierSeen = s.barrierSeen := rfl
@[simp] theorem setLinkSt_evidenceIn (k : LinkId) (x : LinkSt) (s : State) : (setLinkSt k x s).evidenceIn = s.evidenceIn := rfl
@[simp] theorem setLinkSt_memCfg (k : LinkId) (x : LinkSt) (s : State) : (setLinkSt k x s).memCfg = s.memCfg := rfl
@[simp] theorem setLinkSt_hubs (k : LinkId) (x : LinkSt) (s : State) : (setLinkSt k x s).hubs = s.hubs := rfl
@[simp] theorem setLinkSt_subs (k : LinkId) (x : LinkSt) (s : State) : (setLinkSt k x s).subs = s.subs := rfl
@[simp] theorem setLinkSt_devs (k : LinkId) (x : LinkSt) (s : State) : (setLinkSt k x s).devs = s.devs := rfl
@[simp] theorem setLinkSt_retained (k : LinkId) (x : LinkSt) (s : State) : (setLinkSt k x s).retained = s.retained := rfl
@[simp] theorem setLinkSt_trained (k : LinkId) (x : LinkSt) (s : State) : (setLinkSt k x s).trained = s.trained := rfl
@[simp] theorem setLinkSt_jobs (k : LinkId) (x : LinkSt) (s : State) : (setLinkSt k x s).jobs = s.jobs := rfl
@[simp] theorem setLinkSt_partCnt (k : LinkId) (x : LinkSt) (s : State) : (setLinkSt k x s).partCnt = s.partCnt := rfl
@[simp] theorem setLinkSt_nextJid (k : LinkId) (x : LinkSt) (s : State) : (setLinkSt k x s).nextJid = s.nextJid := rfl
@[simp] theorem setLinkSt_nextRel (k : LinkId) (x : LinkSt) (s : State) : (setLinkSt k x s).nextRel = s.nextRel := rfl
@[simp] theorem setLinkSt_submits (k : LinkId) (x : LinkSt) (s : State) : (setLinkSt k x s).submits = s.submits := rfl
@[simp] theorem setLinkSt_saved (k : LinkId) (x : LinkSt) (s : State) : (setLinkSt k x s).saved = s.saved := rfl
@[simp] theorem setLinkSt_ctxRun (k : LinkId) (x : LinkSt) (s : State) : (setLinkSt k x s).ctxRun = s.ctxRun := rfl
@[simp] theorem setLinkSt_window (k : LinkId) (x : LinkSt) (s : State) : (setLinkSt k x s).window = s.window := rfl
@[simp] theorem setLinkSt_winNo (k : LinkId) (x : LinkSt) (s : State) : (setLinkSt k x s).winNo = s.winNo := rfl
@[simp] theorem setLinkSt_cpl (k : LinkId) (x : LinkSt) (s : State) : (setLinkSt k x s).cpl = s.cpl := rfl
@[simp] theorem setLinkSt_rings (k : LinkId) (x : LinkSt) (s : State) : (setLinkSt k x s).rings = s.rings := rfl
@[simp] theorem setLinkSt_cams (k : LinkId) (x : LinkSt) (s : State) : (setLinkSt k x s).cams = s.cams := rfl
@[simp] theorem setLinkSt_chans (k : LinkId) (x : LinkSt) (s : State) : (setLinkSt k x s).chans = s.chans := rfl
@[simp] theorem setLinkSt_slices (k : LinkId) (x : LinkSt) (s : State) : (setLinkSt k x s).slices = s.slices := rfl
@[simp] theorem setLinkSt_cal (k : LinkId) (x : LinkSt) (s : State) : (setLinkSt k x s).cal = s.cal := rfl
@[simp] theorem setLinkSt_pwr (k : LinkId) (x : LinkSt) (s : State) : (setLinkSt k x s).pwr = s.pwr := rfl
@[simp] theorem setLinkSt_thm (k : LinkId) (x : LinkSt) (s : State) : (setLinkSt k x s).thm = s.thm := rfl
@[simp] theorem setLinkSt_snt (k : LinkId) (x : LinkSt) (s : State) : (setLinkSt k x s).snt = s.snt := rfl
@[simp] theorem setLinkSt_fum (k : LinkId) (x : LinkSt) (s : State) : (setLinkSt k x s).fum = s.fum := rfl
@[simp] theorem setLinkSt_boot (k : LinkId) (x : LinkSt) (s : State) : (setLinkSt k x s).boot = s.boot := rfl
@[simp] theorem setLinkSt_sdio (k : LinkId) (x : LinkSt) (s : State) : (setLinkSt k x s).sdio = s.sdio := rfl
@[simp] theorem rd_setLinkSt (k : LinkId) (x : LinkSt) (s : State) (pg : PageKey) (off : Nat) : rd (setLinkSt k x s) pg off = rd s pg off := rfl

/-! ## setSdio -/

@[simp] theorem setSdio_pending (p : PartId) (x : SdioSt) (s : State) : (setSdio p x s).pending = s.pending := rfl
@[simp] theorem setSdio_now (p : PartId) (x : SdioSt) (s : State) : (setSdio p x s).now = s.now := rfl
@[simp] theorem setSdio_us (p : PartId) (x : SdioSt) (s : State) : (setSdio p x s).us = s.us := rfl
@[simp] theorem setSdio_usPhase (p : PartId) (x : SdioSt) (s : State) : (setSdio p x s).usPhase = s.usPhase := rfl
@[simp] theorem setSdio_freeCtr (p : PartId) (x : SdioSt) (s : State) : (setSdio p x s).freeCtr = s.freeCtr := rfl
@[simp] theorem setSdio_regs (p : PartId) (x : SdioSt) (s : State) : (setSdio p x s).regs = s.regs := rfl
@[simp] theorem setSdio_mem (p : PartId) (x : SdioSt) (s : State) : (setSdio p x s).mem = s.mem := rfl
@[simp] theorem setSdio_staged (p : PartId) (x : SdioSt) (s : State) : (setSdio p x s).staged = s.staged := rfl
@[simp] theorem setSdio_shadow (p : PartId) (x : SdioSt) (s : State) : (setSdio p x s).shadow = s.shadow := rfl
@[simp] theorem setSdio_groups (p : PartId) (x : SdioSt) (s : State) : (setSdio p x s).groups = s.groups := rfl
@[simp] theorem setSdio_commits (p : PartId) (x : SdioSt) (s : State) : (setSdio p x s).commits = s.commits := rfl
@[simp] theorem setSdio_softPend (p : PartId) (x : SdioSt) (s : State) : (setSdio p x s).softPend = s.softPend := rfl
@[simp] theorem setSdio_links (p : PartId) (x : SdioSt) (s : State) : (setSdio p x s).links = s.links := rfl
@[simp] theorem setSdio_outstanding (p : PartId) (x : SdioSt) (s : State) : (setSdio p x s).outstanding = s.outstanding := rfl
@[simp] theorem setSdio_nextReq (p : PartId) (x : SdioSt) (s : State) : (setSdio p x s).nextReq = s.nextReq := rfl
@[simp] theorem setSdio_completed (p : PartId) (x : SdioSt) (s : State) : (setSdio p x s).completed = s.completed := rfl
@[simp] theorem setSdio_fumIn (p : PartId) (x : SdioSt) (s : State) : (setSdio p x s).fumIn = s.fumIn := rfl
@[simp] theorem setSdio_wakeQ (p : PartId) (x : SdioSt) (s : State) : (setSdio p x s).wakeQ = s.wakeQ := rfl
@[simp] theorem setSdio_tiles (p : PartId) (x : SdioSt) (s : State) : (setSdio p x s).tiles = s.tiles := rfl
@[simp] theorem setSdio_heldDone (p : PartId) (x : SdioSt) (s : State) : (setSdio p x s).heldDone = s.heldDone := rfl
@[simp] theorem setSdio_remoteSteps (p : PartId) (x : SdioSt) (s : State) : (setSdio p x s).remoteSteps = s.remoteSteps := rfl
@[simp] theorem setSdio_barriers (p : PartId) (x : SdioSt) (s : State) : (setSdio p x s).barriers = s.barriers := rfl
@[simp] theorem setSdio_barrierSeen (p : PartId) (x : SdioSt) (s : State) : (setSdio p x s).barrierSeen = s.barrierSeen := rfl
@[simp] theorem setSdio_evidenceIn (p : PartId) (x : SdioSt) (s : State) : (setSdio p x s).evidenceIn = s.evidenceIn := rfl
@[simp] theorem setSdio_memCfg (p : PartId) (x : SdioSt) (s : State) : (setSdio p x s).memCfg = s.memCfg := rfl
@[simp] theorem setSdio_hubs (p : PartId) (x : SdioSt) (s : State) : (setSdio p x s).hubs = s.hubs := rfl
@[simp] theorem setSdio_subs (p : PartId) (x : SdioSt) (s : State) : (setSdio p x s).subs = s.subs := rfl
@[simp] theorem setSdio_devs (p : PartId) (x : SdioSt) (s : State) : (setSdio p x s).devs = s.devs := rfl
@[simp] theorem setSdio_retained (p : PartId) (x : SdioSt) (s : State) : (setSdio p x s).retained = s.retained := rfl
@[simp] theorem setSdio_trained (p : PartId) (x : SdioSt) (s : State) : (setSdio p x s).trained = s.trained := rfl
@[simp] theorem setSdio_jobs (p : PartId) (x : SdioSt) (s : State) : (setSdio p x s).jobs = s.jobs := rfl
@[simp] theorem setSdio_partCnt (p : PartId) (x : SdioSt) (s : State) : (setSdio p x s).partCnt = s.partCnt := rfl
@[simp] theorem setSdio_nextJid (p : PartId) (x : SdioSt) (s : State) : (setSdio p x s).nextJid = s.nextJid := rfl
@[simp] theorem setSdio_nextRel (p : PartId) (x : SdioSt) (s : State) : (setSdio p x s).nextRel = s.nextRel := rfl
@[simp] theorem setSdio_submits (p : PartId) (x : SdioSt) (s : State) : (setSdio p x s).submits = s.submits := rfl
@[simp] theorem setSdio_saved (p : PartId) (x : SdioSt) (s : State) : (setSdio p x s).saved = s.saved := rfl
@[simp] theorem setSdio_ctxRun (p : PartId) (x : SdioSt) (s : State) : (setSdio p x s).ctxRun = s.ctxRun := rfl
@[simp] theorem setSdio_window (p : PartId) (x : SdioSt) (s : State) : (setSdio p x s).window = s.window := rfl
@[simp] theorem setSdio_winNo (p : PartId) (x : SdioSt) (s : State) : (setSdio p x s).winNo = s.winNo := rfl
@[simp] theorem setSdio_cpl (p : PartId) (x : SdioSt) (s : State) : (setSdio p x s).cpl = s.cpl := rfl
@[simp] theorem setSdio_rings (p : PartId) (x : SdioSt) (s : State) : (setSdio p x s).rings = s.rings := rfl
@[simp] theorem setSdio_cams (p : PartId) (x : SdioSt) (s : State) : (setSdio p x s).cams = s.cams := rfl
@[simp] theorem setSdio_chans (p : PartId) (x : SdioSt) (s : State) : (setSdio p x s).chans = s.chans := rfl
@[simp] theorem setSdio_slices (p : PartId) (x : SdioSt) (s : State) : (setSdio p x s).slices = s.slices := rfl
@[simp] theorem setSdio_cal (p : PartId) (x : SdioSt) (s : State) : (setSdio p x s).cal = s.cal := rfl
@[simp] theorem setSdio_pwr (p : PartId) (x : SdioSt) (s : State) : (setSdio p x s).pwr = s.pwr := rfl
@[simp] theorem setSdio_thm (p : PartId) (x : SdioSt) (s : State) : (setSdio p x s).thm = s.thm := rfl
@[simp] theorem setSdio_snt (p : PartId) (x : SdioSt) (s : State) : (setSdio p x s).snt = s.snt := rfl
@[simp] theorem setSdio_fum (p : PartId) (x : SdioSt) (s : State) : (setSdio p x s).fum = s.fum := rfl
@[simp] theorem setSdio_boot (p : PartId) (x : SdioSt) (s : State) : (setSdio p x s).boot = s.boot := rfl
@[simp] theorem setSdio_sdio (p : PartId) (x : SdioSt) (s : State) : (setSdio p x s).sdio = Tab.put s.sdio p x := rfl
@[simp] theorem rd_setSdio (p : PartId) (x : SdioSt) (s : State) (pg : PageKey) (off : Nat) : rd (setSdio p x s) pg off = rd s pg off := rfl

/-! ## setCpl -/

@[simp] theorem setCpl_pending (p : PartId) (x : CplRing) (s : State) : (setCpl p x s).pending = s.pending := rfl
@[simp] theorem setCpl_now (p : PartId) (x : CplRing) (s : State) : (setCpl p x s).now = s.now := rfl
@[simp] theorem setCpl_us (p : PartId) (x : CplRing) (s : State) : (setCpl p x s).us = s.us := rfl
@[simp] theorem setCpl_usPhase (p : PartId) (x : CplRing) (s : State) : (setCpl p x s).usPhase = s.usPhase := rfl
@[simp] theorem setCpl_freeCtr (p : PartId) (x : CplRing) (s : State) : (setCpl p x s).freeCtr = s.freeCtr := rfl
@[simp] theorem setCpl_regs (p : PartId) (x : CplRing) (s : State) : (setCpl p x s).regs = s.regs := rfl
@[simp] theorem setCpl_mem (p : PartId) (x : CplRing) (s : State) : (setCpl p x s).mem = s.mem := rfl
@[simp] theorem setCpl_staged (p : PartId) (x : CplRing) (s : State) : (setCpl p x s).staged = s.staged := rfl
@[simp] theorem setCpl_shadow (p : PartId) (x : CplRing) (s : State) : (setCpl p x s).shadow = s.shadow := rfl
@[simp] theorem setCpl_groups (p : PartId) (x : CplRing) (s : State) : (setCpl p x s).groups = s.groups := rfl
@[simp] theorem setCpl_commits (p : PartId) (x : CplRing) (s : State) : (setCpl p x s).commits = s.commits := rfl
@[simp] theorem setCpl_softPend (p : PartId) (x : CplRing) (s : State) : (setCpl p x s).softPend = s.softPend := rfl
@[simp] theorem setCpl_links (p : PartId) (x : CplRing) (s : State) : (setCpl p x s).links = s.links := rfl
@[simp] theorem setCpl_outstanding (p : PartId) (x : CplRing) (s : State) : (setCpl p x s).outstanding = s.outstanding := rfl
@[simp] theorem setCpl_nextReq (p : PartId) (x : CplRing) (s : State) : (setCpl p x s).nextReq = s.nextReq := rfl
@[simp] theorem setCpl_completed (p : PartId) (x : CplRing) (s : State) : (setCpl p x s).completed = s.completed := rfl
@[simp] theorem setCpl_fumIn (p : PartId) (x : CplRing) (s : State) : (setCpl p x s).fumIn = s.fumIn := rfl
@[simp] theorem setCpl_wakeQ (p : PartId) (x : CplRing) (s : State) : (setCpl p x s).wakeQ = s.wakeQ := rfl
@[simp] theorem setCpl_tiles (p : PartId) (x : CplRing) (s : State) : (setCpl p x s).tiles = s.tiles := rfl
@[simp] theorem setCpl_heldDone (p : PartId) (x : CplRing) (s : State) : (setCpl p x s).heldDone = s.heldDone := rfl
@[simp] theorem setCpl_remoteSteps (p : PartId) (x : CplRing) (s : State) : (setCpl p x s).remoteSteps = s.remoteSteps := rfl
@[simp] theorem setCpl_barriers (p : PartId) (x : CplRing) (s : State) : (setCpl p x s).barriers = s.barriers := rfl
@[simp] theorem setCpl_barrierSeen (p : PartId) (x : CplRing) (s : State) : (setCpl p x s).barrierSeen = s.barrierSeen := rfl
@[simp] theorem setCpl_evidenceIn (p : PartId) (x : CplRing) (s : State) : (setCpl p x s).evidenceIn = s.evidenceIn := rfl
@[simp] theorem setCpl_memCfg (p : PartId) (x : CplRing) (s : State) : (setCpl p x s).memCfg = s.memCfg := rfl
@[simp] theorem setCpl_hubs (p : PartId) (x : CplRing) (s : State) : (setCpl p x s).hubs = s.hubs := rfl
@[simp] theorem setCpl_subs (p : PartId) (x : CplRing) (s : State) : (setCpl p x s).subs = s.subs := rfl
@[simp] theorem setCpl_devs (p : PartId) (x : CplRing) (s : State) : (setCpl p x s).devs = s.devs := rfl
@[simp] theorem setCpl_retained (p : PartId) (x : CplRing) (s : State) : (setCpl p x s).retained = s.retained := rfl
@[simp] theorem setCpl_trained (p : PartId) (x : CplRing) (s : State) : (setCpl p x s).trained = s.trained := rfl
@[simp] theorem setCpl_jobs (p : PartId) (x : CplRing) (s : State) : (setCpl p x s).jobs = s.jobs := rfl
@[simp] theorem setCpl_partCnt (p : PartId) (x : CplRing) (s : State) : (setCpl p x s).partCnt = s.partCnt := rfl
@[simp] theorem setCpl_nextJid (p : PartId) (x : CplRing) (s : State) : (setCpl p x s).nextJid = s.nextJid := rfl
@[simp] theorem setCpl_nextRel (p : PartId) (x : CplRing) (s : State) : (setCpl p x s).nextRel = s.nextRel := rfl
@[simp] theorem setCpl_submits (p : PartId) (x : CplRing) (s : State) : (setCpl p x s).submits = s.submits := rfl
@[simp] theorem setCpl_saved (p : PartId) (x : CplRing) (s : State) : (setCpl p x s).saved = s.saved := rfl
@[simp] theorem setCpl_ctxRun (p : PartId) (x : CplRing) (s : State) : (setCpl p x s).ctxRun = s.ctxRun := rfl
@[simp] theorem setCpl_window (p : PartId) (x : CplRing) (s : State) : (setCpl p x s).window = s.window := rfl
@[simp] theorem setCpl_winNo (p : PartId) (x : CplRing) (s : State) : (setCpl p x s).winNo = s.winNo := rfl
@[simp] theorem setCpl_cpl (p : PartId) (x : CplRing) (s : State) : (setCpl p x s).cpl = Tab.put s.cpl p x := rfl
@[simp] theorem setCpl_rings (p : PartId) (x : CplRing) (s : State) : (setCpl p x s).rings = s.rings := rfl
@[simp] theorem setCpl_cams (p : PartId) (x : CplRing) (s : State) : (setCpl p x s).cams = s.cams := rfl
@[simp] theorem setCpl_chans (p : PartId) (x : CplRing) (s : State) : (setCpl p x s).chans = s.chans := rfl
@[simp] theorem setCpl_slices (p : PartId) (x : CplRing) (s : State) : (setCpl p x s).slices = s.slices := rfl
@[simp] theorem setCpl_cal (p : PartId) (x : CplRing) (s : State) : (setCpl p x s).cal = s.cal := rfl
@[simp] theorem setCpl_pwr (p : PartId) (x : CplRing) (s : State) : (setCpl p x s).pwr = s.pwr := rfl
@[simp] theorem setCpl_thm (p : PartId) (x : CplRing) (s : State) : (setCpl p x s).thm = s.thm := rfl
@[simp] theorem setCpl_snt (p : PartId) (x : CplRing) (s : State) : (setCpl p x s).snt = s.snt := rfl
@[simp] theorem setCpl_fum (p : PartId) (x : CplRing) (s : State) : (setCpl p x s).fum = s.fum := rfl
@[simp] theorem setCpl_boot (p : PartId) (x : CplRing) (s : State) : (setCpl p x s).boot = s.boot := rfl
@[simp] theorem setCpl_sdio (p : PartId) (x : CplRing) (s : State) : (setCpl p x s).sdio = s.sdio := rfl
@[simp] theorem rd_setCpl (p : PartId) (x : CplRing) (s : State) (pg : PageKey) (off : Nat) : rd (setCpl p x s) pg off = rd s pg off := rfl

/-! ## setRing -/

@[simp] theorem setRing_pending (r : RingId) (x : RingSt) (s : State) : (setRing r x s).pending = s.pending := rfl
@[simp] theorem setRing_now (r : RingId) (x : RingSt) (s : State) : (setRing r x s).now = s.now := rfl
@[simp] theorem setRing_us (r : RingId) (x : RingSt) (s : State) : (setRing r x s).us = s.us := rfl
@[simp] theorem setRing_usPhase (r : RingId) (x : RingSt) (s : State) : (setRing r x s).usPhase = s.usPhase := rfl
@[simp] theorem setRing_freeCtr (r : RingId) (x : RingSt) (s : State) : (setRing r x s).freeCtr = s.freeCtr := rfl
@[simp] theorem setRing_regs (r : RingId) (x : RingSt) (s : State) : (setRing r x s).regs = s.regs := rfl
@[simp] theorem setRing_mem (r : RingId) (x : RingSt) (s : State) : (setRing r x s).mem = s.mem := rfl
@[simp] theorem setRing_staged (r : RingId) (x : RingSt) (s : State) : (setRing r x s).staged = s.staged := rfl
@[simp] theorem setRing_shadow (r : RingId) (x : RingSt) (s : State) : (setRing r x s).shadow = s.shadow := rfl
@[simp] theorem setRing_groups (r : RingId) (x : RingSt) (s : State) : (setRing r x s).groups = s.groups := rfl
@[simp] theorem setRing_commits (r : RingId) (x : RingSt) (s : State) : (setRing r x s).commits = s.commits := rfl
@[simp] theorem setRing_softPend (r : RingId) (x : RingSt) (s : State) : (setRing r x s).softPend = s.softPend := rfl
@[simp] theorem setRing_links (r : RingId) (x : RingSt) (s : State) : (setRing r x s).links = s.links := rfl
@[simp] theorem setRing_outstanding (r : RingId) (x : RingSt) (s : State) : (setRing r x s).outstanding = s.outstanding := rfl
@[simp] theorem setRing_nextReq (r : RingId) (x : RingSt) (s : State) : (setRing r x s).nextReq = s.nextReq := rfl
@[simp] theorem setRing_completed (r : RingId) (x : RingSt) (s : State) : (setRing r x s).completed = s.completed := rfl
@[simp] theorem setRing_fumIn (r : RingId) (x : RingSt) (s : State) : (setRing r x s).fumIn = s.fumIn := rfl
@[simp] theorem setRing_wakeQ (r : RingId) (x : RingSt) (s : State) : (setRing r x s).wakeQ = s.wakeQ := rfl
@[simp] theorem setRing_tiles (r : RingId) (x : RingSt) (s : State) : (setRing r x s).tiles = s.tiles := rfl
@[simp] theorem setRing_heldDone (r : RingId) (x : RingSt) (s : State) : (setRing r x s).heldDone = s.heldDone := rfl
@[simp] theorem setRing_remoteSteps (r : RingId) (x : RingSt) (s : State) : (setRing r x s).remoteSteps = s.remoteSteps := rfl
@[simp] theorem setRing_barriers (r : RingId) (x : RingSt) (s : State) : (setRing r x s).barriers = s.barriers := rfl
@[simp] theorem setRing_barrierSeen (r : RingId) (x : RingSt) (s : State) : (setRing r x s).barrierSeen = s.barrierSeen := rfl
@[simp] theorem setRing_evidenceIn (r : RingId) (x : RingSt) (s : State) : (setRing r x s).evidenceIn = s.evidenceIn := rfl
@[simp] theorem setRing_memCfg (r : RingId) (x : RingSt) (s : State) : (setRing r x s).memCfg = s.memCfg := rfl
@[simp] theorem setRing_hubs (r : RingId) (x : RingSt) (s : State) : (setRing r x s).hubs = s.hubs := rfl
@[simp] theorem setRing_subs (r : RingId) (x : RingSt) (s : State) : (setRing r x s).subs = s.subs := rfl
@[simp] theorem setRing_devs (r : RingId) (x : RingSt) (s : State) : (setRing r x s).devs = s.devs := rfl
@[simp] theorem setRing_retained (r : RingId) (x : RingSt) (s : State) : (setRing r x s).retained = s.retained := rfl
@[simp] theorem setRing_trained (r : RingId) (x : RingSt) (s : State) : (setRing r x s).trained = s.trained := rfl
@[simp] theorem setRing_jobs (r : RingId) (x : RingSt) (s : State) : (setRing r x s).jobs = s.jobs := rfl
@[simp] theorem setRing_partCnt (r : RingId) (x : RingSt) (s : State) : (setRing r x s).partCnt = s.partCnt := rfl
@[simp] theorem setRing_nextJid (r : RingId) (x : RingSt) (s : State) : (setRing r x s).nextJid = s.nextJid := rfl
@[simp] theorem setRing_nextRel (r : RingId) (x : RingSt) (s : State) : (setRing r x s).nextRel = s.nextRel := rfl
@[simp] theorem setRing_submits (r : RingId) (x : RingSt) (s : State) : (setRing r x s).submits = s.submits := rfl
@[simp] theorem setRing_saved (r : RingId) (x : RingSt) (s : State) : (setRing r x s).saved = s.saved := rfl
@[simp] theorem setRing_ctxRun (r : RingId) (x : RingSt) (s : State) : (setRing r x s).ctxRun = s.ctxRun := rfl
@[simp] theorem setRing_window (r : RingId) (x : RingSt) (s : State) : (setRing r x s).window = s.window := rfl
@[simp] theorem setRing_winNo (r : RingId) (x : RingSt) (s : State) : (setRing r x s).winNo = s.winNo := rfl
@[simp] theorem setRing_cpl (r : RingId) (x : RingSt) (s : State) : (setRing r x s).cpl = s.cpl := rfl
@[simp] theorem setRing_rings (r : RingId) (x : RingSt) (s : State) : (setRing r x s).rings = Tab.put s.rings r x := rfl
@[simp] theorem setRing_cams (r : RingId) (x : RingSt) (s : State) : (setRing r x s).cams = s.cams := rfl
@[simp] theorem setRing_chans (r : RingId) (x : RingSt) (s : State) : (setRing r x s).chans = s.chans := rfl
@[simp] theorem setRing_slices (r : RingId) (x : RingSt) (s : State) : (setRing r x s).slices = s.slices := rfl
@[simp] theorem setRing_cal (r : RingId) (x : RingSt) (s : State) : (setRing r x s).cal = s.cal := rfl
@[simp] theorem setRing_pwr (r : RingId) (x : RingSt) (s : State) : (setRing r x s).pwr = s.pwr := rfl
@[simp] theorem setRing_thm (r : RingId) (x : RingSt) (s : State) : (setRing r x s).thm = s.thm := rfl
@[simp] theorem setRing_snt (r : RingId) (x : RingSt) (s : State) : (setRing r x s).snt = s.snt := rfl
@[simp] theorem setRing_fum (r : RingId) (x : RingSt) (s : State) : (setRing r x s).fum = s.fum := rfl
@[simp] theorem setRing_boot (r : RingId) (x : RingSt) (s : State) : (setRing r x s).boot = s.boot := rfl
@[simp] theorem setRing_sdio (r : RingId) (x : RingSt) (s : State) : (setRing r x s).sdio = s.sdio := rfl
@[simp] theorem rd_setRing (r : RingId) (x : RingSt) (s : State) (pg : PageKey) (off : Nat) : rd (setRing r x s) pg off = rd s pg off := rfl

/-! ## setEngChan -/

@[simp] theorem setEngChan_pending (e : SharedEng) (c : Chan) (x : EngChan) (s : State) : (setEngChan e c x s).pending = s.pending := rfl
@[simp] theorem setEngChan_now (e : SharedEng) (c : Chan) (x : EngChan) (s : State) : (setEngChan e c x s).now = s.now := rfl
@[simp] theorem setEngChan_us (e : SharedEng) (c : Chan) (x : EngChan) (s : State) : (setEngChan e c x s).us = s.us := rfl
@[simp] theorem setEngChan_usPhase (e : SharedEng) (c : Chan) (x : EngChan) (s : State) : (setEngChan e c x s).usPhase = s.usPhase := rfl
@[simp] theorem setEngChan_freeCtr (e : SharedEng) (c : Chan) (x : EngChan) (s : State) : (setEngChan e c x s).freeCtr = s.freeCtr := rfl
@[simp] theorem setEngChan_regs (e : SharedEng) (c : Chan) (x : EngChan) (s : State) : (setEngChan e c x s).regs = s.regs := rfl
@[simp] theorem setEngChan_mem (e : SharedEng) (c : Chan) (x : EngChan) (s : State) : (setEngChan e c x s).mem = s.mem := rfl
@[simp] theorem setEngChan_staged (e : SharedEng) (c : Chan) (x : EngChan) (s : State) : (setEngChan e c x s).staged = s.staged := rfl
@[simp] theorem setEngChan_shadow (e : SharedEng) (c : Chan) (x : EngChan) (s : State) : (setEngChan e c x s).shadow = s.shadow := rfl
@[simp] theorem setEngChan_groups (e : SharedEng) (c : Chan) (x : EngChan) (s : State) : (setEngChan e c x s).groups = s.groups := rfl
@[simp] theorem setEngChan_commits (e : SharedEng) (c : Chan) (x : EngChan) (s : State) : (setEngChan e c x s).commits = s.commits := rfl
@[simp] theorem setEngChan_softPend (e : SharedEng) (c : Chan) (x : EngChan) (s : State) : (setEngChan e c x s).softPend = s.softPend := rfl
@[simp] theorem setEngChan_links (e : SharedEng) (c : Chan) (x : EngChan) (s : State) : (setEngChan e c x s).links = s.links := rfl
@[simp] theorem setEngChan_outstanding (e : SharedEng) (c : Chan) (x : EngChan) (s : State) : (setEngChan e c x s).outstanding = s.outstanding := rfl
@[simp] theorem setEngChan_nextReq (e : SharedEng) (c : Chan) (x : EngChan) (s : State) : (setEngChan e c x s).nextReq = s.nextReq := rfl
@[simp] theorem setEngChan_completed (e : SharedEng) (c : Chan) (x : EngChan) (s : State) : (setEngChan e c x s).completed = s.completed := rfl
@[simp] theorem setEngChan_fumIn (e : SharedEng) (c : Chan) (x : EngChan) (s : State) : (setEngChan e c x s).fumIn = s.fumIn := rfl
@[simp] theorem setEngChan_wakeQ (e : SharedEng) (c : Chan) (x : EngChan) (s : State) : (setEngChan e c x s).wakeQ = s.wakeQ := rfl
@[simp] theorem setEngChan_tiles (e : SharedEng) (c : Chan) (x : EngChan) (s : State) : (setEngChan e c x s).tiles = s.tiles := rfl
@[simp] theorem setEngChan_heldDone (e : SharedEng) (c : Chan) (x : EngChan) (s : State) : (setEngChan e c x s).heldDone = s.heldDone := rfl
@[simp] theorem setEngChan_remoteSteps (e : SharedEng) (c : Chan) (x : EngChan) (s : State) : (setEngChan e c x s).remoteSteps = s.remoteSteps := rfl
@[simp] theorem setEngChan_barriers (e : SharedEng) (c : Chan) (x : EngChan) (s : State) : (setEngChan e c x s).barriers = s.barriers := rfl
@[simp] theorem setEngChan_barrierSeen (e : SharedEng) (c : Chan) (x : EngChan) (s : State) : (setEngChan e c x s).barrierSeen = s.barrierSeen := rfl
@[simp] theorem setEngChan_evidenceIn (e : SharedEng) (c : Chan) (x : EngChan) (s : State) : (setEngChan e c x s).evidenceIn = s.evidenceIn := rfl
@[simp] theorem setEngChan_memCfg (e : SharedEng) (c : Chan) (x : EngChan) (s : State) : (setEngChan e c x s).memCfg = s.memCfg := rfl
@[simp] theorem setEngChan_hubs (e : SharedEng) (c : Chan) (x : EngChan) (s : State) : (setEngChan e c x s).hubs = s.hubs := rfl
@[simp] theorem setEngChan_subs (e : SharedEng) (c : Chan) (x : EngChan) (s : State) : (setEngChan e c x s).subs = s.subs := rfl
@[simp] theorem setEngChan_devs (e : SharedEng) (c : Chan) (x : EngChan) (s : State) : (setEngChan e c x s).devs = s.devs := rfl
@[simp] theorem setEngChan_retained (e : SharedEng) (c : Chan) (x : EngChan) (s : State) : (setEngChan e c x s).retained = s.retained := rfl
@[simp] theorem setEngChan_trained (e : SharedEng) (c : Chan) (x : EngChan) (s : State) : (setEngChan e c x s).trained = s.trained := rfl
@[simp] theorem setEngChan_jobs (e : SharedEng) (c : Chan) (x : EngChan) (s : State) : (setEngChan e c x s).jobs = s.jobs := rfl
@[simp] theorem setEngChan_partCnt (e : SharedEng) (c : Chan) (x : EngChan) (s : State) : (setEngChan e c x s).partCnt = s.partCnt := rfl
@[simp] theorem setEngChan_nextJid (e : SharedEng) (c : Chan) (x : EngChan) (s : State) : (setEngChan e c x s).nextJid = s.nextJid := rfl
@[simp] theorem setEngChan_nextRel (e : SharedEng) (c : Chan) (x : EngChan) (s : State) : (setEngChan e c x s).nextRel = s.nextRel := rfl
@[simp] theorem setEngChan_submits (e : SharedEng) (c : Chan) (x : EngChan) (s : State) : (setEngChan e c x s).submits = s.submits := rfl
@[simp] theorem setEngChan_saved (e : SharedEng) (c : Chan) (x : EngChan) (s : State) : (setEngChan e c x s).saved = s.saved := rfl
@[simp] theorem setEngChan_ctxRun (e : SharedEng) (c : Chan) (x : EngChan) (s : State) : (setEngChan e c x s).ctxRun = s.ctxRun := rfl
@[simp] theorem setEngChan_window (e : SharedEng) (c : Chan) (x : EngChan) (s : State) : (setEngChan e c x s).window = s.window := rfl
@[simp] theorem setEngChan_winNo (e : SharedEng) (c : Chan) (x : EngChan) (s : State) : (setEngChan e c x s).winNo = s.winNo := rfl
@[simp] theorem setEngChan_cpl (e : SharedEng) (c : Chan) (x : EngChan) (s : State) : (setEngChan e c x s).cpl = s.cpl := rfl
@[simp] theorem setEngChan_rings (e : SharedEng) (c : Chan) (x : EngChan) (s : State) : (setEngChan e c x s).rings = s.rings := rfl
@[simp] theorem setEngChan_cams (e : SharedEng) (c : Chan) (x : EngChan) (s : State) : (setEngChan e c x s).cams = s.cams := rfl
@[simp] theorem setEngChan_chans (e : SharedEng) (c : Chan) (x : EngChan) (s : State) : (setEngChan e c x s).chans = Tab.put s.chans (e, c) x := rfl
@[simp] theorem setEngChan_slices (e : SharedEng) (c : Chan) (x : EngChan) (s : State) : (setEngChan e c x s).slices = s.slices := rfl
@[simp] theorem setEngChan_cal (e : SharedEng) (c : Chan) (x : EngChan) (s : State) : (setEngChan e c x s).cal = s.cal := rfl
@[simp] theorem setEngChan_pwr (e : SharedEng) (c : Chan) (x : EngChan) (s : State) : (setEngChan e c x s).pwr = s.pwr := rfl
@[simp] theorem setEngChan_thm (e : SharedEng) (c : Chan) (x : EngChan) (s : State) : (setEngChan e c x s).thm = s.thm := rfl
@[simp] theorem setEngChan_snt (e : SharedEng) (c : Chan) (x : EngChan) (s : State) : (setEngChan e c x s).snt = s.snt := rfl
@[simp] theorem setEngChan_fum (e : SharedEng) (c : Chan) (x : EngChan) (s : State) : (setEngChan e c x s).fum = s.fum := rfl
@[simp] theorem setEngChan_boot (e : SharedEng) (c : Chan) (x : EngChan) (s : State) : (setEngChan e c x s).boot = s.boot := rfl
@[simp] theorem setEngChan_sdio (e : SharedEng) (c : Chan) (x : EngChan) (s : State) : (setEngChan e c x s).sdio = s.sdio := rfl
@[simp] theorem rd_setEngChan (e : SharedEng) (c : Chan) (x : EngChan) (s : State) (pg : PageKey) (off : Nat) : rd (setEngChan e c x s) pg off = rd s pg off := rfl

/-! ## setCam -/

@[simp] theorem setCam_pending (n : Port) (x : CamSt) (s : State) : (setCam n x s).pending = s.pending := rfl
@[simp] theorem setCam_now (n : Port) (x : CamSt) (s : State) : (setCam n x s).now = s.now := rfl
@[simp] theorem setCam_us (n : Port) (x : CamSt) (s : State) : (setCam n x s).us = s.us := rfl
@[simp] theorem setCam_usPhase (n : Port) (x : CamSt) (s : State) : (setCam n x s).usPhase = s.usPhase := rfl
@[simp] theorem setCam_freeCtr (n : Port) (x : CamSt) (s : State) : (setCam n x s).freeCtr = s.freeCtr := rfl
@[simp] theorem setCam_regs (n : Port) (x : CamSt) (s : State) : (setCam n x s).regs = s.regs := rfl
@[simp] theorem setCam_mem (n : Port) (x : CamSt) (s : State) : (setCam n x s).mem = s.mem := rfl
@[simp] theorem setCam_staged (n : Port) (x : CamSt) (s : State) : (setCam n x s).staged = s.staged := rfl
@[simp] theorem setCam_shadow (n : Port) (x : CamSt) (s : State) : (setCam n x s).shadow = s.shadow := rfl
@[simp] theorem setCam_groups (n : Port) (x : CamSt) (s : State) : (setCam n x s).groups = s.groups := rfl
@[simp] theorem setCam_commits (n : Port) (x : CamSt) (s : State) : (setCam n x s).commits = s.commits := rfl
@[simp] theorem setCam_softPend (n : Port) (x : CamSt) (s : State) : (setCam n x s).softPend = s.softPend := rfl
@[simp] theorem setCam_links (n : Port) (x : CamSt) (s : State) : (setCam n x s).links = s.links := rfl
@[simp] theorem setCam_outstanding (n : Port) (x : CamSt) (s : State) : (setCam n x s).outstanding = s.outstanding := rfl
@[simp] theorem setCam_nextReq (n : Port) (x : CamSt) (s : State) : (setCam n x s).nextReq = s.nextReq := rfl
@[simp] theorem setCam_completed (n : Port) (x : CamSt) (s : State) : (setCam n x s).completed = s.completed := rfl
@[simp] theorem setCam_fumIn (n : Port) (x : CamSt) (s : State) : (setCam n x s).fumIn = s.fumIn := rfl
@[simp] theorem setCam_wakeQ (n : Port) (x : CamSt) (s : State) : (setCam n x s).wakeQ = s.wakeQ := rfl
@[simp] theorem setCam_tiles (n : Port) (x : CamSt) (s : State) : (setCam n x s).tiles = s.tiles := rfl
@[simp] theorem setCam_heldDone (n : Port) (x : CamSt) (s : State) : (setCam n x s).heldDone = s.heldDone := rfl
@[simp] theorem setCam_remoteSteps (n : Port) (x : CamSt) (s : State) : (setCam n x s).remoteSteps = s.remoteSteps := rfl
@[simp] theorem setCam_barriers (n : Port) (x : CamSt) (s : State) : (setCam n x s).barriers = s.barriers := rfl
@[simp] theorem setCam_barrierSeen (n : Port) (x : CamSt) (s : State) : (setCam n x s).barrierSeen = s.barrierSeen := rfl
@[simp] theorem setCam_evidenceIn (n : Port) (x : CamSt) (s : State) : (setCam n x s).evidenceIn = s.evidenceIn := rfl
@[simp] theorem setCam_memCfg (n : Port) (x : CamSt) (s : State) : (setCam n x s).memCfg = s.memCfg := rfl
@[simp] theorem setCam_hubs (n : Port) (x : CamSt) (s : State) : (setCam n x s).hubs = s.hubs := rfl
@[simp] theorem setCam_subs (n : Port) (x : CamSt) (s : State) : (setCam n x s).subs = s.subs := rfl
@[simp] theorem setCam_devs (n : Port) (x : CamSt) (s : State) : (setCam n x s).devs = s.devs := rfl
@[simp] theorem setCam_retained (n : Port) (x : CamSt) (s : State) : (setCam n x s).retained = s.retained := rfl
@[simp] theorem setCam_trained (n : Port) (x : CamSt) (s : State) : (setCam n x s).trained = s.trained := rfl
@[simp] theorem setCam_jobs (n : Port) (x : CamSt) (s : State) : (setCam n x s).jobs = s.jobs := rfl
@[simp] theorem setCam_partCnt (n : Port) (x : CamSt) (s : State) : (setCam n x s).partCnt = s.partCnt := rfl
@[simp] theorem setCam_nextJid (n : Port) (x : CamSt) (s : State) : (setCam n x s).nextJid = s.nextJid := rfl
@[simp] theorem setCam_nextRel (n : Port) (x : CamSt) (s : State) : (setCam n x s).nextRel = s.nextRel := rfl
@[simp] theorem setCam_submits (n : Port) (x : CamSt) (s : State) : (setCam n x s).submits = s.submits := rfl
@[simp] theorem setCam_saved (n : Port) (x : CamSt) (s : State) : (setCam n x s).saved = s.saved := rfl
@[simp] theorem setCam_ctxRun (n : Port) (x : CamSt) (s : State) : (setCam n x s).ctxRun = s.ctxRun := rfl
@[simp] theorem setCam_window (n : Port) (x : CamSt) (s : State) : (setCam n x s).window = s.window := rfl
@[simp] theorem setCam_winNo (n : Port) (x : CamSt) (s : State) : (setCam n x s).winNo = s.winNo := rfl
@[simp] theorem setCam_cpl (n : Port) (x : CamSt) (s : State) : (setCam n x s).cpl = s.cpl := rfl
@[simp] theorem setCam_rings (n : Port) (x : CamSt) (s : State) : (setCam n x s).rings = s.rings := rfl
@[simp] theorem setCam_cams (n : Port) (x : CamSt) (s : State) : (setCam n x s).cams = Tab.put s.cams n x := rfl
@[simp] theorem setCam_chans (n : Port) (x : CamSt) (s : State) : (setCam n x s).chans = s.chans := rfl
@[simp] theorem setCam_slices (n : Port) (x : CamSt) (s : State) : (setCam n x s).slices = s.slices := rfl
@[simp] theorem setCam_cal (n : Port) (x : CamSt) (s : State) : (setCam n x s).cal = s.cal := rfl
@[simp] theorem setCam_pwr (n : Port) (x : CamSt) (s : State) : (setCam n x s).pwr = s.pwr := rfl
@[simp] theorem setCam_thm (n : Port) (x : CamSt) (s : State) : (setCam n x s).thm = s.thm := rfl
@[simp] theorem setCam_snt (n : Port) (x : CamSt) (s : State) : (setCam n x s).snt = s.snt := rfl
@[simp] theorem setCam_fum (n : Port) (x : CamSt) (s : State) : (setCam n x s).fum = s.fum := rfl
@[simp] theorem setCam_boot (n : Port) (x : CamSt) (s : State) : (setCam n x s).boot = s.boot := rfl
@[simp] theorem setCam_sdio (n : Port) (x : CamSt) (s : State) : (setCam n x s).sdio = s.sdio := rfl
@[simp] theorem rd_setCam (n : Port) (x : CamSt) (s : State) (pg : PageKey) (off : Nat) : rd (setCam n x s) pg off = rd s pg off := rfl

/-! ## updCal -/

@[simp] theorem updCal_pending (f : CalSt → CalSt) (s : State) : (updCal f s).pending = s.pending := rfl
@[simp] theorem updCal_now (f : CalSt → CalSt) (s : State) : (updCal f s).now = s.now := rfl
@[simp] theorem updCal_us (f : CalSt → CalSt) (s : State) : (updCal f s).us = s.us := rfl
@[simp] theorem updCal_usPhase (f : CalSt → CalSt) (s : State) : (updCal f s).usPhase = s.usPhase := rfl
@[simp] theorem updCal_freeCtr (f : CalSt → CalSt) (s : State) : (updCal f s).freeCtr = s.freeCtr := rfl
@[simp] theorem updCal_regs (f : CalSt → CalSt) (s : State) : (updCal f s).regs = s.regs := rfl
@[simp] theorem updCal_mem (f : CalSt → CalSt) (s : State) : (updCal f s).mem = s.mem := rfl
@[simp] theorem updCal_staged (f : CalSt → CalSt) (s : State) : (updCal f s).staged = s.staged := rfl
@[simp] theorem updCal_shadow (f : CalSt → CalSt) (s : State) : (updCal f s).shadow = s.shadow := rfl
@[simp] theorem updCal_groups (f : CalSt → CalSt) (s : State) : (updCal f s).groups = s.groups := rfl
@[simp] theorem updCal_commits (f : CalSt → CalSt) (s : State) : (updCal f s).commits = s.commits := rfl
@[simp] theorem updCal_softPend (f : CalSt → CalSt) (s : State) : (updCal f s).softPend = s.softPend := rfl
@[simp] theorem updCal_links (f : CalSt → CalSt) (s : State) : (updCal f s).links = s.links := rfl
@[simp] theorem updCal_outstanding (f : CalSt → CalSt) (s : State) : (updCal f s).outstanding = s.outstanding := rfl
@[simp] theorem updCal_nextReq (f : CalSt → CalSt) (s : State) : (updCal f s).nextReq = s.nextReq := rfl
@[simp] theorem updCal_completed (f : CalSt → CalSt) (s : State) : (updCal f s).completed = s.completed := rfl
@[simp] theorem updCal_fumIn (f : CalSt → CalSt) (s : State) : (updCal f s).fumIn = s.fumIn := rfl
@[simp] theorem updCal_wakeQ (f : CalSt → CalSt) (s : State) : (updCal f s).wakeQ = s.wakeQ := rfl
@[simp] theorem updCal_tiles (f : CalSt → CalSt) (s : State) : (updCal f s).tiles = s.tiles := rfl
@[simp] theorem updCal_heldDone (f : CalSt → CalSt) (s : State) : (updCal f s).heldDone = s.heldDone := rfl
@[simp] theorem updCal_remoteSteps (f : CalSt → CalSt) (s : State) : (updCal f s).remoteSteps = s.remoteSteps := rfl
@[simp] theorem updCal_barriers (f : CalSt → CalSt) (s : State) : (updCal f s).barriers = s.barriers := rfl
@[simp] theorem updCal_barrierSeen (f : CalSt → CalSt) (s : State) : (updCal f s).barrierSeen = s.barrierSeen := rfl
@[simp] theorem updCal_evidenceIn (f : CalSt → CalSt) (s : State) : (updCal f s).evidenceIn = s.evidenceIn := rfl
@[simp] theorem updCal_memCfg (f : CalSt → CalSt) (s : State) : (updCal f s).memCfg = s.memCfg := rfl
@[simp] theorem updCal_hubs (f : CalSt → CalSt) (s : State) : (updCal f s).hubs = s.hubs := rfl
@[simp] theorem updCal_subs (f : CalSt → CalSt) (s : State) : (updCal f s).subs = s.subs := rfl
@[simp] theorem updCal_devs (f : CalSt → CalSt) (s : State) : (updCal f s).devs = s.devs := rfl
@[simp] theorem updCal_retained (f : CalSt → CalSt) (s : State) : (updCal f s).retained = s.retained := rfl
@[simp] theorem updCal_trained (f : CalSt → CalSt) (s : State) : (updCal f s).trained = s.trained := rfl
@[simp] theorem updCal_jobs (f : CalSt → CalSt) (s : State) : (updCal f s).jobs = s.jobs := rfl
@[simp] theorem updCal_partCnt (f : CalSt → CalSt) (s : State) : (updCal f s).partCnt = s.partCnt := rfl
@[simp] theorem updCal_nextJid (f : CalSt → CalSt) (s : State) : (updCal f s).nextJid = s.nextJid := rfl
@[simp] theorem updCal_nextRel (f : CalSt → CalSt) (s : State) : (updCal f s).nextRel = s.nextRel := rfl
@[simp] theorem updCal_submits (f : CalSt → CalSt) (s : State) : (updCal f s).submits = s.submits := rfl
@[simp] theorem updCal_saved (f : CalSt → CalSt) (s : State) : (updCal f s).saved = s.saved := rfl
@[simp] theorem updCal_ctxRun (f : CalSt → CalSt) (s : State) : (updCal f s).ctxRun = s.ctxRun := rfl
@[simp] theorem updCal_window (f : CalSt → CalSt) (s : State) : (updCal f s).window = s.window := rfl
@[simp] theorem updCal_winNo (f : CalSt → CalSt) (s : State) : (updCal f s).winNo = s.winNo := rfl
@[simp] theorem updCal_cpl (f : CalSt → CalSt) (s : State) : (updCal f s).cpl = s.cpl := rfl
@[simp] theorem updCal_rings (f : CalSt → CalSt) (s : State) : (updCal f s).rings = s.rings := rfl
@[simp] theorem updCal_cams (f : CalSt → CalSt) (s : State) : (updCal f s).cams = s.cams := rfl
@[simp] theorem updCal_chans (f : CalSt → CalSt) (s : State) : (updCal f s).chans = s.chans := rfl
@[simp] theorem updCal_slices (f : CalSt → CalSt) (s : State) : (updCal f s).slices = s.slices := rfl
@[simp] theorem updCal_cal (f : CalSt → CalSt) (s : State) : (updCal f s).cal = f s.cal := rfl
@[simp] theorem updCal_pwr (f : CalSt → CalSt) (s : State) : (updCal f s).pwr = s.pwr := rfl
@[simp] theorem updCal_thm (f : CalSt → CalSt) (s : State) : (updCal f s).thm = s.thm := rfl
@[simp] theorem updCal_snt (f : CalSt → CalSt) (s : State) : (updCal f s).snt = s.snt := rfl
@[simp] theorem updCal_fum (f : CalSt → CalSt) (s : State) : (updCal f s).fum = s.fum := rfl
@[simp] theorem updCal_boot (f : CalSt → CalSt) (s : State) : (updCal f s).boot = s.boot := rfl
@[simp] theorem updCal_sdio (f : CalSt → CalSt) (s : State) : (updCal f s).sdio = s.sdio := rfl
@[simp] theorem rd_updCal (f : CalSt → CalSt) (s : State) (pg : PageKey) (off : Nat) : rd (updCal f s) pg off = rd s pg off := rfl

/-! ## updPwr -/

@[simp] theorem updPwr_pending (f : PwrSt → PwrSt) (s : State) : (updPwr f s).pending = s.pending := rfl
@[simp] theorem updPwr_now (f : PwrSt → PwrSt) (s : State) : (updPwr f s).now = s.now := rfl
@[simp] theorem updPwr_us (f : PwrSt → PwrSt) (s : State) : (updPwr f s).us = s.us := rfl
@[simp] theorem updPwr_usPhase (f : PwrSt → PwrSt) (s : State) : (updPwr f s).usPhase = s.usPhase := rfl
@[simp] theorem updPwr_freeCtr (f : PwrSt → PwrSt) (s : State) : (updPwr f s).freeCtr = s.freeCtr := rfl
@[simp] theorem updPwr_regs (f : PwrSt → PwrSt) (s : State) : (updPwr f s).regs = s.regs := rfl
@[simp] theorem updPwr_mem (f : PwrSt → PwrSt) (s : State) : (updPwr f s).mem = s.mem := rfl
@[simp] theorem updPwr_staged (f : PwrSt → PwrSt) (s : State) : (updPwr f s).staged = s.staged := rfl
@[simp] theorem updPwr_shadow (f : PwrSt → PwrSt) (s : State) : (updPwr f s).shadow = s.shadow := rfl
@[simp] theorem updPwr_groups (f : PwrSt → PwrSt) (s : State) : (updPwr f s).groups = s.groups := rfl
@[simp] theorem updPwr_commits (f : PwrSt → PwrSt) (s : State) : (updPwr f s).commits = s.commits := rfl
@[simp] theorem updPwr_softPend (f : PwrSt → PwrSt) (s : State) : (updPwr f s).softPend = s.softPend := rfl
@[simp] theorem updPwr_links (f : PwrSt → PwrSt) (s : State) : (updPwr f s).links = s.links := rfl
@[simp] theorem updPwr_outstanding (f : PwrSt → PwrSt) (s : State) : (updPwr f s).outstanding = s.outstanding := rfl
@[simp] theorem updPwr_nextReq (f : PwrSt → PwrSt) (s : State) : (updPwr f s).nextReq = s.nextReq := rfl
@[simp] theorem updPwr_completed (f : PwrSt → PwrSt) (s : State) : (updPwr f s).completed = s.completed := rfl
@[simp] theorem updPwr_fumIn (f : PwrSt → PwrSt) (s : State) : (updPwr f s).fumIn = s.fumIn := rfl
@[simp] theorem updPwr_wakeQ (f : PwrSt → PwrSt) (s : State) : (updPwr f s).wakeQ = s.wakeQ := rfl
@[simp] theorem updPwr_tiles (f : PwrSt → PwrSt) (s : State) : (updPwr f s).tiles = s.tiles := rfl
@[simp] theorem updPwr_heldDone (f : PwrSt → PwrSt) (s : State) : (updPwr f s).heldDone = s.heldDone := rfl
@[simp] theorem updPwr_remoteSteps (f : PwrSt → PwrSt) (s : State) : (updPwr f s).remoteSteps = s.remoteSteps := rfl
@[simp] theorem updPwr_barriers (f : PwrSt → PwrSt) (s : State) : (updPwr f s).barriers = s.barriers := rfl
@[simp] theorem updPwr_barrierSeen (f : PwrSt → PwrSt) (s : State) : (updPwr f s).barrierSeen = s.barrierSeen := rfl
@[simp] theorem updPwr_evidenceIn (f : PwrSt → PwrSt) (s : State) : (updPwr f s).evidenceIn = s.evidenceIn := rfl
@[simp] theorem updPwr_memCfg (f : PwrSt → PwrSt) (s : State) : (updPwr f s).memCfg = s.memCfg := rfl
@[simp] theorem updPwr_hubs (f : PwrSt → PwrSt) (s : State) : (updPwr f s).hubs = s.hubs := rfl
@[simp] theorem updPwr_subs (f : PwrSt → PwrSt) (s : State) : (updPwr f s).subs = s.subs := rfl
@[simp] theorem updPwr_devs (f : PwrSt → PwrSt) (s : State) : (updPwr f s).devs = s.devs := rfl
@[simp] theorem updPwr_retained (f : PwrSt → PwrSt) (s : State) : (updPwr f s).retained = s.retained := rfl
@[simp] theorem updPwr_trained (f : PwrSt → PwrSt) (s : State) : (updPwr f s).trained = s.trained := rfl
@[simp] theorem updPwr_jobs (f : PwrSt → PwrSt) (s : State) : (updPwr f s).jobs = s.jobs := rfl
@[simp] theorem updPwr_partCnt (f : PwrSt → PwrSt) (s : State) : (updPwr f s).partCnt = s.partCnt := rfl
@[simp] theorem updPwr_nextJid (f : PwrSt → PwrSt) (s : State) : (updPwr f s).nextJid = s.nextJid := rfl
@[simp] theorem updPwr_nextRel (f : PwrSt → PwrSt) (s : State) : (updPwr f s).nextRel = s.nextRel := rfl
@[simp] theorem updPwr_submits (f : PwrSt → PwrSt) (s : State) : (updPwr f s).submits = s.submits := rfl
@[simp] theorem updPwr_saved (f : PwrSt → PwrSt) (s : State) : (updPwr f s).saved = s.saved := rfl
@[simp] theorem updPwr_ctxRun (f : PwrSt → PwrSt) (s : State) : (updPwr f s).ctxRun = s.ctxRun := rfl
@[simp] theorem updPwr_window (f : PwrSt → PwrSt) (s : State) : (updPwr f s).window = s.window := rfl
@[simp] theorem updPwr_winNo (f : PwrSt → PwrSt) (s : State) : (updPwr f s).winNo = s.winNo := rfl
@[simp] theorem updPwr_cpl (f : PwrSt → PwrSt) (s : State) : (updPwr f s).cpl = s.cpl := rfl
@[simp] theorem updPwr_rings (f : PwrSt → PwrSt) (s : State) : (updPwr f s).rings = s.rings := rfl
@[simp] theorem updPwr_cams (f : PwrSt → PwrSt) (s : State) : (updPwr f s).cams = s.cams := rfl
@[simp] theorem updPwr_chans (f : PwrSt → PwrSt) (s : State) : (updPwr f s).chans = s.chans := rfl
@[simp] theorem updPwr_slices (f : PwrSt → PwrSt) (s : State) : (updPwr f s).slices = s.slices := rfl
@[simp] theorem updPwr_cal (f : PwrSt → PwrSt) (s : State) : (updPwr f s).cal = s.cal := rfl
@[simp] theorem updPwr_pwr (f : PwrSt → PwrSt) (s : State) : (updPwr f s).pwr = f s.pwr := rfl
@[simp] theorem updPwr_thm (f : PwrSt → PwrSt) (s : State) : (updPwr f s).thm = s.thm := rfl
@[simp] theorem updPwr_snt (f : PwrSt → PwrSt) (s : State) : (updPwr f s).snt = s.snt := rfl
@[simp] theorem updPwr_fum (f : PwrSt → PwrSt) (s : State) : (updPwr f s).fum = s.fum := rfl
@[simp] theorem updPwr_boot (f : PwrSt → PwrSt) (s : State) : (updPwr f s).boot = s.boot := rfl
@[simp] theorem updPwr_sdio (f : PwrSt → PwrSt) (s : State) : (updPwr f s).sdio = s.sdio := rfl
@[simp] theorem rd_updPwr (f : PwrSt → PwrSt) (s : State) (pg : PageKey) (off : Nat) : rd (updPwr f s) pg off = rd s pg off := rfl

/-! ## updThm -/

@[simp] theorem updThm_pending (f : ThmSt → ThmSt) (s : State) : (updThm f s).pending = s.pending := rfl
@[simp] theorem updThm_now (f : ThmSt → ThmSt) (s : State) : (updThm f s).now = s.now := rfl
@[simp] theorem updThm_us (f : ThmSt → ThmSt) (s : State) : (updThm f s).us = s.us := rfl
@[simp] theorem updThm_usPhase (f : ThmSt → ThmSt) (s : State) : (updThm f s).usPhase = s.usPhase := rfl
@[simp] theorem updThm_freeCtr (f : ThmSt → ThmSt) (s : State) : (updThm f s).freeCtr = s.freeCtr := rfl
@[simp] theorem updThm_regs (f : ThmSt → ThmSt) (s : State) : (updThm f s).regs = s.regs := rfl
@[simp] theorem updThm_mem (f : ThmSt → ThmSt) (s : State) : (updThm f s).mem = s.mem := rfl
@[simp] theorem updThm_staged (f : ThmSt → ThmSt) (s : State) : (updThm f s).staged = s.staged := rfl
@[simp] theorem updThm_shadow (f : ThmSt → ThmSt) (s : State) : (updThm f s).shadow = s.shadow := rfl
@[simp] theorem updThm_groups (f : ThmSt → ThmSt) (s : State) : (updThm f s).groups = s.groups := rfl
@[simp] theorem updThm_commits (f : ThmSt → ThmSt) (s : State) : (updThm f s).commits = s.commits := rfl
@[simp] theorem updThm_softPend (f : ThmSt → ThmSt) (s : State) : (updThm f s).softPend = s.softPend := rfl
@[simp] theorem updThm_links (f : ThmSt → ThmSt) (s : State) : (updThm f s).links = s.links := rfl
@[simp] theorem updThm_outstanding (f : ThmSt → ThmSt) (s : State) : (updThm f s).outstanding = s.outstanding := rfl
@[simp] theorem updThm_nextReq (f : ThmSt → ThmSt) (s : State) : (updThm f s).nextReq = s.nextReq := rfl
@[simp] theorem updThm_completed (f : ThmSt → ThmSt) (s : State) : (updThm f s).completed = s.completed := rfl
@[simp] theorem updThm_fumIn (f : ThmSt → ThmSt) (s : State) : (updThm f s).fumIn = s.fumIn := rfl
@[simp] theorem updThm_wakeQ (f : ThmSt → ThmSt) (s : State) : (updThm f s).wakeQ = s.wakeQ := rfl
@[simp] theorem updThm_tiles (f : ThmSt → ThmSt) (s : State) : (updThm f s).tiles = s.tiles := rfl
@[simp] theorem updThm_heldDone (f : ThmSt → ThmSt) (s : State) : (updThm f s).heldDone = s.heldDone := rfl
@[simp] theorem updThm_remoteSteps (f : ThmSt → ThmSt) (s : State) : (updThm f s).remoteSteps = s.remoteSteps := rfl
@[simp] theorem updThm_barriers (f : ThmSt → ThmSt) (s : State) : (updThm f s).barriers = s.barriers := rfl
@[simp] theorem updThm_barrierSeen (f : ThmSt → ThmSt) (s : State) : (updThm f s).barrierSeen = s.barrierSeen := rfl
@[simp] theorem updThm_evidenceIn (f : ThmSt → ThmSt) (s : State) : (updThm f s).evidenceIn = s.evidenceIn := rfl
@[simp] theorem updThm_memCfg (f : ThmSt → ThmSt) (s : State) : (updThm f s).memCfg = s.memCfg := rfl
@[simp] theorem updThm_hubs (f : ThmSt → ThmSt) (s : State) : (updThm f s).hubs = s.hubs := rfl
@[simp] theorem updThm_subs (f : ThmSt → ThmSt) (s : State) : (updThm f s).subs = s.subs := rfl
@[simp] theorem updThm_devs (f : ThmSt → ThmSt) (s : State) : (updThm f s).devs = s.devs := rfl
@[simp] theorem updThm_retained (f : ThmSt → ThmSt) (s : State) : (updThm f s).retained = s.retained := rfl
@[simp] theorem updThm_trained (f : ThmSt → ThmSt) (s : State) : (updThm f s).trained = s.trained := rfl
@[simp] theorem updThm_jobs (f : ThmSt → ThmSt) (s : State) : (updThm f s).jobs = s.jobs := rfl
@[simp] theorem updThm_partCnt (f : ThmSt → ThmSt) (s : State) : (updThm f s).partCnt = s.partCnt := rfl
@[simp] theorem updThm_nextJid (f : ThmSt → ThmSt) (s : State) : (updThm f s).nextJid = s.nextJid := rfl
@[simp] theorem updThm_nextRel (f : ThmSt → ThmSt) (s : State) : (updThm f s).nextRel = s.nextRel := rfl
@[simp] theorem updThm_submits (f : ThmSt → ThmSt) (s : State) : (updThm f s).submits = s.submits := rfl
@[simp] theorem updThm_saved (f : ThmSt → ThmSt) (s : State) : (updThm f s).saved = s.saved := rfl
@[simp] theorem updThm_ctxRun (f : ThmSt → ThmSt) (s : State) : (updThm f s).ctxRun = s.ctxRun := rfl
@[simp] theorem updThm_window (f : ThmSt → ThmSt) (s : State) : (updThm f s).window = s.window := rfl
@[simp] theorem updThm_winNo (f : ThmSt → ThmSt) (s : State) : (updThm f s).winNo = s.winNo := rfl
@[simp] theorem updThm_cpl (f : ThmSt → ThmSt) (s : State) : (updThm f s).cpl = s.cpl := rfl
@[simp] theorem updThm_rings (f : ThmSt → ThmSt) (s : State) : (updThm f s).rings = s.rings := rfl
@[simp] theorem updThm_cams (f : ThmSt → ThmSt) (s : State) : (updThm f s).cams = s.cams := rfl
@[simp] theorem updThm_chans (f : ThmSt → ThmSt) (s : State) : (updThm f s).chans = s.chans := rfl
@[simp] theorem updThm_slices (f : ThmSt → ThmSt) (s : State) : (updThm f s).slices = s.slices := rfl
@[simp] theorem updThm_cal (f : ThmSt → ThmSt) (s : State) : (updThm f s).cal = s.cal := rfl
@[simp] theorem updThm_pwr (f : ThmSt → ThmSt) (s : State) : (updThm f s).pwr = s.pwr := rfl
@[simp] theorem updThm_thm (f : ThmSt → ThmSt) (s : State) : (updThm f s).thm = f s.thm := rfl
@[simp] theorem updThm_snt (f : ThmSt → ThmSt) (s : State) : (updThm f s).snt = s.snt := rfl
@[simp] theorem updThm_fum (f : ThmSt → ThmSt) (s : State) : (updThm f s).fum = s.fum := rfl
@[simp] theorem updThm_boot (f : ThmSt → ThmSt) (s : State) : (updThm f s).boot = s.boot := rfl
@[simp] theorem updThm_sdio (f : ThmSt → ThmSt) (s : State) : (updThm f s).sdio = s.sdio := rfl
@[simp] theorem rd_updThm (f : ThmSt → ThmSt) (s : State) (pg : PageKey) (off : Nat) : rd (updThm f s) pg off = rd s pg off := rfl

/-! ## updFum -/

@[simp] theorem updFum_pending (f : FumSt → FumSt) (s : State) : (updFum f s).pending = s.pending := rfl
@[simp] theorem updFum_now (f : FumSt → FumSt) (s : State) : (updFum f s).now = s.now := rfl
@[simp] theorem updFum_us (f : FumSt → FumSt) (s : State) : (updFum f s).us = s.us := rfl
@[simp] theorem updFum_usPhase (f : FumSt → FumSt) (s : State) : (updFum f s).usPhase = s.usPhase := rfl
@[simp] theorem updFum_freeCtr (f : FumSt → FumSt) (s : State) : (updFum f s).freeCtr = s.freeCtr := rfl
@[simp] theorem updFum_regs (f : FumSt → FumSt) (s : State) : (updFum f s).regs = s.regs := rfl
@[simp] theorem updFum_mem (f : FumSt → FumSt) (s : State) : (updFum f s).mem = s.mem := rfl
@[simp] theorem updFum_staged (f : FumSt → FumSt) (s : State) : (updFum f s).staged = s.staged := rfl
@[simp] theorem updFum_shadow (f : FumSt → FumSt) (s : State) : (updFum f s).shadow = s.shadow := rfl
@[simp] theorem updFum_groups (f : FumSt → FumSt) (s : State) : (updFum f s).groups = s.groups := rfl
@[simp] theorem updFum_commits (f : FumSt → FumSt) (s : State) : (updFum f s).commits = s.commits := rfl
@[simp] theorem updFum_softPend (f : FumSt → FumSt) (s : State) : (updFum f s).softPend = s.softPend := rfl
@[simp] theorem updFum_links (f : FumSt → FumSt) (s : State) : (updFum f s).links = s.links := rfl
@[simp] theorem updFum_outstanding (f : FumSt → FumSt) (s : State) : (updFum f s).outstanding = s.outstanding := rfl
@[simp] theorem updFum_nextReq (f : FumSt → FumSt) (s : State) : (updFum f s).nextReq = s.nextReq := rfl
@[simp] theorem updFum_completed (f : FumSt → FumSt) (s : State) : (updFum f s).completed = s.completed := rfl
@[simp] theorem updFum_fumIn (f : FumSt → FumSt) (s : State) : (updFum f s).fumIn = s.fumIn := rfl
@[simp] theorem updFum_wakeQ (f : FumSt → FumSt) (s : State) : (updFum f s).wakeQ = s.wakeQ := rfl
@[simp] theorem updFum_tiles (f : FumSt → FumSt) (s : State) : (updFum f s).tiles = s.tiles := rfl
@[simp] theorem updFum_heldDone (f : FumSt → FumSt) (s : State) : (updFum f s).heldDone = s.heldDone := rfl
@[simp] theorem updFum_remoteSteps (f : FumSt → FumSt) (s : State) : (updFum f s).remoteSteps = s.remoteSteps := rfl
@[simp] theorem updFum_barriers (f : FumSt → FumSt) (s : State) : (updFum f s).barriers = s.barriers := rfl
@[simp] theorem updFum_barrierSeen (f : FumSt → FumSt) (s : State) : (updFum f s).barrierSeen = s.barrierSeen := rfl
@[simp] theorem updFum_evidenceIn (f : FumSt → FumSt) (s : State) : (updFum f s).evidenceIn = s.evidenceIn := rfl
@[simp] theorem updFum_memCfg (f : FumSt → FumSt) (s : State) : (updFum f s).memCfg = s.memCfg := rfl
@[simp] theorem updFum_hubs (f : FumSt → FumSt) (s : State) : (updFum f s).hubs = s.hubs := rfl
@[simp] theorem updFum_subs (f : FumSt → FumSt) (s : State) : (updFum f s).subs = s.subs := rfl
@[simp] theorem updFum_devs (f : FumSt → FumSt) (s : State) : (updFum f s).devs = s.devs := rfl
@[simp] theorem updFum_retained (f : FumSt → FumSt) (s : State) : (updFum f s).retained = s.retained := rfl
@[simp] theorem updFum_trained (f : FumSt → FumSt) (s : State) : (updFum f s).trained = s.trained := rfl
@[simp] theorem updFum_jobs (f : FumSt → FumSt) (s : State) : (updFum f s).jobs = s.jobs := rfl
@[simp] theorem updFum_partCnt (f : FumSt → FumSt) (s : State) : (updFum f s).partCnt = s.partCnt := rfl
@[simp] theorem updFum_nextJid (f : FumSt → FumSt) (s : State) : (updFum f s).nextJid = s.nextJid := rfl
@[simp] theorem updFum_nextRel (f : FumSt → FumSt) (s : State) : (updFum f s).nextRel = s.nextRel := rfl
@[simp] theorem updFum_submits (f : FumSt → FumSt) (s : State) : (updFum f s).submits = s.submits := rfl
@[simp] theorem updFum_saved (f : FumSt → FumSt) (s : State) : (updFum f s).saved = s.saved := rfl
@[simp] theorem updFum_ctxRun (f : FumSt → FumSt) (s : State) : (updFum f s).ctxRun = s.ctxRun := rfl
@[simp] theorem updFum_window (f : FumSt → FumSt) (s : State) : (updFum f s).window = s.window := rfl
@[simp] theorem updFum_winNo (f : FumSt → FumSt) (s : State) : (updFum f s).winNo = s.winNo := rfl
@[simp] theorem updFum_cpl (f : FumSt → FumSt) (s : State) : (updFum f s).cpl = s.cpl := rfl
@[simp] theorem updFum_rings (f : FumSt → FumSt) (s : State) : (updFum f s).rings = s.rings := rfl
@[simp] theorem updFum_cams (f : FumSt → FumSt) (s : State) : (updFum f s).cams = s.cams := rfl
@[simp] theorem updFum_chans (f : FumSt → FumSt) (s : State) : (updFum f s).chans = s.chans := rfl
@[simp] theorem updFum_slices (f : FumSt → FumSt) (s : State) : (updFum f s).slices = s.slices := rfl
@[simp] theorem updFum_cal (f : FumSt → FumSt) (s : State) : (updFum f s).cal = s.cal := rfl
@[simp] theorem updFum_pwr (f : FumSt → FumSt) (s : State) : (updFum f s).pwr = s.pwr := rfl
@[simp] theorem updFum_thm (f : FumSt → FumSt) (s : State) : (updFum f s).thm = s.thm := rfl
@[simp] theorem updFum_snt (f : FumSt → FumSt) (s : State) : (updFum f s).snt = s.snt := rfl
@[simp] theorem updFum_fum (f : FumSt → FumSt) (s : State) : (updFum f s).fum = f s.fum := rfl
@[simp] theorem updFum_boot (f : FumSt → FumSt) (s : State) : (updFum f s).boot = s.boot := rfl
@[simp] theorem updFum_sdio (f : FumSt → FumSt) (s : State) : (updFum f s).sdio = s.sdio := rfl
@[simp] theorem rd_updFum (f : FumSt → FumSt) (s : State) (pg : PageKey) (off : Nat) : rd (updFum f s) pg off = rd s pg off := rfl

/-! ## updSnt -/

@[simp] theorem updSnt_pending (f : SinterSt → SinterSt) (s : State) : (updSnt f s).pending = s.pending := rfl
@[simp] theorem updSnt_now (f : SinterSt → SinterSt) (s : State) : (updSnt f s).now = s.now := rfl
@[simp] theorem updSnt_us (f : SinterSt → SinterSt) (s : State) : (updSnt f s).us = s.us := rfl
@[simp] theorem updSnt_usPhase (f : SinterSt → SinterSt) (s : State) : (updSnt f s).usPhase = s.usPhase := rfl
@[simp] theorem updSnt_freeCtr (f : SinterSt → SinterSt) (s : State) : (updSnt f s).freeCtr = s.freeCtr := rfl
@[simp] theorem updSnt_regs (f : SinterSt → SinterSt) (s : State) : (updSnt f s).regs = s.regs := rfl
@[simp] theorem updSnt_mem (f : SinterSt → SinterSt) (s : State) : (updSnt f s).mem = s.mem := rfl
@[simp] theorem updSnt_staged (f : SinterSt → SinterSt) (s : State) : (updSnt f s).staged = s.staged := rfl
@[simp] theorem updSnt_shadow (f : SinterSt → SinterSt) (s : State) : (updSnt f s).shadow = s.shadow := rfl
@[simp] theorem updSnt_groups (f : SinterSt → SinterSt) (s : State) : (updSnt f s).groups = s.groups := rfl
@[simp] theorem updSnt_commits (f : SinterSt → SinterSt) (s : State) : (updSnt f s).commits = s.commits := rfl
@[simp] theorem updSnt_softPend (f : SinterSt → SinterSt) (s : State) : (updSnt f s).softPend = s.softPend := rfl
@[simp] theorem updSnt_links (f : SinterSt → SinterSt) (s : State) : (updSnt f s).links = s.links := rfl
@[simp] theorem updSnt_outstanding (f : SinterSt → SinterSt) (s : State) : (updSnt f s).outstanding = s.outstanding := rfl
@[simp] theorem updSnt_nextReq (f : SinterSt → SinterSt) (s : State) : (updSnt f s).nextReq = s.nextReq := rfl
@[simp] theorem updSnt_completed (f : SinterSt → SinterSt) (s : State) : (updSnt f s).completed = s.completed := rfl
@[simp] theorem updSnt_fumIn (f : SinterSt → SinterSt) (s : State) : (updSnt f s).fumIn = s.fumIn := rfl
@[simp] theorem updSnt_wakeQ (f : SinterSt → SinterSt) (s : State) : (updSnt f s).wakeQ = s.wakeQ := rfl
@[simp] theorem updSnt_tiles (f : SinterSt → SinterSt) (s : State) : (updSnt f s).tiles = s.tiles := rfl
@[simp] theorem updSnt_heldDone (f : SinterSt → SinterSt) (s : State) : (updSnt f s).heldDone = s.heldDone := rfl
@[simp] theorem updSnt_remoteSteps (f : SinterSt → SinterSt) (s : State) : (updSnt f s).remoteSteps = s.remoteSteps := rfl
@[simp] theorem updSnt_barriers (f : SinterSt → SinterSt) (s : State) : (updSnt f s).barriers = s.barriers := rfl
@[simp] theorem updSnt_barrierSeen (f : SinterSt → SinterSt) (s : State) : (updSnt f s).barrierSeen = s.barrierSeen := rfl
@[simp] theorem updSnt_evidenceIn (f : SinterSt → SinterSt) (s : State) : (updSnt f s).evidenceIn = s.evidenceIn := rfl
@[simp] theorem updSnt_memCfg (f : SinterSt → SinterSt) (s : State) : (updSnt f s).memCfg = s.memCfg := rfl
@[simp] theorem updSnt_hubs (f : SinterSt → SinterSt) (s : State) : (updSnt f s).hubs = s.hubs := rfl
@[simp] theorem updSnt_subs (f : SinterSt → SinterSt) (s : State) : (updSnt f s).subs = s.subs := rfl
@[simp] theorem updSnt_devs (f : SinterSt → SinterSt) (s : State) : (updSnt f s).devs = s.devs := rfl
@[simp] theorem updSnt_retained (f : SinterSt → SinterSt) (s : State) : (updSnt f s).retained = s.retained := rfl
@[simp] theorem updSnt_trained (f : SinterSt → SinterSt) (s : State) : (updSnt f s).trained = s.trained := rfl
@[simp] theorem updSnt_jobs (f : SinterSt → SinterSt) (s : State) : (updSnt f s).jobs = s.jobs := rfl
@[simp] theorem updSnt_partCnt (f : SinterSt → SinterSt) (s : State) : (updSnt f s).partCnt = s.partCnt := rfl
@[simp] theorem updSnt_nextJid (f : SinterSt → SinterSt) (s : State) : (updSnt f s).nextJid = s.nextJid := rfl
@[simp] theorem updSnt_nextRel (f : SinterSt → SinterSt) (s : State) : (updSnt f s).nextRel = s.nextRel := rfl
@[simp] theorem updSnt_submits (f : SinterSt → SinterSt) (s : State) : (updSnt f s).submits = s.submits := rfl
@[simp] theorem updSnt_saved (f : SinterSt → SinterSt) (s : State) : (updSnt f s).saved = s.saved := rfl
@[simp] theorem updSnt_ctxRun (f : SinterSt → SinterSt) (s : State) : (updSnt f s).ctxRun = s.ctxRun := rfl
@[simp] theorem updSnt_window (f : SinterSt → SinterSt) (s : State) : (updSnt f s).window = s.window := rfl
@[simp] theorem updSnt_winNo (f : SinterSt → SinterSt) (s : State) : (updSnt f s).winNo = s.winNo := rfl
@[simp] theorem updSnt_cpl (f : SinterSt → SinterSt) (s : State) : (updSnt f s).cpl = s.cpl := rfl
@[simp] theorem updSnt_rings (f : SinterSt → SinterSt) (s : State) : (updSnt f s).rings = s.rings := rfl
@[simp] theorem updSnt_cams (f : SinterSt → SinterSt) (s : State) : (updSnt f s).cams = s.cams := rfl
@[simp] theorem updSnt_chans (f : SinterSt → SinterSt) (s : State) : (updSnt f s).chans = s.chans := rfl
@[simp] theorem updSnt_slices (f : SinterSt → SinterSt) (s : State) : (updSnt f s).slices = s.slices := rfl
@[simp] theorem updSnt_cal (f : SinterSt → SinterSt) (s : State) : (updSnt f s).cal = s.cal := rfl
@[simp] theorem updSnt_pwr (f : SinterSt → SinterSt) (s : State) : (updSnt f s).pwr = s.pwr := rfl
@[simp] theorem updSnt_thm (f : SinterSt → SinterSt) (s : State) : (updSnt f s).thm = s.thm := rfl
@[simp] theorem updSnt_snt (f : SinterSt → SinterSt) (s : State) : (updSnt f s).snt = f s.snt := rfl
@[simp] theorem updSnt_fum (f : SinterSt → SinterSt) (s : State) : (updSnt f s).fum = s.fum := rfl
@[simp] theorem updSnt_boot (f : SinterSt → SinterSt) (s : State) : (updSnt f s).boot = s.boot := rfl
@[simp] theorem updSnt_sdio (f : SinterSt → SinterSt) (s : State) : (updSnt f s).sdio = s.sdio := rfl
@[simp] theorem rd_updSnt (f : SinterSt → SinterSt) (s : State) (pg : PageKey) (off : Nat) : rd (updSnt f s) pg off = rd s pg off := rfl

/-! ## updBoot -/

@[simp] theorem updBoot_pending (f : BootSt → BootSt) (s : State) : (updBoot f s).pending = s.pending := rfl
@[simp] theorem updBoot_now (f : BootSt → BootSt) (s : State) : (updBoot f s).now = s.now := rfl
@[simp] theorem updBoot_us (f : BootSt → BootSt) (s : State) : (updBoot f s).us = s.us := rfl
@[simp] theorem updBoot_usPhase (f : BootSt → BootSt) (s : State) : (updBoot f s).usPhase = s.usPhase := rfl
@[simp] theorem updBoot_freeCtr (f : BootSt → BootSt) (s : State) : (updBoot f s).freeCtr = s.freeCtr := rfl
@[simp] theorem updBoot_regs (f : BootSt → BootSt) (s : State) : (updBoot f s).regs = s.regs := rfl
@[simp] theorem updBoot_mem (f : BootSt → BootSt) (s : State) : (updBoot f s).mem = s.mem := rfl
@[simp] theorem updBoot_staged (f : BootSt → BootSt) (s : State) : (updBoot f s).staged = s.staged := rfl
@[simp] theorem updBoot_shadow (f : BootSt → BootSt) (s : State) : (updBoot f s).shadow = s.shadow := rfl
@[simp] theorem updBoot_groups (f : BootSt → BootSt) (s : State) : (updBoot f s).groups = s.groups := rfl
@[simp] theorem updBoot_commits (f : BootSt → BootSt) (s : State) : (updBoot f s).commits = s.commits := rfl
@[simp] theorem updBoot_softPend (f : BootSt → BootSt) (s : State) : (updBoot f s).softPend = s.softPend := rfl
@[simp] theorem updBoot_links (f : BootSt → BootSt) (s : State) : (updBoot f s).links = s.links := rfl
@[simp] theorem updBoot_outstanding (f : BootSt → BootSt) (s : State) : (updBoot f s).outstanding = s.outstanding := rfl
@[simp] theorem updBoot_nextReq (f : BootSt → BootSt) (s : State) : (updBoot f s).nextReq = s.nextReq := rfl
@[simp] theorem updBoot_completed (f : BootSt → BootSt) (s : State) : (updBoot f s).completed = s.completed := rfl
@[simp] theorem updBoot_fumIn (f : BootSt → BootSt) (s : State) : (updBoot f s).fumIn = s.fumIn := rfl
@[simp] theorem updBoot_wakeQ (f : BootSt → BootSt) (s : State) : (updBoot f s).wakeQ = s.wakeQ := rfl
@[simp] theorem updBoot_tiles (f : BootSt → BootSt) (s : State) : (updBoot f s).tiles = s.tiles := rfl
@[simp] theorem updBoot_heldDone (f : BootSt → BootSt) (s : State) : (updBoot f s).heldDone = s.heldDone := rfl
@[simp] theorem updBoot_remoteSteps (f : BootSt → BootSt) (s : State) : (updBoot f s).remoteSteps = s.remoteSteps := rfl
@[simp] theorem updBoot_barriers (f : BootSt → BootSt) (s : State) : (updBoot f s).barriers = s.barriers := rfl
@[simp] theorem updBoot_barrierSeen (f : BootSt → BootSt) (s : State) : (updBoot f s).barrierSeen = s.barrierSeen := rfl
@[simp] theorem updBoot_evidenceIn (f : BootSt → BootSt) (s : State) : (updBoot f s).evidenceIn = s.evidenceIn := rfl
@[simp] theorem updBoot_memCfg (f : BootSt → BootSt) (s : State) : (updBoot f s).memCfg = s.memCfg := rfl
@[simp] theorem updBoot_hubs (f : BootSt → BootSt) (s : State) : (updBoot f s).hubs = s.hubs := rfl
@[simp] theorem updBoot_subs (f : BootSt → BootSt) (s : State) : (updBoot f s).subs = s.subs := rfl
@[simp] theorem updBoot_devs (f : BootSt → BootSt) (s : State) : (updBoot f s).devs = s.devs := rfl
@[simp] theorem updBoot_retained (f : BootSt → BootSt) (s : State) : (updBoot f s).retained = s.retained := rfl
@[simp] theorem updBoot_trained (f : BootSt → BootSt) (s : State) : (updBoot f s).trained = s.trained := rfl
@[simp] theorem updBoot_jobs (f : BootSt → BootSt) (s : State) : (updBoot f s).jobs = s.jobs := rfl
@[simp] theorem updBoot_partCnt (f : BootSt → BootSt) (s : State) : (updBoot f s).partCnt = s.partCnt := rfl
@[simp] theorem updBoot_nextJid (f : BootSt → BootSt) (s : State) : (updBoot f s).nextJid = s.nextJid := rfl
@[simp] theorem updBoot_nextRel (f : BootSt → BootSt) (s : State) : (updBoot f s).nextRel = s.nextRel := rfl
@[simp] theorem updBoot_submits (f : BootSt → BootSt) (s : State) : (updBoot f s).submits = s.submits := rfl
@[simp] theorem updBoot_saved (f : BootSt → BootSt) (s : State) : (updBoot f s).saved = s.saved := rfl
@[simp] theorem updBoot_ctxRun (f : BootSt → BootSt) (s : State) : (updBoot f s).ctxRun = s.ctxRun := rfl
@[simp] theorem updBoot_window (f : BootSt → BootSt) (s : State) : (updBoot f s).window = s.window := rfl
@[simp] theorem updBoot_winNo (f : BootSt → BootSt) (s : State) : (updBoot f s).winNo = s.winNo := rfl
@[simp] theorem updBoot_cpl (f : BootSt → BootSt) (s : State) : (updBoot f s).cpl = s.cpl := rfl
@[simp] theorem updBoot_rings (f : BootSt → BootSt) (s : State) : (updBoot f s).rings = s.rings := rfl
@[simp] theorem updBoot_cams (f : BootSt → BootSt) (s : State) : (updBoot f s).cams = s.cams := rfl
@[simp] theorem updBoot_chans (f : BootSt → BootSt) (s : State) : (updBoot f s).chans = s.chans := rfl
@[simp] theorem updBoot_slices (f : BootSt → BootSt) (s : State) : (updBoot f s).slices = s.slices := rfl
@[simp] theorem updBoot_cal (f : BootSt → BootSt) (s : State) : (updBoot f s).cal = s.cal := rfl
@[simp] theorem updBoot_pwr (f : BootSt → BootSt) (s : State) : (updBoot f s).pwr = s.pwr := rfl
@[simp] theorem updBoot_thm (f : BootSt → BootSt) (s : State) : (updBoot f s).thm = s.thm := rfl
@[simp] theorem updBoot_snt (f : BootSt → BootSt) (s : State) : (updBoot f s).snt = s.snt := rfl
@[simp] theorem updBoot_fum (f : BootSt → BootSt) (s : State) : (updBoot f s).fum = s.fum := rfl
@[simp] theorem updBoot_boot (f : BootSt → BootSt) (s : State) : (updBoot f s).boot = f s.boot := rfl
@[simp] theorem updBoot_sdio (f : BootSt → BootSt) (s : State) : (updBoot f s).sdio = s.sdio := rfl
@[simp] theorem rd_updBoot (f : BootSt → BootSt) (s : State) (pg : PageKey) (off : Nat) : rd (updBoot f s) pg off = rd s pg off := rfl

end Sys2Proof.Machine
end

