-- ==== Sys2Proof/Laws/Registers.lean ====
section
/-! SUPPORT. Registers: what a read of a word or of a field gives after a write. -/

namespace Sys2Proof.Machine

/-! ## Words -/

theorem canonKey_of_kind (pg : PageKey) (off : Nat) (h : pg.kind ≠ .hub) : canonKey pg off = ⟨pg, off⟩ := by
  simp [canonKey, h]

theorem canonKey_of_low (pg : PageKey) (off : Nat) (h : off < 0x800) : canonKey pg off = ⟨pg, off⟩ := by
  rw [canonKey, if_neg (by omega)]

@[simp] theorem canonKey_off (pg : PageKey) (off : Nat) : (canonKey pg off).off = off := by
  unfold canonKey; split <;> rfl

theorem canonKey_pg_eq (pg pg' : PageKey) (off off' : Nat) (h : canonKey pg off = canonKey pg' off') : off = off' := by
  rw [← canonKey_off pg off, h, canonKey_off]

@[simp] theorem rd_wr_same (s : State) (pg : PageKey) (off : Nat) (w : Word) : rd (wr pg off w s) pg off = w := by
  simp [rd]

theorem rd_wr (s : State) (pg pg' : PageKey) (off off' : Nat) (w : Word) :
    rd (wr pg off w s) pg' off' = if canonKey pg' off' = canonKey pg off then w else rd s pg' off' := by
  simp [rd, Tab.get_put]

/-- A write of one register leaves every other one. -/
theorem rd_wr_other (s : State) (pg pg' : PageKey) (off off' : Nat) (w : Word) (h : canonKey pg' off' ≠ canonKey pg off) :
    rd (wr pg off w s) pg' off' = rd s pg' off' := by
  simp [rd_wr, h]

@[simp] theorem rd_wr_off (s : State) (pg pg' : PageKey) (off off' : Nat) (w : Word) (h : off' ≠ off) :
    rd (wr pg off w s) pg' off' = rd s pg' off' :=
  rd_wr_other s pg pg' off off' w (fun e => h (canonKey_pg_eq _ _ _ _ e))

theorem rd_wr_kind (s : State) (pg pg' : PageKey) (off off' : Nat) (w : Word) (h : pg'.kind ≠ pg.kind) :
    rd (wr pg off w s) pg' off' = rd s pg' off' := by
  apply rd_wr_other
  intro e
  apply h
  have := congrArg (fun k => k.pg.kind) e
  unfold canonKey at this
  split at this <;> split at this <;> simp_all

/-! ## Fields -/

@[simp] theorem fget_fset_same (s : State) (pg : PageKey) (f : Fld) (v : Nat) (h : f.lo + f.width ≤ 32) :
    fget (fset pg f v s) pg f = v % 2 ^ f.width := by
  simp [fget, fset, Fld.get_put_same, h]

theorem fget_fset_disjoint (s : State) (pg : PageKey) (f g : Fld) (v : Nat) (hf : f.lo + f.width ≤ 32)
    (h : g.lo + g.width ≤ f.lo ∨ f.lo + f.width ≤ g.lo) (ho : g.off = f.off) : fget (fset pg f v s) pg g = fget s pg g := by
  rw [fget, fset, ho, rd_wr_same, Fld.get_put_disjoint f g _ _ hf h, fget, ho]

theorem fget_fset_key (s : State) (pg pg' : PageKey) (f g : Fld) (v : Nat) (h : canonKey pg' g.off ≠ canonKey pg f.off) :
    fget (fset pg f v s) pg' g = fget s pg' g := by
  rw [fget, fset, rd_wr_other _ _ _ _ _ _ h, fget]

theorem fget_fset_kind (s : State) (pg pg' : PageKey) (f g : Fld) (v : Nat) (h : pg'.kind ≠ pg.kind) :
    fget (fset pg f v s) pg' g = fget s pg' g := by
  rw [fget, fset, rd_wr_kind _ _ _ _ _ _ h, fget]

theorem fget_lt (s : State) (pg : PageKey) (f : Fld) : fget s pg f < 2 ^ f.width := f.get_lt _

theorem rd_fset_key (s : State) (pg pg' : PageKey) (f : Fld) (v off : Nat) (h : canonKey pg' off ≠ canonKey pg f.off) :
    rd (fset pg f v s) pg' off = rd s pg' off := rd_wr_other _ _ _ _ _ _ h

@[simp] theorem rd_fset_off (s : State) (pg pg' : PageKey) (f : Fld) (v off : Nat) (h : off ≠ f.off) :
    rd (fset pg f v s) pg' off = rd s pg' off := rd_wr_off _ _ _ _ _ _ h

theorem fset_eq_wr (s : State) (pg : PageKey) (f : Fld) (v : Nat) :
    ∃ w, fset pg f v s = wr pg f.off w s := ⟨_, rfl⟩

/-! ## Interrupts and faults (R41 to R43) -/

theorem rd_raise (s : State) (pg : PageKey) (b : Word) : rd (raise pg b s) pg 0x010 = rd s pg 0x010 ||| b := by
  simp [raise]

theorem rd_setIrq (s : State) (pg : PageKey) (i : Nat) : rd (setIrq pg i s) pg 0x010 = rd s pg 0x010 ||| oneBit i :=
  rd_raise s pg (oneBit i)

@[simp] theorem rd_setIrq_off (s : State) (pg pg' : PageKey) (i off : Nat) (h : off ≠ 0x010) :
    rd (setIrq pg i s) pg' off = rd s pg' off := rd_wr_off _ _ _ _ _ _ h

@[simp] theorem fget_sendFum (code : Nat) (src : PageKey) (d0 d1 d2 d3 : Word) (s : State) (pg : PageKey) (f : Fld) :
    fget (sendFum code src d0 d1 d2 d3 s) pg f = fget s pg f := rfl

@[simp] theorem fget_setIrq_off (s : State) (pg pg' : PageKey) (i : Nat) (f : Fld) (h : f.off ≠ 0x010) :
    fget (setIrq pg i s) pg' f = fget s pg' f := by
  rw [fget, rd_setIrq_off _ _ _ _ _ h, fget]

/-- A fault on a page whose FAULT is clear shows its class and detail, and IRQ_RAW bit 0. -/
theorem fault_first (s : State) (pg : PageKey) (cls det : Nat) (h : fget s pg Fl.faultClass = 0) :
    fget (recordFault pg cls det s) pg Fl.faultClass = cls % 256 ∧ fget (recordFault pg cls det s) pg Fl.faultDetail = det % 256
      ∧ rd (recordFault pg cls det s) pg 0x010 = rd s pg 0x010 ||| oneBit 0 := by
  have h3 : (0x010 : Nat) ≠ (Fl.faultClass).off := by decide
  have h4 : (0x010 : Nat) ≠ (Fl.faultDetail).off := by decide
  simp only [recordFault, faultData, latchFault, h, if_true, fget_sendFum, rd_sendFum, rd_setIrq]
  rw [fget_setIrq_off _ _ _ _ _ (by decide), fget_setIrq_off _ _ _ _ _ (by decide),
    fget_fset_same _ pg Fl.faultClass _ (by decide),
    fget_fset_disjoint _ pg Fl.faultClass Fl.faultDetail _ (by decide) (by decide) rfl,
    fget_fset_same _ pg Fl.faultDetail _ (by decide), rd_fset_off _ _ _ _ _ _ h3, rd_fset_off _ _ _ _ _ _ h4]
  exact ⟨rfl, rfl, rfl⟩

/-- Recording a fault writes FAULT and IRQ_RAW of its page and no other register. -/
theorem rd_recordFault_other (s : State) (pg pg' : PageKey) (cls det off : Nat) (h1 : off ≠ 0x010) (h2 : off ≠ 0x01C) :
    rd (recordFault pg cls det s) pg' off = rd s pg' off := by
  have h3 : (Fl.faultClass).off = 0x01C := rfl
  have h4 : (Fl.faultDetail).off = 0x01C := rfl
  have h5 : (Fl.faultMore).off = 0x01C := rfl
  simp only [recordFault, faultData, latchFault]
  rw [rd_sendFum, rd_setIrq_off _ _ _ _ _ h1]
  split
  · rw [rd_fset_off _ _ _ _ _ _ (by rw [h3]; exact h2), rd_fset_off _ _ _ _ _ _ (by rw [h4]; exact h2)]
  · rw [rd_fset_off _ _ _ _ _ _ (by rw [h5]; exact h2)]

end Sys2Proof.Machine
end

