-- ==== Sys2Proof/Laws/Frames.lean ====
section
/-! SUPPORT. What an accepted write does, and what stays as it was where only registers change. -/

namespace Sys2Proof.Machine

open Sys2Proof.Safety

theorem guardedWord_accepted {s : State} {who : Requester} {pg : PageKey} {off : Nat} {v : Word} (act : State → State)
    (h : Accepted s who pg off v) : guardedWord who pg off v act s = act s := by
  unfold guardedWord
  rw [h.exists', h.allowed]
  by_cases ho : 0x100 ≤ off
  · simp [h.powered ho]
  · simp [ho]

theorem guarded_accepted {s : State} {who : Requester} {pg : PageKey} {off : Nat} (act : State → State)
    (h : Accepted s who pg off 0) : guarded who pg off act s = act s := guardedWord_accepted act h

theorem unlocked_of {s : State} {pg : PageKey} (act : State → State) (h : fget s pg Fl.lockCfg = 0) : unlocked pg act s = act s := by
  simp [unlocked, fon, h]

theorem guardedWord_refused {s : State} {who : Requester} {pg : PageKey} {off d : Nat} {v : Word} (act : State → State)
    (he : pageExists pg = true) (h : writeRefusal s who pg off v = some d) : guardedWord who pg off v act s = refuseReq who 5 d s := by
  unfold guardedWord
  rw [he, h]
  rfl

end Sys2Proof.Machine

namespace Sys2Proof.Safety.OnlyRegs

open Sys2Proof.Machine

theorem refl (ks : List RegKey) (s : State) : OnlyRegs ks s s := ⟨rfl, fun _ _ _ => rfl⟩

theorem wr {ks : List RegKey} {s t : State} (h : OnlyRegs ks s t) (pg : PageKey) (off : Nat) (w : Word) (hk : canonKey pg off ∈ ks) :
    OnlyRegs ks s (wr pg off w t) := by
  refine ⟨?_, fun pg' off' h' => ?_⟩
  · rw [h.rest]; rfl
  · rw [rd_wr_other t pg pg' off off' w (fun e => h' (by rw [e]; exact hk)), h.regs _ _ h']

theorem fset {ks : List RegKey} {s t : State} (h : OnlyRegs ks s t) (pg : PageKey) (f : Fld) (v : Nat) (hk : canonKey pg f.off ∈ ks) :
    OnlyRegs ks s (fset pg f v t) := wr h _ _ _ hk

theorem trans {ks : List RegKey} {s t u : State} (h : OnlyRegs ks s t) (h' : OnlyRegs ks t u) : OnlyRegs ks s u := by
  refine ⟨?_, fun pg off hk => (h'.regs pg off hk).trans (h.regs pg off hk)⟩
  rw [h'.rest, h.rest]

theorem mono {ks ks' : List RegKey} {s t : State} (h : OnlyRegs ks s t) (hk : ∀ k, k ∈ ks → k ∈ ks') : OnlyRegs ks' s t :=
  ⟨h.rest, fun pg off hn => h.regs pg off (fun hm => hn (hk _ hm))⟩

/-- A field of a page outside the changed registers reads as before. -/
theorem fget {ks : List RegKey} {s t : State} (h : OnlyRegs ks s t) (pg : PageKey) (f : Fld) (hk : canonKey pg f.off ∉ ks) :
    fget t pg f = fget s pg f := by
  rw [Machine.fget, h.regs _ _ hk, Machine.fget]

end Sys2Proof.Safety.OnlyRegs
end

