-- ==== Sys2Proof/Laws/Memory.lean ====
section
/-! SUPPORT. Memory: a read after a write, and that every operation keeps the canonical form. -/

namespace Sys2Proof.Machine

/-! ## Reading a byte after a write -/

theorem memGet_below (lo : Nat) (m : List Host.Cell) (x : Nat) (h : memWfFrom lo m = true) (hx : x < lo) : memGet m x = 0 := by
  cases m with
  | nil => rfl
  | cons c r =>
    obtain ⟨a, b⟩ := c
    simp [memWfFrom] at h
    simp [memGet]; omega

theorem memGet_memSet (m : List Host.Cell) (x y : Nat) (v : Byte) (lo : Nat) (h : memWfFrom lo m = true) :
    memGet (memSet m x v) y = if y = x then v else memGet m y := by
  induction m generalizing lo with
  | nil =>
    by_cases hv : v = 0#8 <;> by_cases hy : y = x <;> simp [memSet, memGet, hv, hy]
  | cons c r ih =>
    obtain ⟨a, b⟩ := c
    have hw := h
    simp only [memWfFrom, Bool.and_eq_true, decide_eq_true_eq] at h
    obtain ⟨⟨ha, hb⟩, hr⟩ := h
    have hlow := fun z hz => memGet_below (a + 1) r z hr hz
    simp only [memSet]
    by_cases h1 : x < a
    · by_cases hv : v = 0#8
      · by_cases hy : y = x
        · subst hy; simp [h1, hv, memGet]
        · simp [h1, hv, hy]
      · by_cases hy : y = x
        · subst hy; simp [h1, hv, memGet]
        · by_cases hlt : y < x
          · simp [h1, hv, hy, memGet, hlt, show y < a by omega]
          · simp [h1, hv, hy, memGet, hlt]
    · by_cases h2 : x = a
      · subst h2
        by_cases hv : v = 0#8
        · by_cases hy : y = x
          · subst hy; simp [hv, hlow y (by omega)]
          · by_cases hlt : y < x
            · simp [hv, hy, memGet, hlt, hlow y (by omega)]
            · simp [hv, hy, memGet, hlt]
        · by_cases hy : y = x
          · subst hy; simp [hv, memGet]
          · simp [hv, hy, memGet]
      · simp [h1, h2, memGet, ih (a + 1) hr]
        by_cases hy : y = x
        · subst hy; simp [h1, h2]
        · simp [hy]

/-- A byte reads back what was written there, and every other byte what it read before. -/
theorem memGet_memSet_wf (m : List Host.Cell) (x y : Nat) (v : Byte) (h : Memory.wf m = true) :
    memGet (memSet m x v) y = if y = x then v else memGet m y := memGet_memSet m x y v 0 h

/-! ## The canonical form -/

theorem memWfFrom_mono (lo hi : Nat) (m : List Host.Cell) (h : memWfFrom hi m = true) (hl : lo ≤ hi) : memWfFrom lo m = true := by
  cases m with
  | nil => rfl
  | cons c r =>
    obtain ⟨a, b⟩ := c
    simp only [memWfFrom, Bool.and_eq_true, decide_eq_true_eq] at h ⊢
    exact ⟨⟨by omega, h.1.2⟩, h.2⟩

theorem memWfFrom_memSet (m : List Host.Cell) (x lo : Nat) (v : Byte) (h : memWfFrom lo m = true) (hx : lo ≤ x) :
    memWfFrom lo (memSet m x v) = true := by
  induction m generalizing lo with
  | nil => by_cases hv : v = 0#8 <;> simp [memSet, memWfFrom, hv, hx]
  | cons c r ih =>
    obtain ⟨a, b⟩ := c
    simp only [memWfFrom, Bool.and_eq_true, decide_eq_true_eq] at h
    obtain ⟨⟨ha, hb⟩, hr⟩ := h
    simp only [memSet]
    by_cases h1 : x < a
    · by_cases hv : v = 0#8
      · simp_all [memWfFrom]
      · simp_all [memWfFrom] <;> omega
    · by_cases h2 : x = a
      · by_cases hv : v = 0#8
        · simp_all [memWfFrom]; exact memWfFrom_mono lo (a + 1) r hr (by omega)
        · simp_all [memWfFrom]
      · simp only [h1, h2, if_false]
        simp only [memWfFrom, Bool.and_eq_true, decide_eq_true_eq]
        exact ⟨⟨ha, hb⟩, ih (a + 1) hr (by omega)⟩

@[simp] theorem memSet_wf (m : List Host.Cell) (x : Nat) (v : Byte) (h : Memory.wf m = true) : Memory.wf (memSet m x v) = true :=
  memWfFrom_memSet m x 0 v h (Nat.zero_le _)

@[simp] theorem memWrite_wf (m : List Host.Cell) (a : Nat) (l : List Byte) (h : Memory.wf m = true) : Memory.wf (memWrite m a l) = true := by
  induction l generalizing m a with
  | nil => exact h
  | cons b r ih => exact ih _ _ (memSet_wf m a b h)

theorem memWfFrom_filter (p : Host.Cell → Bool) (m : List Host.Cell) (lo : Nat) (h : memWfFrom lo m = true) :
    memWfFrom lo (m.filter p) = true := by
  induction m generalizing lo with
  | nil => rfl
  | cons c r ih =>
    obtain ⟨a, b⟩ := c
    simp only [memWfFrom, Bool.and_eq_true, decide_eq_true_eq] at h
    obtain ⟨⟨ha, hb⟩, hr⟩ := h
    by_cases hp : p (a, b) = true
    · simp only [List.filter_cons, hp, if_true, memWfFrom, Bool.and_eq_true, decide_eq_true_eq]
      exact ⟨⟨ha, hb⟩, ih (a + 1) hr⟩
    · simp only [List.filter_cons, hp]
      exact memWfFrom_mono lo (a + 1) _ (ih (a + 1) hr) (by omega)

@[simp] theorem memZero_wf (m : List Host.Cell) (lo hi : Nat) (h : Memory.wf m = true) : Memory.wf (memZero m lo hi) = true :=
  memWfFrom_filter _ m 0 h

theorem reset_mem_wf : Memory.wf State.reset.mem = true := rfl

/-! ## Strings of bytes -/

@[simp] theorem memRead_length (m : List Host.Cell) (a n : Nat) : (memRead m a n).length = n := by
  induction n generalizing a with
  | zero => rfl
  | succ n ih => simp [memRead, ih]

theorem memGet_memWrite_other (m : List Host.Cell) (a y : Nat) (l : List Byte) (h : Memory.wf m = true)
    (hy : y < a ∨ a + l.length ≤ y) : memGet (memWrite m a l) y = memGet m y := by
  induction l generalizing m a with
  | nil => rfl
  | cons b r ih =>
    simp only [List.length_cons] at hy
    rw [memWrite, ih _ _ (memSet_wf m a b h) (by omega), memGet_memSet_wf _ _ _ _ h, if_neg (by omega)]

/-- A string of bytes reads back as it was written. -/
theorem memRead_memWrite_same (m : List Host.Cell) (a : Nat) (l : List Byte) (h : Memory.wf m = true) :
    memRead (memWrite m a l) a l.length = l := by
  induction l generalizing m a with
  | nil => rfl
  | cons b r ih =>
    have hb : memGet (memWrite m a (b :: r)) a = b := by
      rw [memWrite, memGet_memWrite_other _ _ _ _ (memSet_wf m a b h) (by omega), memGet_memSet_wf _ _ _ _ h, if_pos rfl]
    rw [List.length_cons, memRead, hb]
    rw [memWrite, ih _ _ (memSet_wf m a b h)]

theorem memGet_filter (p : Host.Cell → Bool) (q : Nat → Bool) (hpq : ∀ a b, p (a, b) = q a) (m : List Host.Cell) (lo y : Nat)
    (h : memWfFrom lo m = true) : memGet (m.filter p) y = if q y then memGet m y else 0 := by
  induction m generalizing lo with
  | nil => simp [memGet]
  | cons c r ih =>
    obtain ⟨a, b⟩ := c
    simp only [memWfFrom, Bool.and_eq_true, decide_eq_true_eq] at h
    obtain ⟨⟨ha, hb⟩, hr⟩ := h
    have hlow := memGet_below (a + 1) r y hr
    have ih := ih (a + 1) hr
    rcases Nat.lt_trichotomy y a with hy | hy | hy
    · have h0 : memGet r y = 0 := hlow (by omega)
      cases hq : q a <;> simp [hpq, hq, memGet, hy, ih, h0]
    · subst hy
      have h0 : memGet r y = 0 := hlow (by omega)
      cases hq : q y <;> simp [hpq, hq, memGet, ih, h0]
    · have h1 : ¬ y < a := by omega
      have h2 : ¬ y = a := by omega
      cases hq : q a <;> simp [hpq, hq, memGet, h1, h2, ih]

/-- Zeroed bytes read 0, and every other byte what it read before. -/
theorem memGet_memZero (m : List Host.Cell) (lo hi y : Nat) (h : Memory.wf m = true) :
    memGet (memZero m lo hi) y = if lo ≤ y ∧ y < hi then 0 else memGet m y := by
  rw [memZero, memGet_filter _ (fun a => !(decide (lo ≤ a) && decide (a < hi))) (fun _ _ => rfl) m 0 y h]
  by_cases h1 : lo ≤ y ∧ y < hi
  · simp [h1]
  · rw [if_neg h1, if_pos]; simp; omega

end Sys2Proof.Machine
end

