-- ==== Sys2Proof/Tests/Slice0.lean ====
section
/-! SUPPORT. Tests: for each statement that has hypotheses, states and operands that meet them, clause by clause; one
ill-formed command for each check of well-formedness; and a few single steps whose results are worked out from the spec. -/

namespace Sys2Proof.Tests

open Sys2Proof Sys2Proof.Machine Sys2Proof.Safety

/-! ## States to test in -/

/-- A state with some fields of its registers set. -/
def st (l : List (PageKey × Fld × Nat)) (s : State := {}) : State := l.foldl (fun s e => fset e.1 e.2.1 e.2.2 s) s

/-- The firmware cores acting for PART0. -/
def fw0 : Requester := .fw 0 false

/-- Every domain is on. -/
def on : PageKey × Fld × Nat := (pgPwr, Fl.pwrDomStatOn, 2 ^ 26 - 1)

/-- Tile 0 with its pages ON, sixteen descriptors, and the first banks of its scratchpad owned by the four engines. -/
def tOn (x : Tile) (l : List (PageKey × Fld × Nat) := []) : State :=
  st (on :: [pgTile 0, pgSeq 0, pgLane 0, pgVec 0, pgSpad 0, pgStrm 0 0, pgStrm 0 1].map (fun pg => (pg, Fl.state, 2)) ++
    [(pgPart 0, Fl.partDescCntCount, 16), (pgTile 0, Fl.tileBankOwn0Owners, 0xFFF43210)] ++ l) { tiles := [(0, x)] }

/-- A descriptor of one element in tile 0's scratchpad, by offset and type. -/
def dsc (off ty : Nat) : List Word :=
  [BitVec.ofNat 32 off, BitVec.ofNat 32 (0x80000210 + ty * 0x400000), 0, 0, 0, 0, 0, 0, 0, 0, 0, 0xFFFF, 0, 0, 0, 0]

/-- A command with its four words, numbered 7. -/
def cmd (w0 w1 w2 w3 : Word) : QEntry := { w0 := w0, w1 := w1, w2 := w2, w3 := w3, num := 7 }

/-- A lane run of INT8 rows. -/
def laneRun (rows next : Nat) : LaneRun :=
  ⟨7, 1, false, 1, 1, 1, 1, rows, next, next, 0, 63, true, false, 0, 0, 32, 32, 1, none, 0, 32, 1, none, 0, [], [], []⟩

/-- A vector run of INT8 rows with function 5. -/
def vecRunOf (rows next : Nat) : VecRun := ⟨7, 5, rows, next, false, 0, 0, 0, 1, none, 0, 1, none, 0x10000, 1, none, 0, 0, 0, 0, dsc 0 1, [], dsc 0x10000 1, []⟩

/-- Tile 0's sequencer runs and issues next the word `w` at 0. -/
def sq (w : Nat) (x : Tile := {}) (l : List (PageKey × Fld × Nat) := []) : State :=
  tOn x ([(pgSeq 0, Fl.seqStatusState, 1), (pgSeq 0, ⟨0x20000, 0, 32⟩, w)] ++ l)

/-- Every link is UP, RETRAIN or whatever `v` says, with every domain on. -/
def links (v : Nat) (l : List (PageKey × Fld × Nat) := []) (s : State := {}) : State :=
  st (on :: (List.range 6).map (fun k => (pgHub 0, Fl.hubLinkStatState k, v)) ++ l) s

/-- Subchannel 0 of hub A is in service. -/
def ddrOn (l : List (PageKey × Fld × Nat) := []) (s : State := {}) : State := st (on :: (pgDdr 0 0, Fl.state, 2) :: l) s

/-- A read or write of line 0 of DDR for PART0, waiting at its subchannel. -/
def hreq (write reading : Bool) : HubReq := ⟨none, fw0, 0, false, 0, write, 0, 64, [], true, reading, false, false, 0, none⟩

/-- The operands of a stream channel. -/
def ops : ChanOps := ⟨1, 2, 0, false, []⟩

/-- A side of a stream command in tile 0's own scratchpad. -/
def side : Opd := ⟨dsc 0 1, 0, true, 0, 1, none, false, false⟩

/-- A descriptor of a slot ring's element. -/
def dslot : List Word := [0, 0x80400300, 0, 0, 0, 0, 0, 0, 0, 0, 0, 0xFFFF, 0, 0, 0, 0]

/-- A job of PART0 on tile 0, with a deadline of 100 cycles for its mark 2. -/
def jr (stage : JobStage) (words : List Word := []) : JobRun :=
  { jid := 5, part := 0, words := words, marks := [⟨2, 100⟩], stage := stage, tiles := [0], start := 100 }

/-- The firmware runs. -/
def fwOn (l : List (PageKey × Fld × Nat)) (s : State := {}) : State := st (on :: l) { s with boot := { s.boot with running := true } }

/-- Caldera is ON and runs; PART0 is its partition. -/
def calSt (l : List (PageKey × Fld × Nat)) (x : CalSt) (s : State := {}) : State :=
  fwOn ([(pgCal, Fl.state, 2), (pgCal, Fl.calStatusMode, 2), (pgPart 0, Fl.partCfgSafety, 1)] ++ l) { s with cal := x }

/-- PART0 has counted `n` cycles. -/
def counted (n : Nat) (s : State := {}) : State := { s with partCnt := [(0, some n)] }

/-- A message or a header of these words. -/
def msg (w : List Nat) : List Byte := w.flatMap (leBytes 4)

/-- A header in the format of R477. -/
def okHeader : List Byte := msg [0x57465A4F, 1, 1, 0, 0, 0, 0]

/-- DDR can be reached and is in service. -/
def ddrAll (l : List (PageKey × Fld × Nat)) (s : State := {}) : State :=
  links 2 (l ++ (List.range 8).map (fun k => (⟨.hubDdr, k⟩, Fl.state, 2))) { s with boot := { s.boot with running := true } }

/-- A message waits for the firmware at a port. -/
def said (p : PartId) (m : List Byte) (s : State := {}) : State := { s with sdio := [(p, { toFw := [m] })] }

/-- A record. -/
def fr (code : Nat) : FumRec := ⟨code, 0, 0, 0, 0, 1, 2, 3, 4⟩

/-! ## The hypotheses' parts as equations -/

theorem accepted_iff {s : State} {who : Requester} {pg : PageKey} {off : Nat} {v : Word} : Accepted s who pg off v ↔
    (pageExists pg = true ∧ writeRefusal s who pg off v = none ∧ (0x100 ≤ off → pagePowered s pg = true)) :=
  ⟨fun h => ⟨h.1, h.2, h.3⟩, fun h => ⟨h.1, h.2.1, h.2.2⟩⟩

/-- The verdict is ready with these descriptors. -/
def isReady (ds : List (Option (List Word))) : Verdict → Bool
  | .ready l => decide (l = ds)
  | _ => false

theorem atHead_iff {s : State} {t : TileId} {q : Engine} {op : Nat} {e : QEntry} {ds : List (Option (List Word))} :
    AtHead s t q op e ds ↔ (mayDispatch s t q = true ∧ headEntry (queue s t q) = some e ∧ opcodeOf e = op ∧ opAccepted op q = true ∧
      isReady ds (checkHead s t q e) = true) := by
  refine ⟨fun h => ⟨h.1, h.2, h.3, h.4, by rw [h.5]; simp [isReady]⟩, fun h => ⟨h.1, h.2.1, h.2.2.1, h.2.2.2.1, ?_⟩⟩
  have h5 := h.2.2.2.2
  cases hc : checkHead s t q e <;> simp_all [isReady]

theorem issues_iff {s : State} {t : TileId} {op pc : Nat} {w : Word} : Issues s t op pc w ↔
    (seqRuns s t = true ∧ fget s (pgTile t) Fl.tileRunHalted = 0 ∧ (tile s t).fenceWait = [] ∧ (tile s t).nextPc = pc ∧
      imemWord s t pc = w ∧ sf w 28 4 = op ∧ (within 0xB 0xE op = true ∨ w.toNat &&& seqFieldMask op = w.toNat) ∧ pc < 4096) :=
  ⟨fun h => ⟨h.1, h.2, h.3, h.4, h.5, h.6, h.7, h.8⟩,
    fun h => ⟨h.1, h.2.1, h.2.2.1, h.2.2.2.1, h.2.2.2.2.1, h.2.2.2.2.2.1, h.2.2.2.2.2.2.1, h.2.2.2.2.2.2.2⟩⟩

theorem inSpad_iff {ds : List (Option (List Word))} : InSpad ds ↔ ((∀ o ∈ ds, o.all (fun d => decide (dLoc d = 2)) = true) ∧ spadAlloc ds = false) := by
  refine and_congr_left fun _ => ⟨fun h o ho => ?_, fun h d hd => by simpa using h _ hd⟩
  cases o with
  | none => rfl
  | some d => simpa using h d ho

theorem takes_iff {s : State} {e : SharedEng} {c : Chan} {w : WorkEnt} {rest : List WorkEnt} : TakesEntry s e c w rest ↔
    ((engChan s e c).queue = w :: rest ∧ w.src ≠ some (.chan e c) ∧ chanServed s e c = true ∧
      ringGet s (.chan e c) 12 16 1 = 1 ∧ 0 < ringFree (ringSt (ringSync (.chan e c) s) (.chan e c)) ∧
      (ringSt (ringSync (.chan e c) s) (.chan e c)).closing = false ∧
      ∀ m ∈ (ringSt (ringSync (.chan e c) s) (.chan e c)).samples, m.seq ≠ (ringSt (ringSync (.chan e c) s) (.chan e c)).seq) :=
  ⟨fun h => ⟨h.1, h.2, h.3, h.4, h.5, h.6, h.7⟩,
    fun h => ⟨h.1, h.2.1, h.2.2.1, h.2.2.2.1, h.2.2.2.2.1, h.2.2.2.2.2.1, h.2.2.2.2.2.2⟩⟩

/-- The slot step need not wait. -/
def goes : SlotWait → Bool
  | .waits _ => false
  | _ => true

theorem slotFree_iff {s : State} {t : TileId} {g : StrmId} {num : Nat} {d : List Word} {write : Bool} :
    SlotFree s t g num d write ↔ goes (slotWait s t g num d write) = true := by
  unfold SlotFree
  cases slotWait s t g num d write <;> simp [goes]

theorem moveReady_iff {s : State} {t : TileId} {g : StrmId} {op : Nat} {tn : Turn} {c : QEntry} {src dst : List Word}
    {sd : Option (List Word)} : MoveReady s t g op tn c src dst sd ↔
    (readsLeft (tile s t) g = false ∧ AtHead s t (strmEng g) op c [some src, some dst] ∧
      sd = (if cf c 2 0 8 = 0xFF then none else some (sdescWords s t g (cf c 2 0 8))) ∧ regionCheck s t g c src dst sd tn = none ∧
      strmRoom s false (opd s t src false none (ofsBytes (cf c 3 0 16)))
        (outOpd (opd s t src false none (ofsBytes (cf c 3 0 16))) (opd s t dst true none (ofsBytes (cf c 3 16 16))))
        (moveMap s t (opd s t src false none (ofsBytes (cf c 3 0 16)))
          (outOpd (opd s t src false none (ofsBytes (cf c 3 0 16))) (opd s t dst true none (ofsBytes (cf c 3 16 16))))
          (regOf src sd) tn (16 * cf c 3 0 16)) = none ∧
      (dLoc src = 3 → effTile s src ≠ t → dAdpCnt src = 0)) :=
  ⟨fun h => ⟨h.1, h.2, h.3, h.4, h.5, h.6⟩, fun h => ⟨h.1, h.2.1, h.2.2.1, h.2.2.2.1, h.2.2.2.2.1, h.2.2.2.2.2⟩⟩

theorem none_some {α : Type} {x : Option α} {P : α → Prop} (h : x.isNone = true) : ∀ r, x = some r → P r := by
  cases x <;> simp_all

theorem in_ddr {s : State} {who : Requester} {a b : Nat} (h : a < b + 1146880) (e : b = 0) (c : 1146880 ≤ ddrCapacity s) :
    ∃ (k : HubId) (x : Sub), regionOf s who a = .ddr k x :=
  ⟨_, _, by unfold regionOf; rw [if_pos (by omega), if_pos (by omega)]⟩

/-! ## Each statement's hypotheses are met

One conjunct for each set of hypotheses of a statement, at a boundary value where it has one. Where the hypotheses speak of
what the spec leaves open (a supply that the board chooses, a threshold of its memory devices, a digest and a signature), the theorem takes that as its own. -/

theorem witness_StepRunsFrontCommand :
    (∃ (c : Instr) (r : List Instr) (s : State), s.pending = c :: r) ∧
    (∃ (s : State), s.pending = []) :=
  ⟨⟨.alert, [], { pending := [.alert] }, by decide⟩,
   ⟨{}, by decide⟩⟩

theorem witness_StepKeepsMemoryForm :
    ∃ (s : State) (t : State), Memory.wf s.mem = true ∧ step s = Host.Outcome.next t :=
  ⟨{ mem := [(0, 1)] }, idle { mem := [(0, 1)] }, ⟨by decide, rfl⟩⟩

theorem witness_StepKeepsSinter :
    ∃ (s : State) (t : State), step s = Host.Outcome.next t :=
  ⟨{ pending := [.alert] }, doAlert {}, rfl⟩

theorem witness_PageStateTable :
    ∃ (who : Requester) (pg : PageKey) (s : State),
        Accepted s who pg 8 0 ∧ fixedOn pg = false ∧ followsTile pg = false ∧ pg.kind ≠ PageKind.cam ∧ fget s pgPwr Fl.pwrIdleState ≠ 1 :=
  ⟨fw0, pgTile 95, {}, by simp only [accepted_iff]; decide⟩

theorem witness_PageTransitionsEnd :
    (∃ (pg : PageKey) (s : State),
        ownTurn pg = true ∧
        pg.kind ≠ PageKind.hubDdr ∧ pg.kind ≠ PageKind.cal ∧ s.softPend.contains pg = false ∧ pagePowered s pg = true ∧ fget s pg Fl.state = 1) ∧
    (∃ (pg : PageKey) (s : State),
        ownTurn pg = true ∧
        pg.kind ≠ PageKind.hubDdr ∧
        pg.kind ≠ PageKind.cal ∧ s.softPend.contains pg = false ∧ (fget s pg Fl.state = 3 ∨ fget s pg Fl.state = 4) ∧ offReady s pg = true) :=
  ⟨⟨pgEng .warp, st [on, (pgEng .warp, Fl.state, 1)], by decide⟩,
   ⟨pgEng .warp, st [(pgEng .warp, Fl.state, 4)], by decide⟩⟩

theorem witness_SoftResetOfAPage :
    (∃ (who : Requester) (pg : PageKey) (s : State), Accepted s who pg 8 0 ∧ fget s pgPwr Fl.pwrIdleState ≠ 1 ∧ inTransition s pg = false) ∧
    (∃ (who : Requester) (pg : PageKey) (s : State), Accepted s who pg 8 0 ∧ fget s pgPwr Fl.pwrIdleState ≠ 1 ∧ inTransition s pg = true) :=
  ⟨⟨fw0, pgLane 0, {}, by simp only [accepted_iff]; decide⟩,
   ⟨fw0, pgLane 0, st [(pgLane 0, Fl.state, 3)], by simp only [accepted_iff]; decide⟩⟩

theorem witness_HeaderBitsSoftwareWrites :
    (∃ (who : Requester) (pg : PageKey) (s : State), fget s pgPwr Fl.pwrIdleState ≠ 1 ∧ Accepted s who pg 24 0) ∧
    (∃ (who : Requester) (pg : PageKey) (s : State), fget s pgPwr Fl.pwrIdleState ≠ 1 ∧ Accepted s who pg 28 0) ∧
    (∃ (who : Requester) (pg : PageKey) (s : State), fget s pgPwr Fl.pwrIdleState ≠ 1 ∧ Accepted s who pg 44 1) ∧
    (∃ (who : Requester) (pg : PageKey) (s : State), fget s pgPwr Fl.pwrIdleState ≠ 1 ∧ Accepted s who pg 44 2) :=
  ⟨⟨fw0, pgThm, {}, by simp only [accepted_iff]; decide⟩,
   ⟨fw0, pgThm, {}, by simp only [accepted_iff]; decide⟩,
   ⟨fw0, pgThm, {}, by simp only [accepted_iff]; decide⟩,
   ⟨fw0, pgThm, {}, by simp only [accepted_iff]; decide⟩⟩

theorem witness_OwnerWriteNamesTheOwner :
    (∃ (who : Requester) (pg : PageKey) (s : State), Accepted s who pg 40 0 ∧ fget s pgPwr Fl.pwrIdleState ≠ 1 ∧ fget s pg Fl.lockOwn = 0) ∧
    (∃ (who : Requester) (pg : PageKey) (s : State), Accepted s who pg 40 0 ∧ fget s pgPwr Fl.pwrIdleState ≠ 1 ∧ fget s pg Fl.lockOwn = 1) :=
  ⟨⟨fw0, pgCam 11, {}, by simp only [accepted_iff]; decide⟩,
   ⟨fw0, pgCam 11, st [(pgCam 11, Fl.lockOwn, 1)], by simp only [accepted_iff]; decide⟩⟩

theorem witness_RefusedWriteChangesNothing :
    (∃ (who : Requester) (pg : PageKey) (d : Nat) (s : State), pageExists pg = true ∧ fget s pgPwr Fl.pwrIdleState ≠ 1 ∧ writeRefusal s who pg 8 0 = some d) ∧
    (∃ (who : Requester) (pg : PageKey) (off : Nat) (s : State), Accepted s who pg off 0 ∧ fget s pgPwr Fl.pwrIdleState ≠ 1 ∧ fget s pg Fl.lockCfg = 1) ∧
    (∃ (pg : PageKey) (off : Nat) (width : Nat), pageExists pg = true ∧ (width ≠ 32 ∨ off % 4 ≠ 0)) :=
  ⟨⟨.fw 3 false, pgSec, 4, {}, by decide⟩,
   ⟨fw0, pgClk, 0x10C, st [(pgClk, Fl.lockCfg, 1)], by simp only [accepted_iff]; decide⟩,
   ⟨pgTile 0, 0x401, 32, by decide⟩⟩

theorem witness_RegisterWriteStoresByAccessType :
    (∃ (who : Requester) (pg : PageKey) (v : Word) (s : State) (off : Nat),
        fget s pgPwr Fl.pwrIdleState ≠ 1 ∧
        Accepted s who pg off v ∧
        256 ≤ off ∧
        off % 4 = 0 ∧
        off < 65536 ∧
        plainReg s pg off = true ∧
        rwMask pg off ≠ 0 ∧ txMask pg off = 0 ∧ shMask pg off = 0 ∧ w1cMask pg off = 0 ∧ fget s pg Fl.lockCfg = 0) ∧
    (∃ (who : Requester) (pg : PageKey) (v : Word) (s : State), fget s pgPwr Fl.pwrIdleState ≠ 1 ∧ Accepted s who pg 20 v) :=
  ⟨⟨fw0, pgSpad 95, 0xFFFFFFFF, st [on], 0x170, by simp only [accepted_iff]; decide⟩,
   ⟨fw0, pgClk, 7, {}, by simp only [accepted_iff]; decide⟩⟩

theorem witness_TxnOpenAndAbort :
    (∃ (who : Requester) (pg : PageKey) (v : Word) (s : State),
        Accepted s who pg 32 0 ∧
        fget s pgPwr Fl.pwrIdleState ≠ 1 ∧
        groupOf s pg = none ∧
        eventOk s (reqPart s who) (bitsOf (BitVec.toNat v) 8 3) (bitsOf (BitVec.toNat v) 12 4) = true ∧
        groupAt s (reqPart s who) ⟨bitsOf (BitVec.toNat v) 4 4, Nat.mod_lt _ (by decide)⟩ = none) ∧
    (∃ (who : Requester) (pg : PageKey) (v : Word) (s : State) (g : Group),
        Accepted s who pg 32 0 ∧
        fget s pgPwr Fl.pwrIdleState ≠ 1 ∧
        groupOf s pg = none ∧
        eventOk s (reqPart s who) (bitsOf (BitVec.toNat v) 8 3) (bitsOf (BitVec.toNat v) 12 4) = true ∧
        groupAt s (reqPart s who) ⟨bitsOf (BitVec.toNat v) 4 4, Nat.mod_lt _ (by decide)⟩ = some g ∧
        g.event = bitsOf (BitVec.toNat v) 8 3 ∧ g.arg = bitsOf (BitVec.toNat v) 12 4 ∧ g.reopen = (BitVec.toNat v).testBit 16) ∧
    (∃ (who : Requester) (pg : PageKey) (s : State) (g : Group), Accepted s who pg 32 0 ∧ fget s pgPwr Fl.pwrIdleState ≠ 1 ∧ groupOf s pg = some g) ∧
    (∃ (who : Requester) (pg : PageKey) (s : State), Accepted s who pg 32 0 ∧ fget s pgPwr Fl.pwrIdleState ≠ 1 ∧ groupOf s pg = none) :=
  ⟨⟨fw0, pgClk, 0xF1, {}, by simp only [accepted_iff]; decide⟩,
   ⟨fw0, pgClk, 0xF1, { groups := [⟨0, 15, 0, 0, false, [pgPwr]⟩] }, ⟨0, 15, 0, 0, false, [pgPwr]⟩, by simp only [accepted_iff]; decide⟩,
   ⟨fw0, pgClk, { groups := [⟨0, 15, 0, 0, true, [pgClk]⟩] }, ⟨0, 15, 0, 0, true, [pgClk]⟩, by simp only [accepted_iff]; decide⟩,
   ⟨fw0, pgClk, {}, by simp only [accepted_iff]; decide⟩⟩

theorem witness_StagedValuesWaitForTheCommit :
    (∃ (who : Requester) (pg : PageKey) (off : Nat) (s : State) (g : Group),
        Accepted s who pg off 0 ∧
        fget s pgPwr Fl.pwrIdleState ≠ 1 ∧
        fget s pg Fl.lockCfg = 0 ∧
        ¬(pg.kind = PageKind.seq ∧ 131072 ≤ off) ∧
        groupOf s pg = some g ∧
        (stagedOf s pg).length < 64 ∧ (List.filter (fun (x : Staged) => g.members.contains x.pg) s.staged).length < 256) ∧
    (∃ (who : Requester) (pg : PageKey) (off : Nat) (s : State),
        Accepted s who pg off 0 ∧
        fget s pgPwr Fl.pwrIdleState ≠ 1 ∧
        fget s pg Fl.lockCfg = 0 ∧ ¬(pg.kind = PageKind.seq ∧ 131072 ≤ off) ∧ groupOf s pg = none ∧ pg.kind ∈ storeKinds) ∧
    (∃ (who : Requester) (n : Port) (pg : PageKey) (off : Nat) (s : State),
        Accepted s who pg off 0 ∧
        pg ∈ camPages n ∧
        (List.filter (fun (x : Staged) => decide (x.pg = pg)) s.shadow).length < 64 ∧
        (List.filter (fun (x : Staged) => (camPages n).contains x.pg) s.shadow).length < 256) :=
  ⟨⟨fw0, pgClk, 0x10C, { groups := [⟨0, 15, 0, 0, true, [pgClk]⟩] }, ⟨0, 15, 0, 0, true, [pgClk]⟩, by simp only [accepted_iff]; decide⟩,
   ⟨fw0, pgIsp 11, 0x100, st [on], by simp only [accepted_iff]; decide⟩,
   ⟨fw0, 11, pgIsp 11, 0x100, st [on], by simp only [accepted_iff]; decide⟩⟩

theorem witness_CommitAppliesTheStagedValues :
    (∃ (who : Requester) (pg : PageKey) (g : Group) (s : State), Accepted s who pg 32 0 ∧ fget s pgPwr Fl.pwrIdleState ≠ 1 ∧ groupOf s pg = some g ∧ g.event = 0) ∧
    (∃ (d : Die) (r : CommitRun) (pages : List PageKey) (vals : List Staged) (more : List (Die × List PageKey × List Staged)) (rest : List CommitRun) (s : State),
        s.commits = r :: rest ∧
        r.waiting = (d, pages, vals) :: more ∧
        pages ≠ [] ∧
        pages.Nodup ∧
        (∀ (w : Die × List PageKey × List Staged), w ∈ more → w.fst ≠ d ∧ w.snd.fst ≠ []) ∧
        r.shadow = false ∧
        (∀ (m : PageKey), m ∈ pages → m.kind ≠ PageKind.part) ∧
        ∀ (m : PageKey),
        m ∈ pages → ¬(r.jobEnd = true ∧ m.kind = PageKind.scale ∧ (tile s (tileOf m.inst)).frameStep = true)) :=
  ⟨⟨fw0, pgCam 0, ⟨0, 0, 0, 0, false, [pgCam 0]⟩, st [on] { groups := [⟨0, 0, 0, 0, false, [pgCam 0]⟩] }, by simp only [accepted_iff]; decide⟩,
   ⟨.xd, ⟨[pgCam 0], [(.xd, [pgCam 0], [⟨pgCam 0, 0x100, 3, 7⟩])], false, false, false, false⟩, [pgCam 0], [⟨pgCam 0, 0x100, 3, 7⟩], [], [], { commits := [⟨[pgCam 0], [(.xd, [pgCam 0], [⟨pgCam 0, 0x100, 3, 7⟩])], false, false, false, false⟩] }, by decide⟩⟩

theorem witness_ClearBitsZeroTheirRegisters :
    (∃ (who : Requester) (t : TileId) (e : StrmId) (h : HubId) (d : Sys2Proof.Sub) (n : Port) (p : PartId) (s : State) (c : Clear), c ∈ clears who t e h d n p ∧ Accepted s who c.pg c.off 0) ∧
    (∃ (who : Requester) (t : TileId) (s : State), Accepted s who (pgStats t) 280 0) ∧
    (∃ (who : Requester) (s : State) (h : HubId), Accepted s who (pgLlc h) 308 0) ∧
    (∃ (who : Requester) (s : State), Accepted s who pgCal 452 0) ∧
    (∃ (who : Requester) (t : TileId) (s : State), Accepted s who (pgTile t) 1104 0) ∧
    (∃ (who : Requester) (t : TileId) (s : State), Accepted s who (pgSeq t) 272 0) ∧
    (∃ (who : Requester) (s : State), Accepted s who pgFum 256 0) ∧
    (∃ (who : Requester) (s : State), Accepted s who pgXcore 272 0) ∧
    (∃ (who : Requester) (t : TileId) (s : State) (k : Fin 16) (v : Word),
        Accepted s who (pgStats t) (Fl.statsWhCfgBase ↑k).off 0 ∧ fget s (pgStats t) Fl.lockCfg = 0 ∧ BitVec.getLsbD v 31 = false) :=
  ⟨⟨fw0, 95, 1, 1, 7, 11, 0, st [on], ⟨.sdioCntClr fw0 0, pgSdio 0, 0x134, [0x130]⟩, ⟨by simp [clears], by simp only [accepted_iff]; decide⟩⟩,
   ⟨fw0, 95, st [on], by simp only [accepted_iff]; decide⟩,
   ⟨fw0, st [on], 1, by simp only [accepted_iff]; decide⟩,
   ⟨fw0, st [on], by simp only [accepted_iff]; decide⟩,
   ⟨fw0, 95, st [on], by simp only [accepted_iff]; decide⟩,
   ⟨fw0, 95, st [on], by simp only [accepted_iff]; decide⟩,
   ⟨fw0, {}, by simp only [accepted_iff]; decide⟩,
   ⟨fw0, st [on], by simp only [accepted_iff]; decide⟩,
   ⟨fw0, 95, st [on], 15, 0x7FFFFFFF, by simp only [accepted_iff]; decide⟩⟩

theorem witness_LoadwFillsTheShadowPlane :
    (∃ (t : TileId) (s : State) (e : QEntry) (d : List Word) (fmt : Nat),
        (tile s t).loads.length < 2 ∧
        AtHead s t Engine.lane 1 e [some d] ∧
        loadwBad s t [some d] d (cf e 3 0 16 * 16) = none ∧
        planeFmt (dType d) = some fmt ∧
        slotCheck s t [(d, decide (cf e 0 15 1 = 1))] [] = none ∧
        spadScan s t Engine.lane false (decide (dLoc d = 3)) (srcStart s d + cf e 3 0 16 * 16) (planeBytes fmt) = none) ∧
    (∃ (t : TileId) (s : State) (l : LoadRun) (r : List LoadRun), (tile s t).loads = l :: r ∧ beingKilled (tile s t) Engine.lane = false) :=
  ⟨⟨0, tOn { lane := [cmd 1 1 0 0], descs := [(1, dsc 0 1)] }, cmd 1 1 0 0, dsc 0 1, 1, by simp only [atHead_iff]; decide⟩,
   ⟨0, tOn { loads := [⟨7, 1, 1, []⟩] }, ⟨7, 1, 1, []⟩, [], by decide⟩⟩

theorem witness_StreamRunsItsRows :
    (∃ (t : TileId) (s : State) (e : QEntry) (d : List Word) (o : Option (List Word)) (mode : Nat),
        (tile s t).laneRuns.all pathFree = true ∧
        AtHead s t Engine.lane 2 e [some d, o] ∧
        (decide (cf e 0 10 1 = 1) = true → (tile s t).loads = []) ∧
        laneMode (planeOf (tile s t) (if decide (cf e 0 10 1 = 1) = true then 1 - (tile s t).active else (tile s t).active)).fmt
        (srcType s d) (decide (cf e 0 14 1 = 1)) =
        some mode ∧
        streamBad s t e d o (some mode)
        (mkLaneRun s t e d o mode (srcType s d)
        (if decide (cf e 0 10 1 = 1) = true then 1 - (tile s t).active else (tile s t).active)) =
        none ∧
        slotCheck s t [(d, decide (cf e 0 15 1 = 1))] (if cf e 0 11 1 = 1 then o.toList else []) = none ∧
        (ilActive s t = false ∨ vecReadsAhead s t e = false)) ∧
    (∃ (t : TileId) (s : State) (r : LaneRun),
        beingKilled (tile s t) Engine.lane = false ∧
        List.find? (fun (r : LaneRun) => decide (r.next < r.rows)) (tile s t).laneRuns = some r ∧
        r.next < r.entered ∧
        r.entered ≤ r.next + 8 ∧
        laneRowGuard s t r r.next = none ∧
        (r.drain = true → spadScan s t Engine.lane true r.outSlot.isSome (r.outAddr + r.next * r.outRow) r.outRow = none)) ∧
    (∃ (t : TileId) (s : State) (r : LaneRun) (l : List LaneRun), (tile s t).laneRuns = r :: l ∧ r.rows ≤ r.next ∧ beingKilled (tile s t) Engine.lane = false) :=
  ⟨⟨0, tOn { lane := [cmd 2 0xFFFF0001 63 0], descs := [(1, dsc 0 1)], planes0 := ⟨true, 1, true, []⟩ }, cmd 2 0xFFFF0001 63 0, dsc 0 1, none, 1, by simp only [atHead_iff]; decide⟩,
   ⟨0, tOn { laneRuns := [{ laneRun 2 0 with entered := 1 }] }, { laneRun 2 0 with entered := 1 }, by decide⟩,
   ⟨0, tOn { laneRuns := [laneRun 2 2] }, laneRun 2 2, [], by decide⟩⟩

theorem witness_VecRunsItsRows :
    (∃ (t : TileId) (s : State) (e : QEntry) (a : Option (List Word)) (b : Option (List Word)) (o : List Word),
        (tile s t).vecRun = none ∧
        AtHead s t Engine.vec 16 e [a, b, some o] ∧
        vecBad s t a b o (mkVecRun s t e a b o) = none ∧
        slotCheck s t (vecReads e a b) [o] = none ∧
        (ilActive s t = false ∨
        (mkVecRun s t e a b o).fromAcc = false ∨
        ((vecRowsLeft s t e).any fun (p : Nat × Nat) => guardHit (tile s t) e.num p.fst p.snd) = false)) ∧
    (∃ (t : TileId) (s : State) (r : VecRun),
        (tile s t).vecRun = some r ∧
        beingKilled (tile s t) Engine.vec = false ∧
        (r.fromAcc = true → guardHit (tile s t) r.num r.bank ((r.base + r.next) % 64) = false) ∧
        vecRowGuard s t r = none ∧ r.oSlot.isSome = decide (dLoc r.oDesc = 3)) ∧
    (∃ (t : TileId) (s : State) (e : QEntry),
        beingKilled (tile s t) Engine.vec = false ∧
        Option.any (fun (r : VecRun) => decide (r.num = e.num)) (tile s t).vecRun = false ∧
        List.find? (fun (e : QEntry) => decide (e.phase = Phase.running) && opcodeOf e != 50) (tile s t).vec = some e) ∧
    (∃ (t : TileId) (s : State) (off : Nat) (w : Word) (req : Option Nat) (r : List (Nat × Word × Option Nat)),
        (tile s t).lutHeld = (off, w, req) :: r ∧ tableBusy (tile s t) ((tableOf off).getD 0) = false) :=
  ⟨⟨0, tOn { vec := [cmd 0x05000110 0xFFFF0001 0x00030002 0], descs := [(1, dsc 0 1), (2, dsc 0x10000 1)] }, cmd 0x05000110 0xFFFF0001 0x00030002 0, some (dsc 0 1), none, dsc 0x10000 1, by simp only [atHead_iff]; decide⟩,
   ⟨0, tOn { vecRun := some (vecRunOf 2 1) }, vecRunOf 2 1, by decide⟩,
   ⟨0, tOn { vec := [{ cmd 0x05000110 0xFFFF0001 0x00030002 0 with phase := .running }] }, { cmd 0x05000110 0xFFFF0001 0x00030002 0 with phase := .running }, by decide⟩,
   ⟨0, tOn { lutHeld := [(0x400, 1, none)] }, 0x400, 1, none, [], by decide⟩⟩

theorem witness_VectorCommandsWriteTheirRows :
    (∃ (t : TileId) (s : State) (e : QEntry) (a : List Word) (o : List Word),
        (tile s t).vecRun = none ∧
        AtHead s t Engine.vec 17 e [some a, some o] ∧
        poolBad s t e a o = none ∧
        slotCheck s t [(a, decide (cf e 0 10 1 = 1))] [o] = none ∧
        linesGuard t false (decide (dLoc a = 3)) (nibLines (srcStart s a) (poolNibs s a o e)) s = none ∧
        RowsWritable s t o (outTypeOf e o) (dstStart s o) (cf e 3 16 16) (cf e 2 0 16 + 1)) ∧
    (∃ (t : TileId) (s : State) (e : QEntry) (a : List Word) (o : List Word),
        (tile s t).vecRun = none ∧
        AtHead s t Engine.vec 18 e [some a, some o, none] ∧
        vectorBad s t e a o none = none ∧
        slotCheck s t (vectorReads e a none) [o] = none ∧
        (∀ (p : Bool × List Nat), p ∈ vectorLines s e a none → linesGuard t false p.fst p.snd s = none) ∧
        RowsWritable s t o (outTypeOf e o) (dstStart s o) (cf e 3 0 16) (vectorRowCount e)) ∧
    (∃ (t : TileId) (s : State) (e : QEntry) (a : List Word) (o : List Word) (g : List Word),
        (tile s t).vecRun = none ∧
        AtHead s t Engine.vec 19 e [some a, some o, some g] ∧
        vectorBad s t e a o (some g) = none ∧
        slotCheck s t (vectorReads e a (some g)) [o] = none ∧
        (∀ (p : Bool × List Nat), p ∈ vectorLines s e a (some g) → linesGuard t false p.fst p.snd s = none) ∧
        RowsWritable s t o (outTypeOf e o) (dstStart s o) (cf e 3 0 16) (vectorRowCount e)) ∧
    (∃ (t : TileId) (s : State) (e : QEntry) (o : List Word),
        (tile s t).vecRun = none ∧
        AtHead s t Engine.vec 51 e [some o] ∧
        statsBad s t e o = none ∧
        slotCheck s t [] [o] = none ∧ spadScan s t Engine.vec true (decide (dLoc o = 3)) (dstStart s o) (8 * cf e 2 10 11) = none) :=
  ⟨⟨0, tOn { vec := [cmd 0x111 0x00020001 0 0], descs := [(1, dsc 0 1), (2, dsc 0x10000 1), (3, dsc 0 5)] }, cmd 0x111 0x00020001 0 0, dsc 0 1, dsc 0x10000 1, by simp only [atHead_iff, RowsWritable]; decide⟩,
   ⟨0, tOn { vec := [cmd 0x112 0x00020001 31 0xFFFF0000], descs := [(1, dsc 0 1), (2, dsc 0x10000 1), (3, dsc 0 5)] }, cmd 0x112 0x00020001 31 0xFFFF0000, dsc 0 1, dsc 0x10000 1, by simp only [atHead_iff, RowsWritable]; decide⟩,
   ⟨0, tOn { vec := [cmd 0x113 0x00020001 31 0x00030000], descs := [(1, dsc 0 1), (2, dsc 0x10000 1), (3, dsc 0 5)] }, cmd 0x113 0x00020001 31 0x00030000, dsc 0 1, dsc 0x10000 1, dsc 0 5, by simp only [atHead_iff, RowsWritable]; decide⟩,
   ⟨0, tOn { vec := [cmd 0x133 2 0x400 0], descs := [(1, dsc 0 1), (2, dsc 0x10000 1), (3, dsc 0 5)] }, cmd 0x133 2 0x400 0, dsc 0x10000 1, by simp only [atHead_iff]; decide⟩⟩

theorem witness_SequencerCountsAndLoops :
    (∃ (t : TileId) (s : State) (pc : Nat) (w : Word), Issues s t 0 pc w ∧ pc + 1 < 4096) ∧
    (∃ (t : TileId) (s : State) (pc : Nat) (w : Word), Issues s t 1 pc w ∧ pc + 1 < 4096 ∧ sf w 24 4 < 8) ∧
    (∃ (t : TileId) (s : State) (pc : Nat) (w : Word), Issues s t 1 pc w ∧ pc + 1 < 4096 ∧ 8 ≤ sf w 24 4 ∧ sf w 24 4 < 12) ∧
    (∃ (t : TileId) (s : State) (pc : Nat) (w : Word), Issues s t 2 pc w ∧ pc + 1 < 4096) ∧
    (∃ (t : TileId) (s : State) (pc : Nat) (w : Word), Issues s t 3 pc w ∧ (tile s t).loops.length < 4 ∧ sf w 0 12 ≠ 0 ∧ pc + 1 < 4096) ∧
    (∃ (t : TileId) (s : State) (pc : Nat) (w : Word), Issues s t 3 pc w ∧ (tile s t).loops.length < 4 ∧ sf w 0 12 = 0 ∧ sf w 12 12 + 1 < 4096) ∧
    (∃ (t : TileId) (s : State) (pc : Nat) (w : Word) (l : LoopEnt) (r : List LoopEnt),
        Issues s t 4 pc w ∧
        (tile s t).loops = l :: r ∧ l.last = pc ∧ l.c < 8 ∧ r.length < 4 ∧ (cntOf s t l.c + 1) % 2 ^ 24 < l.n ∧ l.pc + 1 < 4096) ∧
    (∃ (t : TileId) (s : State) (pc : Nat) (w : Word) (l : LoopEnt) (r : List LoopEnt),
        Issues s t 4 pc w ∧
        (tile s t).loops = l :: r ∧ l.last = pc ∧ l.c < 8 ∧ r.length < 4 ∧ l.n ≤ (cntOf s t l.c + 1) % 2 ^ 24 ∧ pc + 1 < 4096) ∧
    (∃ (t : TileId) (s : State) (pc : Nat) (w : Word), Issues s t 5 pc w ∧ relHolds (sf w 21 2) (cntOf s t (sf w 25 3)) (fget s (pgSeq t) (Fl.seqCmpRef (sf w 23 2))) = true) ∧
    (∃ (t : TileId) (s : State) (pc : Nat) (w : Word),
        Issues s t 5 pc w ∧
        relHolds (sf w 21 2) (cntOf s t (sf w 25 3)) (fget s (pgSeq t) (Fl.seqCmpRef (sf w 23 2))) = false ∧ pc + 1 < 4096) :=
  ⟨⟨0, sq 0x000FFFFF {} [], 0, 0x000FFFFF, by simp only [issues_iff]; decide⟩,
   ⟨0, sq 0x17000009 {} [], 0, 0x17000009, by simp only [issues_iff]; decide⟩,
   ⟨0, sq 0x1B000009 {} [], 0, 0x1B000009, by simp only [issues_iff]; decide⟩,
   ⟨0, sq 0x27FFFFFF {} [], 0, 0x27FFFFFF, by simp only [issues_iff]; decide⟩,
   ⟨0, sq 0x30001FFF { loops := [⟨9, 9, 1, 0⟩, ⟨9, 9, 1, 0⟩, ⟨9, 9, 1, 0⟩] } [], 0, 0x30001FFF, by simp only [issues_iff]; decide⟩,
   ⟨0, sq 0x30FFE000 {} [], 0, 0x30FFE000, by simp only [issues_iff]; decide⟩,
   ⟨0, sq 0x40000000 { loops := [⟨4094, 0, 2, 7⟩] } [], 0, 0x40000000, ⟨4094, 0, 2, 7⟩, [], by simp only [issues_iff]; decide⟩,
   ⟨0, sq 0x40000000 { loops := [⟨5, 0, 1, 7⟩] } [], 0, 0x40000000, ⟨5, 0, 1, 7⟩, [], by simp only [issues_iff]; decide⟩,
   ⟨0, sq 0x50000FFF {} [], 0, 0x50000FFF, by simp only [issues_iff]; decide⟩,
   ⟨0, sq 0x50200003 {} [], 0, 0x50200003, by simp only [issues_iff]; decide⟩⟩

theorem witness_SequencerPushesAndWaits :
    (∃ (t : TileId) (s : State) (pc : Nat) (w : Word),
        Issues s t 6 pc w ∧
        pc + 1 < 4096 ∧
        sf w 22 6 < fget s (pgSeq t) Fl.seqTplCntCount ∧
        (fillTemplate s t (sf w 22 6)).snd = true ∧
        canPush s t [engOf (bitsOf (BitVec.toNat ((fillTemplate s t (sf w 22 6)).fst.getD 0 0)) 8 2)] = true) ∧
    (∃ (t : TileId) (s : State) (pc : Nat) (w : Word), Issues s t 8 pc w ∧ pc + 1 < 4096 ∧ canPush s t [engOf (sf w 20 2)] = true) ∧
    (∃ (t : TileId) (s : State) (pc : Nat) (w : Word), Issues s t 9 pc w ∧ pc + 1 < 4096 ∧ canPush s t [engOf (sf w 20 2)] = true) ∧
    (∃ (t : TileId) (s : State) (pc : Nat) (w : Word),
        Issues s t 10 pc w ∧ pc + 1 < 4096 ∧ canPush s t (List.filter (fun (q : Engine) => (sf w 24 4).testBit (engNo q)) allEngines) = true) ∧
    (∃ (t : TileId) (s : State) (pc : Nat) (w : Word),
        Issues s t 7 pc w ∧
        (∀ (j : TileJob), (tile s t).job = some j → j.barMask.testBit (sf w 22 6) = true) ∧
        barMet s (tilePart s t) (sf w 22 6) (sf w 0 16) = true ∧ pc + 1 < 4096) ∧
    (∃ (t : TileId) (s : State) (pc : Nat) (w : Word),
        Issues s t 7 pc w ∧
        (∀ (j : TileJob), (tile s t).job = some j → j.barMask.testBit (sf w 22 6) = true) ∧
        barMet s (tilePart s t) (sf w 22 6) (sf w 0 16) = false) ∧
    (∃ (t : TileId) (s : State) (pc : Nat) (w : Word), Issues s t 15 pc w) ∧
    (∃ (t : TileId) (s : State),
        (tile s t).haltPc.isSome = true ∧ (∀ (q : Engine), queue s t q = []) ∧ (tile s t).kill = none ∧ fget s (pgSeq t) Fl.seqStatusState = 1) :=
  ⟨⟨0, sq 0x60000000 {} [(pgSeq 0, Fl.seqTplCntCount, 1)], 0, 0x60000000, by simp only [issues_iff]; decide⟩,
   ⟨0, sq 0x8030FFFF {} [], 0, 0x8030FFFF, by simp only [issues_iff]; decide⟩,
   ⟨0, sq 0x903000FF {} [], 0, 0x903000FF, by simp only [issues_iff]; decide⟩,
   ⟨0, sq 0xAF800000 { imemStaged := [(4095, 5)] } [], 0, 0xAF800000, by simp only [issues_iff]; decide⟩,
   ⟨0, sq 0x70000000 {} [], 0, 0x70000000, by simp only [issues_iff]; decide⟩,
   ⟨0, sq 0x70000001 {} [], 0, 0x70000001, by simp only [issues_iff]; decide⟩,
   ⟨0, sq 0xF0000000 {} [], 0, 0xF0000000, by simp only [issues_iff]; decide⟩,
   ⟨0, sq 0 { haltPc := some 4094 } [], by
  refine ⟨by decide, fun q => ?_, by decide, by decide⟩
  cases q <;> decide⟩⟩

theorem witness_SequencerStartsAndFaults :
    (∃ (t : TileId) (s : State) (who : Requester) (v : Word),
        Accepted s who (pgSeq t) 268 0 ∧ Fl.seqStartGo.get v = 1 ∧ pageOn s (pgSeq t) = true ∧ fget s (pgSeq t) Fl.seqStatusState ≠ 1) ∧
    (∃ (t : TileId) (s : State) (op : Nat) (pc : Nat) (w : Word), within 11 14 op = true ∧ Issues s t op pc w) ∧
    (∃ (t : TileId) (s : State) (who : Requester) (i : Fin 4096),
        Accepted s who (pgSeq t) (131072 + 4 * ↑i) 0 ∧ fget s (pgSeq t) Fl.lockCfg = 0 ∧ fget s (pgSeq t) Fl.seqStatusState = 1) ∧
    (∃ (t : TileId) (s : State) (cycles : Nat), (tile s t).imemStaged ≠ [] ∧ fget s (pgSeq t) Fl.seqTxnTimeoutCycles < cycles) ∧
    (∃ (t : TileId) (s : State) (q : Engine) (waited : Nat) (e : QEntry),
        headEntry (queue s t q) = some e ∧
        e.waitDet ≠ 0 ∧ mayDispatch s t q = true ∧ fget s (pgSeq t) Fl.seqIlockLimitCycles < max waited e.waited) :=
  ⟨⟨0, tOn {}, fw0, 0xFFFFFFFF, by simp only [accepted_iff]; decide⟩,
   ⟨0, sq 0xE1234567 {} [], 0xE, 0, 0xE1234567, by simp only [issues_iff]; decide⟩,
   ⟨0, sq 0, fw0, 4095, by simp only [accepted_iff]; decide⟩,
   ⟨0, tOn { imemStaged := [(4095, 5)] }, 2 ^ 32, by decide⟩,
   ⟨0, sq 0 { lane := [{ cmd 0x30 0 0 0 with waitDet := 1 }] } [(pgSeq 0, Fl.seqCtrlIlock, 1)], .lane, 2 ^ 32, { cmd 0x30 0 0 0 with waitDet := 1 }, by decide⟩⟩

theorem witness_OrderingCommandsAtTheHead :
    (∃ (t : TileId) (q : Engine) (e : QEntry) (s : State), AtHead s t q 48 e []) ∧
    (∃ (t : TileId) (q : Engine) (e : QEntry) (s : State), AtHead s t q 52 e []) ∧
    (∃ (t : TileId) (q : Engine) (e : QEntry) (s : State), AtHead s t q 49 e [] ∧ barMet s (tilePart s t) (cf e 0 16 6) (cf e 1 0 16) = true) ∧
    (∃ (t : TileId) (q : Engine) (e : QEntry) (s : State), AtHead s t q 49 e [] ∧ barMet s (tilePart s t) (cf e 0 16 6) (cf e 1 0 16) = false) ∧
    (∃ (t : TileId) (q : Engine) (e : QEntry) (s : State), AtHead s t q 50 e []) :=
  ⟨⟨0, .s1, cmd 0x3F0330 0xFFFF 0 0, tOn { s1 := [cmd 0x3F0330 0xFFFF 0 0] }, by simp only [atHead_iff]; decide⟩,
   ⟨0, .s1, cmd 0xFF0334 0 0 0, tOn { s1 := [cmd 0xFF0334 0 0 0] }, by simp only [atHead_iff]; decide⟩,
   ⟨0, .s1, cmd 0x331 0 0 0, tOn { s1 := [cmd 0x331 0 0 0] }, by simp only [atHead_iff]; decide⟩,
   ⟨0, .s1, cmd 0x331 1 0 0, tOn { s1 := [cmd 0x331 1 0 0] }, by simp only [atHead_iff]; decide⟩,
   ⟨0, .s1, cmd 0x332 0 0 0, tOn { s1 := [cmd 0x332 0 0 0] }, by simp only [atHead_iff]; decide⟩⟩

theorem witness_CommitPointsCommitOrKill :
    (∃ (t : TileId) (q : Engine) (s : State) (l : List QEntry),
        beingKilled (tile s t) q = false ∧
        spanOf (tile s t) q = some l ∧
        spanDone l = true ∧
        (l.any fun (e : QEntry) => e.mismatch != 0 || e.vecFlags != 0) = false ∧
        l.any (failsSat s t) = false ∧
        (∀ (e : QEntry), e ∈ l → ∀ (n : Nat), n ∈ e.accRead → ∀ (x : QEntry), x ∈ (tile s t).lane → x.num ≠ n) ∧
        evidenceQueued s t + spanRecords s t q l ≤ 64) ∧
    (∃ (t : TileId) (q : Engine) (s : State) (e : QEntry) (c : QEntry) (r : List QEntry),
        beingKilled (tile s t) q = false ∧
        queue s t q = e :: c :: r ∧
        Plain e ∧
        Plain c ∧
        e.phase = Phase.complete ∧
        opcodeOf e = 48 ∧
        c.phase = Phase.running ∧
        opcodeOf c = 50 ∧
        (∀ (x : QEntry), x ∈ r → x.num ≠ e.num ∧ x.num ≠ c.num) ∧ s.heldDone = [] ∧ evidenceQueued s t ≤ 64) ∧
    (∃ (t : TileId) (q : Engine) (s : State) (l : List QEntry),
        beingKilled (tile s t) q = false ∧
        spanOf (tile s t) q = some l ∧ spanDone l = true ∧ (l.any fun (e : QEntry) => e.mismatch != 0 || e.vecFlags != 0) = true) ∧
    (∃ (t : TileId) (q : Engine) (s : State) (l : List QEntry),
        beingKilled (tile s t) q = false ∧
        spanOf (tile s t) q = some l ∧
        spanDone l = true ∧ (l.any fun (e : QEntry) => e.mismatch != 0 || e.vecFlags != 0) = false ∧ l.any (failsSat s t) = true) :=
  ⟨⟨0, .vec, tOn { vec := [{ cmd 0x10 0 0 0 with phase := .complete, limit := some 1, sats := 0, elems := 100 }, { cmd 0x32 0 0 0 with num := 8, phase := .running }] }, [{ cmd 0x10 0 0 0 with phase := .complete, limit := some 1, sats := 0, elems := 100 }, { cmd 0x32 0 0 0 with num := 8, phase := .running }], by decide⟩,
   ⟨0, .lane, tOn { lane := [{ cmd 0x3F0030 0xFFFF 0 0 with phase := .complete }, { cmd 0x32 0 0 0 with num := 8, phase := .running }] }, { cmd 0x3F0030 0xFFFF 0 0 with phase := .complete }, { cmd 0x32 0 0 0 with num := 8, phase := .running }, [], by simp only [Plain]; decide⟩,
   ⟨0, .lane, tOn { lane := [{ cmd 0x10 0 0 0 with phase := .complete, mismatch := 1 }, { cmd 0x32 0 0 0 with num := 8, phase := .running }] }, [{ cmd 0x10 0 0 0 with phase := .complete, mismatch := 1 }, { cmd 0x32 0 0 0 with num := 8, phase := .running }], by decide⟩,
   ⟨0, .vec, tOn { vec := [{ cmd 0x10 0 0 0 with phase := .complete, limit := some 1, sats := 100, elems := 100 }, { cmd 0x32 0 0 0 with num := 8, phase := .running }] }, [{ cmd 0x10 0 0 0 with phase := .complete, limit := some 1, sats := 100, elems := 100 }, { cmd 0x32 0 0 0 with num := 8, phase := .running }], by decide⟩⟩

theorem witness_KillsAndResume :
    (∃ (t : TileId) (s : State) (who : Requester) (v : Word), Accepted s who (pgTile t) 1040 0 ∧ (tile s t).kill = none ∧ BitVec.toNat v % 16 ≠ 0) ∧
    (∃ (t : TileId) (s : State) (who : Requester) (v : Word), Accepted s who (pgTile t) 1040 0 ∧ (tile s t).kill = none ∧ BitVec.toNat v % 16 = 0) ∧
    (∃ (t : TileId) (s : State) (who : Requester), Accepted s who (pgTile t) 1048 0) ∧
    (∃ (t : TileId) (s : State) (k : KillRun), (tile s t).kill = some k) :=
  ⟨⟨0, tOn {}, fw0, 0xF, by simp only [accepted_iff]; decide⟩,
   ⟨0, tOn {}, fw0, 0x10, by simp only [accepted_iff]; decide⟩,
   ⟨0, tOn {}, fw0, by simp only [accepted_iff]; decide⟩,
   ⟨0, tOn { kill := some ⟨[.vec], 93, false⟩, vec := [{ cmd 0x05000110 0 0 0 with phase := .running }], vecRun := some (vecRunOf 2 1) }, ⟨[.vec], 93, false⟩, by decide⟩⟩

theorem witness_DescriptorsSlotsAndJobEnds :
    (∃ (t : TileId) (s : State) (who : Requester) (v : Word),
        Accepted s who (pgTile t) 1024 0 ∧
        handleBad s t { h := BitVec.toNat v % 2 ^ 16, use := 2, out := false } = false ∧
        descOf (tile s t) (BitVec.toNat v % 2 ^ 16) = none ∧
        ¬BitVec.toNat v % 2 ^ 16 ∈ (tile s t).descPend ∧ (tile s t).descs.length + (tile s t).descPend.length < 64) ∧
    (∃ (t : TileId) (s : State) (who : Requester) (v : Word), Accepted s who (pgTile t) 1024 0 ∧ handleBad s t { h := BitVec.toNat v % 2 ^ 16, use := 2, out := false } = true) ∧
    (∃ (t : TileId) (s : State) (h : Nat), h ∈ (tile s t).descPend ∧ grantRange s (Requester.seq t) false (descAddr s (tilePart s t) h) 64 = Grant.served) ∧
    (∃ (t : TileId) (s : State) (who : Requester) (v : Word),
        Accepted s who (pgTile t) 1112 0 ∧
        Fl.tileSlotFillGo.get v = 1 ∧
        ringValid s t (Fl.tileSlotFillRing.get v) = true ∧
        fget s (pgTile t) (Fl.tileSlotStateBufs (Fl.tileSlotFillRing.get v)) = 0 ∧
        Fl.tileSlotFillCountM1.get v + 1 ≤ ringBufs s t (Fl.tileSlotFillRing.get v) ∧ fget s (pgSeq t) Fl.seqStatusState ≠ 1) ∧
    (∃ (t : TileId) (s : State) (j : TileJob),
        (tile s t).job = some j ∧
        j.faulted = false ∧ jobDone s t j = true ∧ (tile s t).kill = none ∧ fget s (pgTile t) Fl.tileCtxCtlFreeze = 0) ∧
    (∃ (t : TileId) (s : State) (j : TileJob), (tile s t).job = some j ∧ j.faulted = true ∧ (tile s t).kill = none ∧ ctxBusy s t = false) ∧
    (∃ (t : TileId) (s : State), (tile s t).frameStep = true ∧ (List.map Prod.fst (tile s t).frameOut).Nodup) :=
  ⟨⟨0, tOn {}, fw0, 15, by simp only [accepted_iff]; decide⟩,
   ⟨0, tOn {}, fw0, 16, by simp only [accepted_iff]; decide⟩,
   ⟨0, tOn { descPend := [1] } [(pgPart 0, Fl.partDescBaseHiBase, 0x10)], 1, by decide⟩,
   ⟨0, tOn {} [(pgTile 0, Fl.tileSlotCfgValid 31, 1), (pgTile 0, Fl.tileSlotCfgNbufM1 31, 15)], fw0, Fl.tileSlotFillGo.put (Fl.tileSlotFillRing.put (Fl.tileSlotFillCountM1.put 0 15) 31) 1, by simp only [accepted_iff]; decide⟩,
   ⟨0, tOn { job := some ⟨none, 5, 0, false, 0, false⟩ } [(pgSeq 0, Fl.seqStatusState, 2)], ⟨none, 5, 0, false, 0, false⟩, by decide⟩,
   ⟨0, tOn { job := some ⟨none, 5, 0, false, 0, true⟩ } [(pgSeq 0, Fl.seqStatusState, 3)], ⟨none, 5, 0, false, 0, true⟩, by decide⟩,
   ⟨0, tOn { frameStep := true, frameOut := [(1023, -8, 3, 0)] }, by decide⟩⟩

theorem witness_ScratchpadAccessByPort :
    (∃ (t : TileId) (port : Fin 6) (write : Bool) (slot : Bool) (line : Fin 16384) (s : State), spadCheck s t (↑port) write slot (64 * ↑line) = none ∧ write = true) ∧
    (∃ (t : TileId) (port : Fin 6) (write : Bool) (slot : Bool) (line : Fin 16384) (ecc : EccOutcome) (s : State), spadCheck s t (↑port) write slot (64 * ↑line) = none ∧ write = false ∧ ecc = EccOutcome.clean) ∧
    (∃ (t : TileId) (port : Fin 6) (write : Bool) (slot : Bool) (line : Fin 16384) (ecc : EccOutcome) (s : State), spadCheck s t (↑port) write slot (64 * ↑line) = none ∧ write = false ∧ ecc = EccOutcome.corrected) ∧
    (∃ (t : TileId) (port : Fin 6) (write : Bool) (slot : Bool) (line : Fin 16384) (ecc : EccOutcome) (s : State), spadCheck s t (↑port) write slot (64 * ↑line) = none ∧ write = false ∧ ecc = EccOutcome.uncorrectable) ∧
    (∃ (t : TileId) (port : Fin 6) (write : Bool) (slot : Bool) (line : Fin 16384) (s : State) (det : Nat), spadCheck s t (↑port) write slot (64 * ↑line) = some det) :=
  ⟨⟨0, 4, true, false, 4096, tOn {}, by decide⟩,
   ⟨0, 4, false, false, 0, .clean, tOn {}, by decide⟩,
   ⟨0, 0, false, false, 0, .corrected, tOn {}, by decide⟩,
   ⟨0, 4, false, false, 0, .uncorrectable, tOn {}, by decide⟩,
   ⟨0, 5, false, false, 0, tOn {}, 2, by decide⟩⟩

theorem witness_StreamEnginesCopyTheirElements :
    (∃ (t : TileId) (g : StrmId) (c : QEntry) (s : State) (src : List Word) (dst : List Word) (sd : Option (List Word)),
        MoveReady s t g 33 Turn.move c src dst sd ∧
        persistent s t g 33 c sd = false ∧
        (sdIs sd fun (w : List Word) => sdRole w != 0) = false ∧ SlotFree s t g c.num src false ∧ SlotFree s t g c.num dst true) ∧
    (∃ (t : TileId) (g : StrmId) (c : QEntry) (s : State) (src : List Word) (dst : List Word) (sd : Option (List Word)),
        MoveReady s t g 34 (if cf c 0 11 1 = 1 then Turn.toSpace (cf c 0 12 3 + 1) else Turn.toDepth (cf c 0 12 3 + 1)) c src dst sd ∧
        (sdIs sd fun (w : List Word) => sdRole w != 0) = false ∧ SlotFree s t g c.num src false ∧ SlotFree s t g c.num dst true) ∧
    (∃ (t : TileId) (g : StrmId) (c : QEntry) (s : State) (ids : List Word) (tbl : List Word) (out : List Word),
        readsLeft (tile s t) g = false ∧
        AtHead s t (strmEng g) 32 c [some ids, some tbl, some out] ∧
        gatherRoom s c (opd s t ids false none 0) (opd s t tbl false none 0)
        (outOpd (opd s t tbl false none 0) (opd s t out true none 0)) =
        none ∧
        (∀ (d : List Word), d ∈ [ids, tbl] → dLoc d = 3 → effTile s d ≠ t → dAdpCnt d = 0) ∧
        SlotFree s t g c.num ids false ∧ SlotFree s t g c.num tbl false ∧ SlotFree s t g c.num out true) ∧
    (∃ (t : TileId) (c : QEntry) (s : State) (src : List Word) (dst : List Word),
        (tile s t).vecRun = none ∧
        AtHead s t Engine.vec 33 c [some src, some dst] ∧
        vecMoveBad s c src dst (opd s t src false none (ofsBytes (cf c 3 0 16)))
        (vecMoveOut c (opd s t src false none (ofsBytes (cf c 3 0 16))) (opd s t dst true none (ofsBytes (cf c 3 16 16))))
        (moveMap s t (opd s t src false none (ofsBytes (cf c 3 0 16)))
        (vecMoveOut c (opd s t src false none (ofsBytes (cf c 3 0 16))) (opd s t dst true none (ofsBytes (cf c 3 16 16))))
        (regOf src none) Turn.move (16 * cf c 3 0 16)) =
        none ∧
        slotCheck s t [(src, decide (cf c 0 10 1 = 1))] [dst] = none) :=
  ⟨⟨0, 0, cmd 0x221 0x20001 0xff 0, tOn { s0 := [cmd 0x221 0x20001 0xff 0], descs := [(1, dsc 0x20000 1), (2, dsc 0x24000 1), (3, dsc 0x24000 1)] }, dsc 0x20000 1, dsc 0x24000 1, none, by simp only [moveReady_iff, slotFree_iff, atHead_iff]; decide⟩,
   ⟨0, 0, cmd 0x222 0x20001 0xff 0, tOn { s0 := [cmd 0x222 0x20001 0xff 0], descs := [(1, dsc 0x20000 1), (2, dsc 0x24000 1), (3, dsc 0x24000 1)] }, dsc 0x20000 1, dsc 0x24000 1, none, by simp only [moveReady_iff, slotFree_iff, atHead_iff]; decide⟩,
   ⟨0, 0, cmd 0x220 0x20001 0x3 0, tOn { s0 := [cmd 0x220 0x20001 0x3 0], descs := [(1, dsc 0x20000 3), (2, dsc 0x20400 1), (3, dsc 0x24000 1)] }, dsc 0x20000 3, dsc 0x20400 1, dsc 0x24000 1, by simp only [atHead_iff, slotFree_iff]; decide⟩,
   ⟨0, cmd 0x121 0x20001 0xff 0, tOn { vec := [cmd 0x121 0x20001 0xff 0], descs := [(1, dsc 0 1), (2, dsc 0x10000 1)] }, dsc 0 1, dsc 0x10000 1, by simp only [atHead_iff]; decide⟩⟩

theorem witness_MulticastAndRemoteSlots :
    (∃ (t : TileId) (g : StrmId) (s : State) (c : QEntry) (src : List Word) (dst : List Word) (w : List Word),
        MoveReady s t g 33 Turn.move c src dst (some w) ∧
        persistent s t g 33 c (some w) = false ∧ sdRole w = 1 ∧ SlotFree s t g c.num src false) ∧
    (∃ (t : TileId) (g : StrmId) (s : State) (c : QEntry) (src : List Word) (dst : List Word) (w : List Word),
        MoveReady s t g 33 Turn.move c src dst (some w) ∧
        persistent s t g 33 c (some w) = false ∧ sdRole w = 2 ∧ SlotFree s t g c.num dst true) ∧
    (∃ (t : TileId) (g : StrmId) (s : State) (r : TileId) (tag : Byte) (lag : Nat) (m : McRun),
        List.find? (fun (x : McRun) => x.send && decide (x.tag = tag.toNat) && x.tiles.contains r && !x.todo.isEmpty) (mcOf (tile s t) g) = some m ∧
        fget s (pgStrm t g) Fl.strmMcLagLimitCycles < lag ∧
        (readyLine s t g m).isSome = true ∧
        (∀ (v : TileId), v ∈ m.tiles → v ≠ r → holdsCredit s t g m.num v = true) ∧ holdsCredit s t g m.num r = false) ∧
    (∃ (t : TileId) (s : State) (sl : Fin 32) (i : Nat) (r : RemoteStep),
        (List.filter (fun (r : RemoteStep) => decide (r.ringTile = t) && decide (r.ring = ↑sl) && r.got.isNone) s.remoteSteps)[i]? =
        some r ∧
        r.write = true ∧ slotWritable s t ↑sl = true ∧ wrIdx s t ↑sl < 16) ∧
    (∃ (t : TileId) (s : State) (sl : Fin 32) (i : Nat) (r : RemoteStep),
        (List.filter (fun (r : RemoteStep) => decide (r.ringTile = t) && decide (r.ring = ↑sl) && r.got.isNone) s.remoteSteps)[i]? =
        some r ∧
        r.write = false ∧ slotReadable s t ↑sl = true ∧ rdIdx s t ↑sl < 16) ∧
    (∃ (t : TileId) (g : StrmId) (s : State) (c : QEntry),
        beingKilled (tile s t) (strmEng g) = false ∧
        beingKilled (tile (strmGoOn regRequest t g s) t) (strmEng g) = false ∧
        List.find? (fun (c : QEntry) => decide (c.phase = Phase.running) && opcodeOf c != 50)
        (queue (strmGoOn regRequest t g s) t (strmEng g)) =
        some c ∧
        mcDone (strmGoOn regRequest t g s) t g c.num = true ∧
        ∀ (r : StrmRun),
        List.find? (fun (r : StrmRun) => decide (r.num = c.num) && r.chan.isNone)
        (strOf (tile (strmGoOn regRequest t g s) t) g).runs =
        some r →
        r.done = true) :=
  ⟨⟨0, 0, tOn { s0 := [cmd 0x221 0x00020001 31 0], descs := [(1, dsc 0x20000 1), (2, dsc 0x24000 1)] } [(pgStrm 0 0, ⟨0x7E8, 0, 32⟩, 0x84000000), (pgStrm 0 0, ⟨0x7EC, 0, 32⟩, 3), (pgStrm 0 0, ⟨0x7F0, 0, 32⟩, 0xFF05)], cmd 0x221 0x00020001 31 0, dsc 0x20000 1, dsc 0x24000 1, [0, 0, 0x84000000, 3, 0xFF05, 0, 0, 0], by simp only [moveReady_iff, slotFree_iff, atHead_iff]; decide⟩,
   ⟨0, 0, tOn { s0 := [cmd 0x221 0x00020001 31 0], descs := [(1, dsc 0x20000 1), (2, dsc 0x24000 1)] } [(pgStrm 0 0, ⟨0x7E8, 0, 32⟩, 0x88000000), (pgStrm 0 0, ⟨0x7EC, 0, 32⟩, 3), (pgStrm 0 0, ⟨0x7F0, 0, 32⟩, 0xFF05)], cmd 0x221 0x00020001 31 0, dsc 0x20000 1, dsc 0x24000 1, [0, 0, 0x88000000, 3, 0xFF05, 0, 0, 0], by simp only [moveReady_iff, slotFree_iff, atHead_iff]; decide⟩,
   ⟨0, 0, { tiles := [(0, { mc0 := [{ num := 7, send := true, tag := 3, tiles := [5, 95], paired := [5, 95], todo := [2] }], str0 := { runs := [{ num := 7, chan := none, src := side, dst := side, got := [(2, [])] }] } }), (5, { mc0 := [{ num := 1, send := false, tag := 3, tiles := [0], pair := some (0, 7) }] }), (95, { mc0 := [{ num := 1, send := false, tag := 3, tiles := [0], pair := some (0, 7), unread := 32 }] })] }, 95, 3, 2 ^ 32, { num := 7, send := true, tag := 3, tiles := [5, 95], paired := [5, 95], todo := [2] }, by decide⟩,
   ⟨0, { remoteSteps := [⟨0, 31, 5, 0, 9, true, true, none⟩] }, 31, 0, ⟨0, 31, 5, 0, 9, true, true, none⟩, by decide⟩,
   ⟨0, st [(pgTile 0, Fl.tileSlotCfgValid 31, 1), (pgTile 0, Fl.tileSlotStateBufs 31, 2)] { remoteSteps := [⟨0, 31, 5, 0, 9, false, true, none⟩] }, 31, 0, ⟨0, 31, 5, 0, 9, false, true, none⟩, by decide⟩,
   ⟨0, 1, tOn { s1 := [{ cmd 0x321 0 0 0 with phase := .running }] }, { cmd 0x321 0 0 0 with phase := .running }, by
  refine ⟨by decide, by decide, by decide, by decide, none_some (by decide)⟩⟩⟩

theorem witness_PersistentChannels :
    (∃ (t : TileId) (g : StrmId) (s : State) (c : QEntry) (src : List Word) (dst : List Word) (w : List Word), MoveReady s t g 33 Turn.move c src dst (some w) ∧ persistent s t g 33 c (some w) = true) ∧
    (∃ (t : TileId) (g : StrmId) (s : State) (r : ArmReq) (l : List ArmReq) (k : Nat),
        armQ (tile s t) g = r :: l ∧
        r.rearm = false ∧
        List.find?
        (fun (k : Nat) =>
        match (chansOf (tile s t) g)[k]? with
        | some c => !c.armed
        | none => false)
        (List.range 4) =
        some k) ∧
    (∃ (t : TileId) (g : StrmId) (s : State) (r : ArmReq) (l : List ArmReq) (k : Nat) (c : StrmChan),
        armQ (tile s t) g = r :: l ∧
        r.rearm = true ∧ armedOn (tile s t) g r.d = some k ∧ (chansOf (tile s t) g)[k]? = some c ∧ c.idle = false) ∧
    (∃ (t : TileId) (g : StrmId) (s : State) (r : ArmReq) (l : List ArmReq) (k : Nat) (c : StrmChan),
        armQ (tile s t) g = r :: l ∧
        r.rearm = true ∧ armedOn (tile s t) g r.d = some k ∧ (chansOf (tile s t) g)[k]? = some c ∧ c.idle = true) ∧
    (∃ (t : TileId) (g : StrmId) (s : State) (k : Fin 4) (c : StrmChan) (o : ChanOps),
        beingKilled (tile s t) (strmEng g) = false ∧
        beingKilled (tile (strmWork regRequest t g s) t) (strmEng g) = false ∧
        (chansOf (tile (strmWork regRequest t g s) t) g)[↑k]? = some c ∧
        c.busy = true ∧
        c.ops = some o ∧
        (∀ (r : StrmRun),
        List.find? (fun (r : StrmRun) => decide (r.chan = some ↑k)) (strOf (tile (strmWork regRequest t g s) t) g).runs =
        some r →
        r.done = true) ∧
        sdBlocks o.sdesc ≤ c.block + 1 ∧ c.shadow = none) ∧
    (∃ (t : TileId) (g : StrmId) (s : State) (k : Fin 4) (c : StrmChan) (o : ChanOps) (sh : ChanOps),
        beingKilled (tile s t) (strmEng g) = false ∧
        beingKilled (tile (strmWork regRequest t g s) t) (strmEng g) = false ∧
        (chansOf (tile (strmWork regRequest t g s) t) g)[↑k]? = some c ∧
        c.busy = true ∧
        c.ops = some o ∧
        (∀ (r : StrmRun),
        List.find? (fun (r : StrmRun) => decide (r.chan = some ↑k))
        (strOf (tile (strmWork regRequest t g s) t) g).runs =
        some r →
        r.done = true) ∧
        sdBlocks o.sdesc ≤ c.block + 1 ∧ c.shadow = some sh) ∧
    (∃ (t : TileId) (g : StrmId) (s : State) (k : Fin 4) (c : StrmChan) (o : ChanOps),
        beingKilled (tile s t) (strmEng g) = false ∧
        beingKilled (tile (strmWork regRequest t g s) t) (strmEng g) = false ∧
        (chansOf (tile (strmWork regRequest t g s) t) g)[↑k]? = some c ∧
        c.busy = true ∧
        c.ops = some o ∧
        (∀ (r : StrmRun),
        List.find? (fun (r : StrmRun) => decide (r.chan = some ↑k)) (strOf (tile (strmWork regRequest t g s) t) g).runs =
        some r →
        r.done = true) ∧
        c.block + 1 < sdBlocks o.sdesc) :=
  ⟨⟨0, 0, tOn { s0 := [cmd 0x221 0x00020001 31 0], descs := [(1, dsc 0x20000 1), (2, dsc 0x24000 1)] } [(pgStrm 0 0, ⟨0x7E8, 0, 32⟩, 0x80400000), (pgStrm 0 0, ⟨0x7EC, 0, 32⟩, 3), (pgStrm 0 0, ⟨0x7F0, 0, 32⟩, 0xFF05)], cmd 0x221 0x00020001 31 0, dsc 0x20000 1, dsc 0x24000 1, [0, 0, 0x80400000, 3, 0xFF05, 0, 0, 0], by simp only [moveReady_iff, atHead_iff]; decide⟩,
   ⟨0, 0, tOn { arm0 := [⟨false, 31, ops⟩], descs := [(1, dslot)] }, ⟨false, 31, ops⟩, [], 0, by decide⟩,
   ⟨0, 0, tOn { arm0 := [⟨true, 31, ops⟩], chans0 := [{}, { armed := true, d := 31, ops := some ops }, {}, {}] }, ⟨true, 31, ops⟩, [], 1, { armed := true, d := 31, ops := some ops }, by decide⟩,
   ⟨0, 0, tOn { arm0 := [⟨true, 31, ops⟩], chans0 := [{}, { armed := true, d := 31, idle := true, ops := some ops }, {}, {}] }, ⟨true, 31, ops⟩, [], 1, { armed := true, d := 31, idle := true, ops := some ops }, by decide⟩,
   ⟨0, 1, tOn { chans1 := [{}, {}, {}, { armed := true, busy := true, ops := some ops }] }, 3, { armed := true, busy := true, ops := some ops }, ops, by
  refine ⟨by decide, by decide, by decide, by decide, by decide, none_some (by decide), by decide, by decide⟩⟩,
   ⟨0, 1, tOn { chans1 := [{}, {}, {}, { armed := true, busy := true, ops := some ops, shadow := some ops }] }, 3, { armed := true, busy := true, ops := some ops, shadow := some ops }, ops, ops, by
  refine ⟨by decide, by decide, by decide, by decide, by decide, none_some (by decide), by decide, by decide⟩⟩,
   ⟨0, 1, tOn { chans1 := [{}, {}, {}, { armed := true, busy := true, ops := some { ops with sdesc := [0, 0, 0, 0, 0x10000, 0, 0, 0] } }] }, 3, { armed := true, busy := true, ops := some { ops with sdesc := [0, 0, 0, 0, 0x10000, 0, 0, 0] } }, { ops with sdesc := [0, 0, 0, 0, 0x10000, 0, 0, 0] }, by
  refine ⟨by decide, by decide, by decide, by decide, by decide, none_some (by decide), by decide⟩⟩⟩

theorem witness_DdrAddressesInterleave :
    (∃ (s : State), subCount s = 4) ∧
    (∃ (s : State), subCount s = 2) ∧
    (∃ (s : State), subCount s = 1) :=
  ⟨⟨{ memCfg := some (Fl.hubMemCfgSubch.put 0 2) }, by decide⟩,
   ⟨{ memCfg := some (Fl.hubMemCfgSubch.put 0 1) }, by decide⟩,
   ⟨{ memCfg := some (Fl.hubMemCfgSubch.put 0 0) }, by decide⟩⟩

theorem witness_WheelBudgetsAreDealtInOrder :
    ∃ (b : Budgets) (c : Nat) (p : Nat), p < 4 ∧ b.shares.length = 4 ∧ ∀ (q : Nat), bitsOf (BitVec.toNat (nth 0 b.shares q)) (8 * c) 5 ≤ 16 :=
  ⟨{}, 2, 3, by
  refine ⟨by decide, by decide, fun q => ?_⟩
  rcases q with _ | _ | _ | _ | q <;> first | decide | simp [nth, bitsOf]⟩

theorem witness_HubPositionServesOneRequest :
    (∃ (h : HubId) (srv : Fin 12) (cls : Fin 3) (s : State) (r : HubReq), pickReq s h ↑srv ↑cls = some r) ∧
    (∃ (h : HubId) (srv : Fin 12) (cls : Fin 3) (s : State) (r : HubReq),
        pickReq s h ↑srv ↑cls = none ∧
        r ∈ (hubSt s h).reqs ∧ r.reading = false ∧ r.cls = ↑cls ∧ serverOf s h r = ↑srv ∧ reqWaits s r = false) ∧
    (∃ (h : HubId) (srv : Fin 12) (cls : Fin 3) (s : State), nextPos (countHeld h (↑srv) (↑cls) s) h ↑srv ↑cls = none) ∧
    (∃ (h : HubId) (srv : Fin 12) (cls : Fin 3) (s : State) (p : Nat), nextPos (countHeld h (↑srv) (↑cls) s) h ↑srv ↑cls = some p ∧ claimant (countHeld h (↑srv) (↑cls) s) h (↑srv) p = none) ∧
    (∃ (h : HubId) (srv : Fin 12) (cls : Fin 3) (s : State) (p : Nat) (r : HubReq) (paid : Bool),
        nextPos (countHeld h (↑srv) (↑cls) s) h ↑srv ↑cls = some p ∧
        claimant (countHeld h (↑srv) (↑cls) s) h (↑srv) p = some (r, paid)) :=
  ⟨⟨0, 8, 0, ddrOn [] { hubs := [(0, { reqs := [hreq false false] })] }, hreq false false, by decide⟩,
   ⟨0, 8, 0, ddrOn [] { hubs := [(0, { reqs := [hreq false false], used := [((8, 0, 0), 640)] })] }, hreq false false, by decide⟩,
   ⟨0, 8, 1, ddrOn [] { hubs := [(0, { reqs := [hreq false false] })] }, by decide⟩,
   ⟨1, 0, 2, {}, 4, by decide⟩,
   ⟨0, 8, 0, ddrOn [] { hubs := [(0, { reqs := [hreq false false] })] }, 0, hreq false false, true, by decide⟩⟩

theorem witness_DdrReadsReturnOrReport :
    (∃ (h : HubId) (c : Sys2Proof.Sub) (s : State) (r : HubReq), List.find? (fun (x : HubReq) => x.reading && decide (reqRegion s x = Region.ddr h c)) (hubSt s h).reqs = some r) ∧
    (∃ (h : HubId) (c : Sys2Proof.Sub) (s : State) (l : Nat) (rest : List Nat) (p : Nat), (subSt s (subNo h c)).fix = l :: rest ∧ nextPos s h (8 + ↑c) 1 = some p ∧ claimant s h (8 + ↑c) p = none) ∧
    (∃ (h : HubId) (c : Sys2Proof.Sub) (s : State) (l : Nat) (rest : List Nat) (p : Nat), (subSt s (subNo h c)).fix = l :: rest ∧ nextPos s h (8 + ↑c) 1 = some p ∧ (claimant s h (8 + ↑c) p).isSome = true) ∧
    (∃ (h : HubId) (c : Sys2Proof.Sub) (s : State), subServing s h c = true ∧ fon s (pgDdr h c) Fl.hubDdrMaintScrubEn = true ∧ positionFree s h (8 + ↑c) = true) ∧
    (∃ (h : HubId) (c : Sys2Proof.Sub) (s : State), (subServing s h c && fon s (pgDdr h c) Fl.hubDdrMaintScrubEn && positionFree s h (8 + ↑c)) = false) ∧
    (∃ (h : HubId) (c : Sys2Proof.Sub) (s : State), (subSt s (subNo h c)).riseAt < s.now / 1600000000) ∧
    (∃ (h : HubId) (c : Sys2Proof.Sub) (s : State), s.now / 1600000000 ≤ (subSt s (subNo h c)).riseAt) :=
  ⟨⟨0, 0, ddrOn [(pgHub 0, Fl.hubMemCfgSubch, 0), (pgLlc 0, Fl.hubLlcWayownPart, 0x55555555)] { hubs := [(0, { reqs := [hreq false true] })] }, hreq false true, by decide⟩,
   ⟨1, 3, { subs := [(7, { fix := [5, 6] })] }, 5, [6], 1, by decide⟩,
   ⟨0, 0, ddrOn [] { subs := [(0, { fix := [5, 6] })], hubs := [(0, { reqs := [{ hreq true false with cls := 1 }] })] }, 5, [6], 1, by decide⟩,
   ⟨0, 0, ddrOn [(pgDdr 0 0, Fl.hubDdrMaintScrubEn, 1)], by decide⟩,
   ⟨0, 0, ddrOn [(pgDdr 0 0, Fl.hubDdrMaintScrubEn, 0)], by decide⟩,
   ⟨1, 3, { now := 1600000000, subs := [(7, { riseAt := 0 })] }, by decide⟩,
   ⟨1, 3, { now := 1600000007, subs := [(7, { riseAt := 7 })] }, by decide⟩⟩

theorem witness_SubchannelMaintenance_3 (h : 0 < rfmLimit 0) :
    ∃ (h : HubId) (c : Sys2Proof.Sub) (s : State) (rank : Fin 2) (bank : Fin 32),
    subServing s h c = true ∧
    fon s (pgDdr h c) Fl.hubDdrMaintRfm = true ∧ Tab.get 0 (subSt s (subNo h c)).acts (↑rank * 32 + ↑bank) < rfmLimit (subNo h c) :=
  ⟨0, 0, ddrOn [(pgDdr 0 0, Fl.hubDdrMaintRfm, 1)], 0, 31, ⟨by decide, by decide, h⟩⟩

theorem witness_SubchannelMaintenance :
    (∃ (h : HubId) (c : Sys2Proof.Sub) (s : State) (rank : Fin 2),
        subServing s h c = true ∧
        ↑c < cfgSubs (memConfig s) ∧
        ↑rank ≤ Fl.hubMemCfgRanks.get (memConfig s) ∧
        ∀ (e : Nat × Nat × Bool),
        e ∈ (subSt s (subNo h c)).refs →
        e.fst = ↑rank → e.snd.fst + refreshEvery (fget s (pgDdr h c) Fl.hubDdrStatusRefrate) ≤ s.now) ∧
    (∃ (h : HubId) (c : Sys2Proof.Sub) (s : State) (rank : Fin 2),
        subServing s h c = true ∧
        ↑c < cfgSubs (memConfig s) ∧
        ↑rank ≤ Fl.hubMemCfgRanks.get (memConfig s) ∧
        ∃ (e : Nat × Nat × Bool),
        e ∈ (subSt s (subNo h c)).refs ∧
        e.fst = ↑rank ∧ s.now < e.snd.fst + refreshEvery (fget s (pgDdr h c) Fl.hubDdrStatusRefrate)) ∧
    (∃ (h : HubId) (c : Sys2Proof.Sub) (s : State) (rank : Fin 2) (bank : Fin 32),
        subServing s h c = true ∧
        fon s (pgDdr h c) Fl.hubDdrMaintRfm = true ∧ rfmLimit (subNo h c) ≤ Tab.get 0 (subSt s (subNo h c)).acts (↑rank * 32 + ↑bank)) ∧
    (∃ (h : HubId) (c : Sys2Proof.Sub) (s : State), subServing s h c = true ∧ fon s (pgDdr h c) Fl.hubDdrCalCtrlLiveEn = true ∧ calDue s h c = true) ∧
    (∃ (h : HubId) (c : Sys2Proof.Sub) (s : State), subServing s h c = true ∧ fon s (pgDdr h c) Fl.hubDdrCalCtrlLiveEn = false) ∧
    (∃ (h : HubId) (c : Sys2Proof.Sub) (s : State), subServing s h c = true ∧ calDue s h c = false) ∧
    (∃ (h : HubId) (c : Sys2Proof.Sub) (s : State), subServing s h c = true ∧ fon s (pgDdr h c) Fl.hubDdrStatusCalFast = true) :=
  ⟨⟨0, 0, ddrOn, 0, by decide⟩,
   ⟨0, 0, ddrOn [] { now := 10, subs := [(0, { refs := [(0, 10, false)] })] }, 0, by decide⟩,
   ⟨0, 0, ddrOn [(pgDdr 0 0, Fl.hubDdrMaintRfm, 1)] { subs := [(0, { acts := [(31, rfmLimit 0)] })] }, 0, 31, ⟨by decide, by decide, Nat.le_refl _⟩⟩,
   ⟨0, 0, ddrOn [(pgDdr 0 0, Fl.hubDdrCalCtrlLiveEn, 1)] { us := 10000000 }, by decide⟩,
   ⟨0, 0, ddrOn [(pgDdr 0 0, Fl.hubDdrCalCtrlLiveEn, 0)], by decide⟩,
   ⟨0, 0, ddrOn [(pgDdr 0 0, Fl.hubDdrCalCtrlLiveEn, 0)], by decide⟩,
   ⟨0, 0, ddrOn [(pgDdr 0 0, Fl.hubDdrStatusCalFast, 1)], by decide⟩⟩

theorem witness_LlcWaysFlushesAndPeriods :
    (∃ (h : HubId) (s : State) (w : Fin 16),
        Memory.wf s.mem = true ∧ fbit s (pgLlc h) Fl.hubLlcWaystatBusy ↑w = true ∧ ∀ (l : LlcLine), l ∈ (hubSt s h).lines → l.way ≠ ↑w) ∧
    (∃ (h : HubId) (s : State) (w : Fin 16),
        Memory.wf s.mem = true ∧ fbit s (pgLlc h) Fl.hubLlcWaystatBusy ↑w = true ∧ ∃ (l : LlcLine), l ∈ (hubSt s h).lines ∧ l.way = ↑w) ∧
    (∃ (h : HubId) (s : State) (who : Requester), Accepted s who (pgLlc h) 304 0) ∧
    (∃ (h : HubId) (s : State), (hubSt s h).flush ≠ 0 ∧ flushLeft s h = false) ∧
    (∃ (h : HubId) (s : State), (hubSt s h).flush = 0 ∨ flushLeft s h = true) ∧
    (∃ (h : HubId) (s : State) (srv : Fin 12), ∀ (i : Nat), i < min 16 (periodLen - posOf (hubSt s h) ↑srv) → claimant s h (↑srv) (posOf (hubSt s h) ↑srv + i) = none) ∧
    (∃ (h : HubId) (s : State) (srv : Fin 12) (i : Nat), i < min 16 (periodLen - posOf (hubSt s h) ↑srv) ∧ (claimant s h (↑srv) (posOf (hubSt s h) ↑srv + i)).isSome = true) ∧
    (∃ (h : HubId) (s : State), (hubSt s h).loadAt < s.us / 1000) ∧
    (∃ (h : HubId) (s : State), s.us / 1000 ≤ (hubSt s h).loadAt) :=
  ⟨⟨1, st [(pgLlc 1, Fl.hubLlcWaystatBusy, 2 ^ 15)] { mem := [(0, 1)] }, 15, by decide⟩,
   ⟨1, st [(pgLlc 1, Fl.hubLlcWaystatBusy, 2 ^ 15)] { mem := [(0, 1)], hubs := [(1, { lines := [⟨3, 15, false⟩] })] }, 15, by decide⟩,
   ⟨1, st [on], fw0, by simp only [accepted_iff]; decide⟩,
   ⟨0, { hubs := [(0, { flush := 1 })] }, by decide⟩,
   ⟨0, st [(pgLlc 0, Fl.hubLlcWaystatBusy, 1)] { hubs := [(0, { flush := 1 })] }, by decide⟩,
   ⟨1, {}, 11, by decide⟩,
   ⟨0, ddrOn [] { hubs := [(0, { reqs := [hreq false false] })] }, 8, 0, by decide⟩,
   ⟨0, { us := 1000 }, by decide⟩,
   ⟨0, { hubs := [(0, { flush := 1 })] }, by decide⟩⟩

theorem witness_PacketsAreReplayed :
    (∃ (k : LinkId) (s : State), linkState s k = 2) ∧
    (∃ (k : LinkId) (s : State), linkState s k = 2 ∧ 0 < (linkSt s k).toReplay) ∧
    (∃ (k : LinkId) (s : State), linkState s k = 2 ∧ (linkSt s k).gridAt + 1600000 ≤ s.now) ∧
    (∃ (k : LinkId) (s : State), linkState s k = 2 ∧ s.now < (linkSt s k).gridAt + 1600000) ∧
    (∃ (k : LinkId) (s : State),
        linkState s k = 2 ∧
        fget s (pgHub 0) Fl.hubLinkCtrlReplayLimit < (linkSt s k).replays ∧
        ∀ (o : Outstanding), o ∈ s.outstanding → regionOf s o.who (BitVec.toNat o.req.addr) ≠ Region.regs) ∧
    (∃ (k : LinkId) (s : State), linkState s k = 2 ∧ (linkSt s k).replays ≤ fget s (pgHub 0) Fl.hubLinkCtrlReplayLimit) :=
  ⟨⟨5, links 2, by decide⟩,
   ⟨5, links 2 [] { links := [(5, { toReplay := 2 })] }, by decide⟩,
   ⟨0, links 2 [] { now := 1600001, links := [(0, { gridAt := 1 })] }, by decide⟩,
   ⟨0, links 2 [] { now := 1600000, links := [(0, { gridAt := 1 })] }, by decide⟩,
   ⟨5, links 2 [] { links := [(5, { replays := 100000 })] }, by decide⟩,
   ⟨5, links 2, by decide⟩⟩

theorem witness_LinksTrainRetrainAndGoDown :
    (∃ (k : LinkId) (s : State),
        (∀ (o : Outstanding), o ∈ s.outstanding → regionOf s o.who (BitVec.toNat o.req.addr) ≠ Region.regs) ∧ linkState s k = 3) ∧
    (∃ (k : LinkId) (s : State),
        (∀ (o : Outstanding), o ∈ s.outstanding → regionOf s o.who (BitVec.toNat o.req.addr) ≠ Region.regs) ∧
        linkState s k = 1 ∧ linkPowered s k = true ∧ s.us ≤ (linkSt s k).trainAt + 30) ∧
    (∃ (k : LinkId) (s : State),
        (∀ (o : Outstanding), o ∈ s.outstanding → regionOf s o.who (BitVec.toNat o.req.addr) ≠ Region.regs) ∧
        linkState s k = 1 ∧ linkPowered s k = true ∧ (linkSt s k).trainAt + 30 ≤ s.us) ∧
    (∃ (k : LinkId) (s : State),
        (∀ (o : Outstanding), o ∈ s.outstanding → regionOf s o.who (BitVec.toNat o.req.addr) ≠ Region.regs) ∧
        (linkState s k = 3 ∨ linkState s k = 4) ∧
        k ≠ 3 ∧ ∃ (p : List LinkId), detourPath s (linkEnds k).fst (linkEnds k).snd = some p ∧ ∀ (j : LinkId), j ∈ p → linkState s j = 2) ∧
    (∃ (k : LinkId) (s : State),
        (∀ (o : Outstanding), o ∈ s.outstanding → regionOf s o.who (BitVec.toNat o.req.addr) ≠ Region.regs) ∧
        linkState s k = 2 ∧ ∀ (o : Outstanding), o ∈ s.outstanding → o.around ≠ some k) ∧
    (∃ (k : LinkId) (s : State) (who : Requester) (h : HubId),
        (∀ (o : Outstanding), o ∈ s.outstanding → regionOf s o.who (BitVec.toNat o.req.addr) ≠ Region.regs) ∧
        Accepted s who (pgHub h) 2080 0 ∧ fget s (pgHub h) Fl.lockCfg = 0 ∧ (fget s (pgHub 0) Fl.hubLinkCtrlForceDown).testBit ↑k = false) ∧
    (∃ (k : LinkId) (s : State) (who : Requester) (h : HubId),
        (∀ (o : Outstanding), o ∈ s.outstanding → regionOf s o.who (BitVec.toNat o.req.addr) ≠ Region.regs) ∧
        Accepted s who (pgHub h) 2080 0 ∧
        fget s (pgHub h) Fl.lockCfg = 0 ∧
        (fget s (pgHub 0) Fl.hubLinkCtrlForceDown).testBit ↑k = true ∧ linkPowered s k = true ∧ (linkSt s k).fails < 3) :=
  ⟨⟨5, links 3, by decide⟩,
   ⟨5, links 1 [] { us := 31, links := [(5, { trainAt := 1 })] }, by decide⟩,
   ⟨5, links 1 [] { us := 31, links := [(5, { trainAt := 1 })] }, by decide⟩,
   ⟨0, links 2 [(pgHub 0, Fl.hubLinkStatState 0, 3)], ⟨by decide, by decide, by decide, _, rfl, by decide⟩⟩,
   ⟨0, links 2, by decide⟩,
   ⟨5, links 2, fw0, 1, by simp only [accepted_iff]; decide⟩,
   ⟨5, links 4 [(pgHub 0, Fl.hubLinkCtrlForceDown, 63)], fw0, 0, by simp only [accepted_iff]; decide⟩⟩

theorem witness_RequestsIntoTheAddressSpace :
    (∃ (who : Requester) (q : Req) (s : State),
        (∀ (o : Outstanding), o ∈ s.outstanding → ∀ (k : LinkId), o.place ≠ ReqPlace.held k) ∧
        (∀ (o : Outstanding), o ∈ s.outstanding → o.id ≠ s.nextReq) ∧
        1 ≤ q.len ∧
        BitVec.toNat q.addr % 64 + q.len ≤ 64 ∧
        (q.write = true → q.data.length = q.len) ∧ (regionOf s who (BitVec.toNat q.addr) = Region.regs → q.write = false)) ∧
    (∃ (who : Requester) (q : Req) (s : State) (l : List LinkId) (x : PageKey × Nat),
        (∀ (o : Outstanding), o ∈ s.outstanding → ∀ (k : LinkId), o.place ≠ ReqPlace.held k) ∧
        (∀ (o : Outstanding), o ∈ s.outstanding → o.id ≠ s.nextReq) ∧
        1 ≤ q.len ∧
        BitVec.toNat q.addr % 64 + q.len ≤ 64 ∧
        (q.write = true → q.data.length = q.len) ∧
        regionOf s who (BitVec.toNat q.addr) = Region.regs ∧
        q.write = true ∧
        regTarget (BitVec.toNat q.addr) = some x ∧
        routeOf s (reqDie who) (regionDie (BitVec.toNat q.addr) (regionOf s who (BitVec.toNat q.addr))) = Route.path l ∧
        firewall s (reqPart s who) (reqSafe s who) q.write (BitVec.toNat q.addr)
        (regionOf s who (BitVec.toNat q.addr)) =
        none ∧
        (q.len ≠ 4 ∨ x.snd % 4 ≠ 0)) ∧
    (∃ (who : Requester) (q : Req) (s : State) (l : List LinkId) (x : PageKey × Nat) (d : Nat),
        (∀ (o : Outstanding), o ∈ s.outstanding → ∀ (k : LinkId), o.place ≠ ReqPlace.held k) ∧
        (∀ (o : Outstanding), o ∈ s.outstanding → o.id ≠ s.nextReq) ∧
        1 ≤ q.len ∧
        BitVec.toNat q.addr % 64 + q.len ≤ 64 ∧
        (q.write = true → q.data.length = q.len) ∧
        regionOf s who (BitVec.toNat q.addr) = Region.regs ∧
        q.write = true ∧
        regTarget (BitVec.toNat q.addr) = some x ∧
        routeOf s (reqDie who) (regionDie (BitVec.toNat q.addr) (regionOf s who (BitVec.toNat q.addr))) = Route.path l ∧
        firewall s (reqPart s who) (reqSafe s who) q.write (BitVec.toNat q.addr)
        (regionOf s who (BitVec.toNat q.addr)) =
        none ∧
        q.len = 4 ∧ x.snd % 4 = 0 ∧ writeRefusal s who x.fst x.snd (nth 0 (wordsOf q.data) 0) = some d) ∧
    (∃ (id : Nat) (o : Outstanding) (s : State),
        List.find? (fun (o : Outstanding) => decide (o.id = id) && decide (o.place = ReqPlace.answered)) s.outstanding = some o ∧
        o.epoch ≠ reqEpoch s o.who) ∧
    (∃ (id : Nat) (o : Outstanding) (s : State),
        List.find? (fun (o : Outstanding) => decide (o.id = id) && decide (o.place = ReqPlace.answered)) s.outstanding = some o ∧
        o.epoch = reqEpoch s o.who) :=
  ⟨⟨fw0, ⟨true, 0xFFFFFFFFFF, 1, [7]⟩, links 2, by decide⟩,
   ⟨fw0, ⟨true, 0x2005006100, 8, [1, 2, 3, 4, 5, 6, 7, 8]⟩, links 2, [], (pgSec, 0x100), by decide⟩,
   ⟨.fw 3 false, ⟨true, 0x2005006124, 4, [1, 0, 0, 0]⟩, links 2, [], (pgSec, 0x124), 4, by decide⟩,
   ⟨3, ⟨3, .tile 0 .s0, ⟨false, 0x1000000000, 64, []⟩, [], none, .answered, none, [], 1, 1, false, 0, 2, 0⟩, { outstanding := [⟨3, .tile 0 .s0, ⟨false, 0x1000000000, 64, []⟩, [], none, .answered, none, [], 1, 1, false, 0, 2, 0⟩] }, by decide⟩,
   ⟨3, ⟨3, .tile 0 .s0, ⟨false, 0x1000000000, 64, []⟩, [], none, .answered, none, [], 0, 1, false, 0, 2, 0⟩, { outstanding := [⟨3, .tile 0 .s0, ⟨false, 0x1000000000, 64, []⟩, [], none, .answered, none, [], 0, 1, false, 0, 2, 0⟩] }, by decide⟩⟩

theorem witness_CameraFramesBeginAndEnd :
    (∃ (n : Port) (s : State),
        pageOn s (pgCam n) = true ∧ (camSt s n).frame = none ∧ fget s (pgIsp n) Fl.state ≠ 1 ∧ fget s (pgTap n) Fl.state ≠ 1) ∧
    (∃ (n : Port) (s : State), (camSt s n).frame.isSome = true) ∧
    (∃ (n : Port) (s : State) (t0 : Nat), (camSt s n).frame = some t0 ∧ s.us < t0 + fget s (pgCam n) Fl.camFrameTimeoutUs) ∧
    (∃ (n : Port) (s : State) (t0 : Nat), (camSt s n).frame = some t0 ∧ t0 + fget s (pgCam n) Fl.camFrameTimeoutUs ≤ s.us) ∧
    (∃ (n : Port) (s : State), (camSt s n).frame = none) ∧
    (∃ (n : Port) (s : State), (camSt s n).frame = none ∧ (camSt s n).ended ≠ 0) ∧
    (∃ (n : Port) (s : State), (camSt s n).ended ≠ 0 ∧ portQuiet s n = true) ∧
    (∃ (n : Port) (s : State), (camSt s n).ended = 0 ∨ portQuiet s n = false) :=
  ⟨⟨0, st [on, (pgCam 0, Fl.state, 2)] { us := 9 }, by decide⟩,
   ⟨0, st [on, (pgCam 0, Fl.state, 2)] { cams := [(0, { frame := some 5 })] }, by decide⟩,
   ⟨0, st [on, (pgCam 0, Fl.state, 2), (pgCam 0, Fl.camFrameTimeoutUs, 5)] { us := 9, cams := [(0, { frame := some 5 })] }, 5, by decide⟩,
   ⟨0, st [on, (pgCam 0, Fl.state, 2), (pgCam 0, Fl.camFrameTimeoutUs, 5)] { us := 10, cams := [(0, { frame := some 5 })] }, 5, by decide⟩,
   ⟨0, st [on, (pgCam 0, Fl.state, 2)] { us := 10 }, by decide⟩,
   ⟨0, st [on, (pgCam 0, Fl.state, 2)] { cams := [(0, { ended := 2 })] }, by decide⟩,
   ⟨0, st [on, (pgCam 0, Fl.state, 2)] { cams := [(0, { ended := 2 })] }, by decide⟩,
   ⟨0, st [on, (pgCam 0, Fl.state, 2)] { cams := [(0, { frame := some 5 })] }, by decide⟩⟩

theorem witness_CameraPowerAndStartCheck :
    (∃ (n : Port) (s : State), s.softPend.contains (pgCam n) = false ∧ fget s (pgCam n) Fl.camPwrPwren = 1) ∧
    (∃ (n : Port) (s : State) (high : BitVec 19) (low : BitVec 19) (bridged : BitVec 19) (i : Nat),
        s.softPend.contains (pgCam n) = false ∧
        (camSt s n).phase = CamPhase.pinTest ∧
        List.find? (fun (i : Nat) => high.getLsbD i || low.getLsbD i || bridged.getLsbD i) (List.filter (pinUsed s n) (upTo 19)) =
        some i) ∧
    (∃ (n : Port) (s : State), s.softPend.contains (pgCam n) = false ∧ (camSt s n).phase = CamPhase.startCheck) ∧
    (∃ (n : Port) (s : State) (high : BitVec 19) (low : BitVec 19) (bridged : BitVec 19),
        (camSt s n).phase = CamPhase.pinTest ∧
        ∀ (i : Nat), i < 19 → pinUsed s n i = true → high.getLsbD i = false ∧ low.getLsbD i = false ∧ bridged.getLsbD i = false) ∧
    (∃ (n : Port) (s : State), (camSt s n).phase = CamPhase.pwrDelay ∧ (camSt s n).since + 1000 * fget s (pgCam n) Fl.camTestPwrDelay ≤ s.us) ∧
    (∃ (n : Port) (s : State), (camSt s n).phase = CamPhase.pwrDelay ∧ s.us < (camSt s n).since + 1000 * fget s (pgCam n) Fl.camTestPwrDelay) ∧
    (∃ (n : Port) (s : State) (obs : CamObs),
        (camSt s n).phase = CamPhase.startCheck ∧
        obs.pclk = true ∧
        obs.hs = true ∧
        obs.vs = true ∧
        (phaseHolds obs.hsActive (camW s n) = true ∨ phaseHolds obs.hsInactive (camW s n) = true) ∧
        (checkFound s n obs = 0 ∨ fon s (pgCam n) Fl.camTestAutoFix = true)) :=
  ⟨⟨0, st [on, (pgCam 0, Fl.camPwrPwren, 1)], by decide⟩,
   ⟨0, st [on, (pgCam 0, Fl.camSizeWidthM1, 3)] { us := 0, cams := [(0, { phase := .pinTest, since := 7 })] }, 4, 0, 0, 2, by decide⟩,
   ⟨0, st [on, (pgCam 0, Fl.camSizeWidthM1, 3)] { us := 0, cams := [(0, { phase := .startCheck, since := 7 })] }, by decide⟩,
   ⟨0, st [on, (pgCam 0, Fl.camSizeWidthM1, 3)] { us := 0, cams := [(0, { phase := .pinTest, since := 7 })] }, 0, 0, 0, by decide⟩,
   ⟨0, st [on, (pgCam 0, Fl.camSizeWidthM1, 3), (pgCam 0, Fl.camTestPwrDelay, 2)] { us := 2007, cams := [(0, { phase := .pwrDelay, since := 7 })] }, by decide⟩,
   ⟨0, st [on, (pgCam 0, Fl.camSizeWidthM1, 3), (pgCam 0, Fl.camTestPwrDelay, 2)] { us := 2006, cams := [(0, { phase := .pwrDelay, since := 7 })] }, by decide⟩,
   ⟨0, st [on, (pgCam 0, Fl.camSizeWidthM1, 3)] { us := 0, cams := [(0, { phase := .startCheck, since := 7 })] }, ⟨true, true, true, 9, 90, [4, 4, 4, 4], [5, 5, 5, 5], 6, 60, []⟩, by decide⟩⟩

theorem witness_RingsAndSharedEngines :
    (∃ (s : State) (r : RingId) (m : Sample) (rest : List Sample),
        (ringSt s r).samples = m :: rest ∧
        m.ready = true ∧
        unacked s (ringWho r) (bufAddr (ringSt s r) m.seq) (ringSt s r).stride = false ∧
        (decide (m.seq % ringBatch s r + 1 = ringBatch s r) = true → recsUnacked s r = false)) ∧
    (∃ (s : State) (r : RingId) (m : Sample) (rest : List Sample),
        (ringSt s r).samples = m :: rest ∧
        (m.ready = false ∨
        unacked s (ringWho r) (bufAddr (ringSt s r) m.seq) (ringSt s r).stride = true ∨
        decide (m.seq % ringBatch s r + 1 = ringBatch s r) = true ∧ recsUnacked s r = true)) ∧
    (∃ (s : State) (r : RingId), (ringSt s r).acks ≠ 0 ∧ recsUnacked s r = false) ∧
    (∃ (s : State) (r : RingId), (ringSt s r).acks = 0 ∨ recsUnacked s r = true) ∧
    (∃ (s : State) (who : Requester) (r : RingId) (count : Nat),
        Accepted s who (ringPage r) (ringOff r + 20) 0 ∧
        count < 64 ∧ autoChans s r = [] ∧ (ringGet s r 12 16 1 = 0 ∨ (ringSt s r).on = true)) ∧
    (∃ (s : State) (who : Requester) (r : RingId) (count : Nat), Accepted s who (ringPage r) (ringOff r + 20) 0 ∧ count < 64 ∧ autoChans s r ≠ []) ∧
    (∃ (s : State) (r : RingId),
        (ringSt s r).closing = true ∧
        batchOpen s r = true ∧
        (ringSt s r).seq + min (ringFree (ringSt s r)) (ringBatch s r - (ringSt s r).seq % ringBatch s r) < 2 ^ 32 ∧
        ∀ (m : Sample), m ∈ (ringSt s r).samples → m.seq < (ringSt s r).seq) ∧
    (∃ (s : State) (who : Requester) (e : SharedEng) (c : Chan) (v : Word),
        Accepted s who (pgEng e) (Fl.chSubCtlGo ↑c).off 0 ∧ ((BitVec.toNat v).testBit 0 = false ∨ fget s (pgEng e) (Fl.chAutoEn ↑c) = 1)) ∧
    (∃ (s : State) (who : Requester) (e : SharedEng) (c : Chan) (v : Word),
        Accepted s who (pgEng e) (Fl.chSubCtlGo ↑c).off 0 ∧
        (BitVec.toNat v).testBit 0 = true ∧ fget s (pgEng e) (Fl.chAutoEn ↑c) = 0 ∧ (engChan s e c).queue.length < 8) ∧
    (∃ (s : State) (who : Requester) (e : SharedEng) (c : Chan) (v : Word),
        Accepted s who (pgEng e) (Fl.chSubCtlGo ↑c).off 0 ∧
        (BitVec.toNat v).testBit 0 = true ∧ fget s (pgEng e) (Fl.chAutoEn ↑c) = 0 ∧ 8 ≤ (engChan s e c).queue.length) ∧
    (∃ (s : State) (c : Chan) (w : WorkEnt) (rest : List WorkEnt), TakesEntry s SharedEng.warp c w rest ∧ (warpMake c w (taken s SharedEng.warp c rest)).fst.wait = none) ∧
    (∃ (s : State) (c : Chan) (w : WorkEnt) (rest : List WorkEnt),
        TakesEntry s SharedEng.codec c w rest ∧
        within 1 3 (cdf s Fl.codecChModeMode c) = true ∧ (decodeMake c w (taken s SharedEng.codec c rest)).fst.wait = none) ∧
    (∃ (s : State) (c : Chan) (w : WorkEnt) (rest : List WorkEnt),
        TakesEntry s SharedEng.codec c w rest ∧
        within 4 5 (cdf s Fl.codecChModeMode c) = true ∧ (encodeMake c w (taken s SharedEng.codec c rest)).fst.wait = none) ∧
    (∃ (s : State) (c : Chan) (w : WorkEnt) (rest : List WorkEnt), TakesEntry s SharedEng.token c w rest ∧ (tokenMake c w (taken s SharedEng.token c rest)).fst.wait = none) :=
  ⟨⟨{ rings := [(.cam 0, { nbuf := 2, held := 1, samples := [⟨0, true, 0, 0, 5, 0⟩] })] }, .cam 0, ⟨0, true, 0, 0, 5, 0⟩, [], by decide⟩,
   ⟨{ rings := [(.cam 0, { nbuf := 2, held := 1, samples := [⟨0, false, 0, 0, 5, 0⟩] })] }, .cam 0, ⟨0, false, 0, 0, 5, 0⟩, [], by decide⟩,
   ⟨{ rings := [(.tap 3 1, { nbuf := 2, held := 1, acks := 1 })] }, .tap 3 1, by decide⟩,
   ⟨{ rings := [(.tap 3 1, { nbuf := 2, held := 1 })] }, .tap 3 1, by decide⟩,
   ⟨st [on], fw0, .cam 0, 63, by simp only [accepted_iff]; decide⟩,
   ⟨st [on, (pgEng .warp, Fl.chAutoEn 0, 1)], fw0, .cam 0, 3, by simp only [accepted_iff]; decide⟩,
   ⟨st [(pgCam 0, ⟨0x20C, 8, 5⟩, 1)] { rings := [(.cam 0, { nbuf := 2, held := 1, seq := 1, closing := true })] }, .cam 0, by decide⟩,
   ⟨st [on], fw0, .codec, 15, 0, by simp only [accepted_iff]; decide⟩,
   ⟨st [on], fw0, .codec, 15, 1, by simp only [accepted_iff]; decide⟩,
   ⟨st [on] { chans := [((.codec, 15), { queue := List.replicate 8 ⟨0, 64, false, 0, none⟩ })] }, fw0, .codec, 15, 1, by simp only [accepted_iff]; decide⟩,
   ⟨st [on, (pgEng .warp, Fl.state, 2), (pgEng .warp, Fl.chOwnEn 0, 1), (pgEng .warp, Fl.engSliceEnEn, 1), (pgEng .warp, ⟨0x42C, 16, 1⟩, 1)] { chans := [((.warp, 0), { queue := [⟨0, 64, false, 0, none⟩] })] }, 0, ⟨0, 64, false, 0, none⟩, [], by simp only [takes_iff]; decide⟩,
   ⟨st [on, (pgEng .codec, Fl.state, 2), (pgEng .codec, Fl.chOwnEn 0, 1), (pgEng .codec, Fl.engSliceEnEn, 1), (pgEng .codec, ⟨0x42C, 16, 1⟩, 1), (pgEng .codec, Fl.codecChModeMode 0, 1)] { chans := [((.codec, 0), { queue := [⟨0, 64, true, 0, none⟩] })] }, 0, ⟨0, 64, true, 0, none⟩, [], by simp only [takes_iff]; decide⟩,
   ⟨st [on, (pgEng .codec, Fl.state, 2), (pgEng .codec, Fl.chOwnEn 0, 1), (pgEng .codec, Fl.engSliceEnEn, 1), (pgEng .codec, ⟨0x42C, 16, 1⟩, 1), (pgEng .codec, Fl.codecChModeMode 0, 5)] { chans := [((.codec, 0), { queue := [⟨0, 64, true, 0, none⟩] })] }, 0, ⟨0, 64, true, 0, none⟩, [], by simp only [takes_iff]; decide⟩,
   ⟨st [on, (pgEng .token, Fl.state, 2), (pgEng .token, Fl.chOwnEn 0, 1), (pgEng .token, Fl.engSliceEnEn, 1), (pgEng .token, ⟨0x42C, 16, 1⟩, 1)] { chans := [((.token, 0), { queue := [⟨0, 64, true, 0, none⟩] })] }, 0, ⟨0, 64, true, 0, none⟩, [], by simp only [takes_iff]; decide⟩⟩

theorem witness_SdioPortCommands_8 (h : Config.vddioSd18 0 = true) :
    ∃ (p : PartId) (s : State), hears s p = true ∧ Config.vddioSd18 ↑p = true :=
  ⟨0, st [on] { sdio := [(0, { card := .selected })] }, ⟨by decide, h⟩⟩

theorem witness_SdioPortCommands_9 (h : Config.vddioSd18 0 = false) :
    ∃ (p : PartId) (s : State), hears s p = true ∧ Config.vddioSd18 ↑p = false :=
  ⟨0, st [on] { sdio := [(0, { card := .selected })] }, ⟨by decide, h⟩⟩

theorem witness_SdioPortCommands_11 (h : Config.vddioSd18 0 = true) :
    ∃ (p : PartId) (s : State), hears s p = true ∧ (sdioSt s p).card = CardState.selected ∧ Config.vddioSd18 ↑p = true :=
  ⟨0, st [on] { sdio := [(0, { card := .selected })] }, ⟨by decide, by decide, h⟩⟩

theorem witness_SdioPortCommands :
    (∃ (p : PartId) (s : State), hears s p = false) ∧
    (∃ (p : PartId) (s : State), hears s p = true) ∧
    (∃ (p : PartId) (s : State), hears s p = true ∧ ((sdioSt s p).card = CardState.idle ∨ (sdioSt s p).card = CardState.standby)) ∧
    (∃ (p : PartId) (arg : Word) (s : State), hears s p = true ∧ (sdioSt s p).card = CardState.standby ∧ argRca arg = (sdioSt s p).rca) ∧
    (∃ (p : PartId) (arg : Word) (s : State), hears s p = true ∧ (sdioSt s p).card = CardState.selected ∧ argRca arg ≠ (sdioSt s p).rca) ∧
    (∃ (p : PartId) (s : State), hears s p = true ∧ (sdioSt s p).card = CardState.selected) ∧
    (∃ (p : PartId) (arg : Word) (s : State), hears s p = true ∧ (sdioSt s p).card = CardState.standby ∧ argRca arg ≠ (sdioSt s p).rca) ∧
    (∃ (p : PartId) (arg : Word) (s : State), hears s p = true ∧ (sdioSt s p).card = CardState.selected ∧ argRca arg = (sdioSt s p).rca) ∧
    (∃ (p : PartId) (arg : Word) (s : State),
        hears s p = true ∧ ((sdioSt s p).card = CardState.standby ∨ (sdioSt s p).card = CardState.selected) ∧ argRca arg = (sdioSt s p).rca) ∧
    (∃ (p : PartId) (s : State), hears s p = true ∧ ((sdioSt s p).card ≠ CardState.selected ∨ Config.vddioSd18 ↑p = false)) ∧
    (∃ (p : PartId) (arg : Word) (s : State), hears s p = true ∧ argRca arg ≠ (sdioSt s p).rca) ∧
    (∃ (p : PartId) (s : State) (idx : Fin 64), hears s p = true ∧ isSubset ↑idx = false) :=
  ⟨⟨3, {}, by decide⟩,
   ⟨0, st [on] { sdio := [(0, { card := .idle })] }, by decide⟩,
   ⟨0, st [on] { sdio := [(0, { card := .idle })] }, by decide⟩,
   ⟨0, 0x70000, st [on] { sdio := [(0, { card := .standby, rca := 7 })] }, by decide⟩,
   ⟨0, 0x60000, st [on] { sdio := [(0, { card := .selected, rca := 7 })] }, by decide⟩,
   ⟨0, st [on] { sdio := [(0, { card := .selected })] }, by decide⟩,
   ⟨0, 0x60000, st [on] { sdio := [(0, { card := .standby, rca := 7 })] }, by decide⟩,
   ⟨0, 0x70000, st [on] { sdio := [(0, { card := .selected, rca := 7 })] }, by decide⟩,
   ⟨0, 0x70000, st [on] { sdio := [(0, { card := .selected, rca := 7 })] }, by decide⟩,
   ⟨0, st [on] { sdio := [(0, { card := .standby })] }, ⟨by decide, Or.inl (by decide)⟩⟩,
   ⟨0, 0x60000, st [on] { sdio := [(0, { card := .selected, rca := 7 })] }, by decide⟩,
   ⟨0, st [on] { sdio := [(0, { card := .standby })] }, 1, by decide⟩⟩

theorem witness_SdioTransfers :
    (∃ (p : PartId) (s : State) (arg : Word), (sdioSt s p).card = CardState.selected ∧ hears s p = true ∧ argFn arg = 0 ∧ argWrite arg = false) ∧
    (∃ (p : PartId) (s : State) (arg : Word), (sdioSt s p).card = CardState.selected ∧ hears s p = true ∧ 2 < argFn arg) ∧
    (∃ (p : PartId) (s : State) (arg : Word) (a : Nat),
        (sdioSt s p).card = CardState.selected ∧
        hears s p = true ∧
        argFn arg = 1 ∧
        sdioAddr s p 1 (argAddr arg) = some a ∧
        inRegs s p 1 (argAddr arg) = false ∧
        regTarget a = none ∧
        grantOf s (Requester.host p) (argWrite arg) a = Grant.served ∧ argWrite arg = true ∧ bitAt arg 27 = false) ∧
    (∃ (p : PartId) (s : State) (arg : Word) (a : Nat),
        (sdioSt s p).card = CardState.selected ∧
        hears s p = true ∧
        argFn arg = 1 ∧
        sdioAddr s p 1 (argAddr arg) = some a ∧
        inRegs s p 1 (argAddr arg) = false ∧
        regTarget a = none ∧ grantOf s (Requester.host p) (argWrite arg) a = Grant.served ∧ argWrite arg = false) ∧
    (∃ (p : PartId) (s : State) (arg : Word) (a : Nat),
        (sdioSt s p).card = CardState.selected ∧
        hears s p = true ∧
        argFn arg = 1 ∧
        sdioAddr s p 1 (argAddr arg) = some a ∧
        inRegs s p 1 (argAddr arg) = false ∧ regTarget a = none ∧ (fnWaits s p 1 (argWrite arg) (argAddr arg)).isSome = true) ∧
    (∃ (p : PartId) (s : State) (arg : Word), (sdioSt s p).card = CardState.selected ∧ transfers s p = true ∧ 2 < argFn arg) ∧
    (∃ (p : PartId) (s : State) (arg : Word),
        (sdioSt s p).card = CardState.selected ∧ transfers s p = true ∧ argFn arg = 0 ∧ argWrite arg = false ∧ bitAt arg 27 = false) ∧
    (∃ (p : PartId) (s : State) (arg : Word) (d : List Byte),
        (sdioSt s p).card = CardState.selected ∧
        transfers s p = true ∧
        argFn arg = 1 ∧
        (bitAt arg 27 = true → 1 ≤ blockSize s p 1 ∧ blockSize s p 1 ≤ 512) ∧
        ∀ (c : Nat × Nat × Nat),
        c ∈ pieces53 s p arg d →
        inRegs s p 1 c.fst = false ∧
        regTarget (winBase s p + c.fst % 131072) = none ∧
        grantOf s (Requester.host p) (argWrite arg) (winBase s p + c.fst % 131072) = Grant.served) ∧
    (∃ (p : PartId) (s : State) (d : List Byte), (sdioSt s p).card = CardState.selected ∧ transfers s p = true ∧ d.length = 64 ∧ (sdioSt s p).toFw.length < 8) ∧
    (∃ (p : PartId) (s : State) (d : List Byte), (sdioSt s p).card = CardState.selected ∧ transfers s p = true ∧ d.length = 64 ∧ 8 ≤ (sdioSt s p).toFw.length) ∧
    (∃ (p : PartId) (s : State) (m : List Byte) (rest : List (List Byte)), (sdioSt s p).card = CardState.selected ∧ transfers s p = true ∧ (sdioSt s p).toHost = m :: rest) ∧
    (∃ (p : PartId) (s : State), (sdioSt s p).card = CardState.selected ∧ transfers s p = true ∧ (sdioSt s p).toHost = []) ∧
    (∃ (p : PartId) (s : State), (sdioSt s p).card = CardState.selected ∧ transfers s p = true ∧ bulkSize s p = 0) ∧
    (∃ (p : PartId) (s : State), (sdioSt s p).card = CardState.selected ∧ transfers s p = true ∧ ↑p = 0 ∧ s.boot.push = true ∧ bulkSize s p ≠ 0) ∧
    (∃ (p : PartId) (s : State) (d : List Byte),
        (sdioSt s p).card = CardState.selected ∧
        transfers s p = true ∧
        d ≠ [] ∧
        s.boot.push = false ∧
        bulkSize s p ≠ 0 ∧ d.length ≤ 512 ∧ (sdioSt s p).used + d.length ≤ bulkSize s p ∧ bulkWait s p d.length = none) ∧
    (∃ (p : PartId) (s : State) (d : List Byte),
        (sdioSt s p).card = CardState.selected ∧
        transfers s p = true ∧
        d ≠ [] ∧
        s.boot.push = false ∧
        bulkSize s p ≠ 0 ∧ d.length ≤ 512 ∧ (sdioSt s p).used + d.length ≤ bulkSize s p ∧ (bulkWait s p d.length).isSome = true) ∧
    (∃ (p : PartId) (s : State) (d : List Byte),
        (sdioSt s p).card = CardState.selected ∧
        transfers s p = true ∧ d ≠ [] ∧ s.boot.push = false ∧ bulkSize s p ≠ 0 ∧ bulkSize s p < (sdioSt s p).used + min 512 d.length) ∧
    (∃ (p : PartId) (s : State) (bs : List (List Byte)) (a : Nat), (sdioSt s p).card = CardState.selected ∧ (sdioSt s p).bulk = some (bs, a) ∧ a + 10000 ≤ s.us) ∧
    (∃ (p : PartId) (s : State) (bs : List (List Byte)) (a : Nat), (sdioSt s p).card = CardState.selected ∧ (sdioSt s p).bulk = some (bs, a) ∧ s.us < a + 10000) :=
  ⟨⟨0, st [on, (pgSdio 0, ⟨0x11C, 0, 32⟩, 512)] { sdio := [(0, { card := .selected })] }, 0x200, by decide⟩,
   ⟨0, st [on, (pgSdio 0, ⟨0x11C, 0, 32⟩, 512)] { sdio := [(0, { card := .selected })] }, 0x30000000, by decide⟩,
   ⟨0, links 2 [(pgDdr 0 0, Fl.state, 2), (pgSdio 0, Fl.sdioWinBaseLoBase, 0), (pgSdio 0, Fl.sdioWinBaseHiBase, 0)] { sdio := [(0, { card := .selected })] }, 0x90000202, 1, by decide⟩,
   ⟨0, links 2 [(pgDdr 0 0, Fl.state, 2), (pgSdio 0, Fl.sdioWinBaseLoBase, 0), (pgSdio 0, Fl.sdioWinBaseHiBase, 0)] { sdio := [(0, { card := .selected })] }, 0x10000202, 1, by decide⟩,
   ⟨0, links 1 [(pgDdr 0 0, Fl.state, 2), (pgSdio 0, ⟨0x11C, 0, 32⟩, 512), (pgSdio 0, Fl.sdioWinBaseHiBase, 0)] { sdio := [(0, { card := .selected })] }, 0x10000202, 67108865, by decide⟩,
   ⟨0, st [on, (pgSdio 0, ⟨0x11C, 0, 32⟩, 512)] { sdio := [(0, { card := .selected })] }, 0x30000000, by decide⟩,
   ⟨0, st [on, (pgSdio 0, ⟨0x11C, 0, 32⟩, 512)] { sdio := [(0, { card := .selected })] }, 0x200, by decide⟩,
   ⟨0, links 2 [(pgDdr 0 0, Fl.state, 2), (pgSdio 0, ⟨0x11C, 0, 32⟩, 512), (pgSdio 0, Fl.sdioWinBaseHiBase, 0)] { sdio := [(0, { card := .selected })] }, 0x90000804, [1, 2, 3, 4], by decide⟩,
   ⟨0, st [on, (pgSdio 0, ⟨0x11C, 0, 32⟩, 512)] { sdio := [(0, { card := .selected, toFw := List.replicate 7 [] })] }, List.replicate 64 0, by decide⟩,
   ⟨0, st [on, (pgSdio 0, ⟨0x11C, 0, 32⟩, 512)] { sdio := [(0, { card := .selected, toFw := List.replicate 8 [] })] }, List.replicate 64 0, by decide⟩,
   ⟨0, st [on, (pgSdio 0, ⟨0x11C, 0, 32⟩, 512)] { sdio := [(0, { card := .selected, toHost := [[1]] })] }, [1], [], by decide⟩,
   ⟨0, st [on, (pgSdio 0, ⟨0x11C, 0, 32⟩, 512)] { sdio := [(0, { card := .selected })] }, by decide⟩,
   ⟨0, st [on] { sdio := [(0, { card := .selected })] }, by decide⟩,
   ⟨0, st [on, (pgSdio 0, ⟨0x11C, 0, 32⟩, 512)] { sdio := [(0, { card := .selected })], boot := { push := true } }, by decide⟩,
   ⟨0, links 2 [(pgDdr 0 0, Fl.state, 2), (pgSdio 0, ⟨0x11C, 0, 32⟩, 512), (pgSdio 0, Fl.sdioWinBaseHiBase, 0)] { sdio := [(0, { card := .selected, used := 511 })] }, [1], by decide⟩,
   ⟨0, st [on, (pgSdio 0, ⟨0x11C, 0, 32⟩, 512)] { sdio := [(0, { card := .selected, used := 511 })] }, [1], by decide⟩,
   ⟨0, links 2 [(pgDdr 0 0, Fl.state, 2), (pgSdio 0, ⟨0x11C, 0, 32⟩, 512), (pgSdio 0, Fl.sdioWinBaseHiBase, 0)] { sdio := [(0, { card := .selected, used := 512 })] }, [1], by decide⟩,
   ⟨0, st [on, (pgSdio 0, ⟨0x11C, 0, 32⟩, 512)] { us := 10000, sdio := [(0, { card := .selected, bulk := some ([[1]], 0) })] }, [[1]], 0, by decide⟩,
   ⟨0, st [on, (pgSdio 0, ⟨0x11C, 0, 32⟩, 512)] { us := 9999, sdio := [(0, { card := .selected, bulk := some ([[1]], 0) })] }, [[1]], 0, by decide⟩⟩

theorem witness_JobsAreSubmittedReleasedAndStarted :
    (∃ (p : PartId) (s : State) (who : Requester) (v : Word),
        Accepted s who (pgPart p) 532 0 ∧
        fget s pgPwr Fl.pwrIdleState ≠ 1 ∧ fget s (pgPart p) Fl.lockCfg = 0 ∧ Fl.partJobSubHiGo.get v = 1 ∧ fwRuns s = false) ∧
    (∃ (p : PartId) (s : State) (who : Requester) (v : Word),
        Accepted s who (pgPart p) 532 0 ∧
        fget s pgPwr Fl.pwrIdleState ≠ 1 ∧
        fget s (pgPart p) Fl.lockCfg = 0 ∧
        Fl.partJobSubHiGo.get v = 1 ∧ fwRuns s = true ∧ ∀ (x : PartId × Nat), x ∈ s.submits → x.fst ≠ p) ∧
    (∃ (p : PartId) (s : State) (j : JobRun),
        (fwRuns s = false ∨ ∀ (x : PartId × Nat), x ∈ s.submits → x.fst ≠ p) ∧
        List.find? (fun (j : JobRun) => decide (j.part = p) && canRelease s j) s.jobs = some j) ∧
    (∃ (p : PartId) (s : State) (j : JobRun), placeHead s p = some j ∧ inReserve s p = true) ∧
    (∃ (p : PartId) (s : State) (j : JobRun),
        placeHead s p = some j ∧
        inReserve s p = false ∧ barHolders s p j.words = [] ∧ jwTiles j.words ≤ (List.filter (tileIdle s p) (maskTiles s p)).length) ∧
    (∃ (p : PartId) (s : State) (j : JobRun),
        placeHead s p = some j ∧
        inReserve s p = false ∧
        ¬(barHolders s p j.words = [] ∧ jwTiles j.words ≤ (List.filter (tileIdle s p) (maskTiles s p)).length) ∧ jwSafe j.words = false) ∧
    (∃ (p : PartId) (s : State) (j : JobRun),
        placeHead s p = some j ∧
        inReserve s p = false ∧
        ¬(barHolders s p j.words = [] ∧ jwTiles j.words ≤ (List.filter (tileIdle s p) (maskTiles s p)).length) ∧
        jwSafe j.words = true ∧ victims s j (List.filter (tileIdle s p) (maskTiles s p)).length = none) ∧
    (∃ (p : PartId) (s : State) (j : JobRun) (vs : List JobRun),
        placeHead s p = some j ∧
        inReserve s p = false ∧
        ¬(barHolders s p j.words = [] ∧ jwTiles j.words ≤ (List.filter (tileIdle s p) (maskTiles s p)).length) ∧
        jwSafe j.words = true ∧
        victims s j (List.filter (tileIdle s p) (maskTiles s p)).length = some vs ∧ ∀ (v : JobRun), v ∈ vs → v.jid ≠ j.jid) ∧
    (∃ (p : PartId) (s : State) (j : JobRun) (l : List LinkId) (ws : List Word),
        fwRuns s = true ∧
        findJob s p j.jid = some j ∧
        j.stage = JobStage.loading ∧
        tilesReady s j = true ∧
        routeOf s Die.xd Die.cd = Route.path l ∧
        (if j.isFb = true then Fetch.got j.load else fetchList s (Requester.fw p (jwSafe j.words)) listFuel (jwProg j.words)) =
        Fetch.got ws ∧
        firstWait s (Requester.fw p (jwSafe j.words)) (copySources ws.length ws) = none ∧
        (runList (Requester.fw p (jwSafe j.words)) j.tiles j.tiles j.resident (jwWset j.words) ws.length ws
        (giveTiles j s)).snd =
        none) ∧
    (∃ (p : PartId) (s : State) (j : JobRun) (l : List LinkId) (g : Option Grant),
        fwRuns s = true ∧
        findJob s p j.jid = some j ∧
        j.stage = JobStage.loading ∧
        tilesReady s j = true ∧
        (routeOf s Die.xd Die.cd = Route.path l ∧
        (if j.isFb = true then Fetch.got j.load
        else fetchList s (Requester.fw p (jwSafe j.words)) listFuel (jwProg j.words)) =
        Fetch.fails g ∨
        routeOf s Die.xd Die.cd = Route.noRoute) ∧
        ∀ (x : JobRun), x ∈ s.jobs → x.jid = j.jid → x = j) ∧
    (∃ (p : PartId) (s : State) (j : JobRun), fwRuns s = true ∧ findJob s p j.jid = some j ∧ canResume s j = true) ∧
    (∃ (p : PartId) (s : State) (j : JobRun),
        fwRuns s = true ∧ findJob s p j.jid = some j ∧ j.stage = JobStage.restoring ∧ ∀ (t : TileId), t ∈ j.tiles → ctxBusy s t = false) ∧
    (∃ (p : PartId) (s : State) (who : Requester), Accepted s who (pgPart p) 544 0 ∧ fget s pgPwr Fl.pwrIdleState ≠ 1) ∧
    (∃ (p : PartId) (s : State) (who : Requester), partReaches s (reqPart s who) (pgPart p) = true ∧ mayReadBy s (reqPart s who) (pgPart p) 512 = true) :=
  ⟨⟨0, st [on], fw0, Fl.partJobSubHiGo.put 0 1, by simp only [accepted_iff]; decide⟩,
   ⟨0, fwOn [], fw0, Fl.partJobSubHiGo.put 0 1, by simp only [accepted_iff]; decide⟩,
   ⟨0, { jobs := [{ jr .queued with trig := true }] }, { jr .queued with trig := true }, by decide⟩,
   ⟨0, counted 900 { jobs := [jr .released [0x1000000]], window := [(0, some ⟨0, 1000, 100, false⟩)] }, jr .released [0x1000000], by decide⟩,
   ⟨0, st [(pgPart 0, Fl.partTilesMask 0, 1)] { jobs := [jr .released [0x1000000]] }, jr .released [0x1000000], by decide⟩,
   ⟨0, st [(pgPart 0, Fl.partTilesMask 0, 1), (pgPart 0, Fl.partTilesMask 1, 0), (pgPart 0, Fl.partTilesMask 2, 0)] { jobs := [jr .released [0x2000000]] }, jr .released [0x2000000], by decide⟩,
   ⟨0, st [(pgPart 0, Fl.partTilesMask 0, 1), (pgPart 0, Fl.partTilesMask 1, 0), (pgPart 0, Fl.partTilesMask 2, 0)] { jobs := [jr .released [0x2010000]] }, jr .released [0x2010000], by decide⟩,
   ⟨0, st [(pgPart 0, Fl.partTilesMask 0, 3), (pgPart 0, Fl.partTilesMask 1, 0), (pgPart 0, Fl.partTilesMask 2, 0)] { jobs := [jr .released [0x2010000], { jr .running [0, 0, 0, 0, 0, 0, 0, 0, 0, 0, 0, 0x1000] with jid := 6, tiles := [1] }] }, jr .released [0x2010000], [{ jr .running [0, 0, 0, 0, 0, 0, 0, 0, 0, 0, 0, 0x1000] with jid := 6, tiles := [1] }], by decide⟩,
   ⟨0, { links 2 ([pgTile 0, pgSeq 0, pgLane 0, pgVec 0, pgSpad 0, pgStrm 0 0, pgStrm 0 1].map (fun pg => (pg, Fl.state, 2))) { jobs := [{ jr .loading with isFb := true, load := [3, 0] }] } with boot := { running := true } }, { jr .loading with isFb := true, load := [3, 0] }, [2], [3, 0], ⟨by decide, by decide, by decide, by decide, by decide, rfl, by decide, by decide⟩⟩,
   ⟨0, { links 4 ([pgTile 0, pgSeq 0, pgLane 0, pgVec 0, pgSpad 0, pgStrm 0 0, pgStrm 0 1].map (fun pg => (pg, Fl.state, 2))) { jobs := [{ jr .loading with isFb := true, load := [3, 0] }] } with boot := { running := true } }, { jr .loading with isFb := true, load := [3, 0] }, [], none, ⟨by decide, by decide, by decide, by decide, Or.inr (by decide), by decide⟩⟩,
   ⟨0, fwOn ([(pgPart 0, Fl.partTilesMask 0, 1), (pgPart 0, Fl.partTilesMask 1, 0), (pgPart 0, Fl.partTilesMask 2, 0)] ++ [pgTile 0, pgSeq 0, pgLane 0, pgVec 0, pgSpad 0, pgStrm 0 0, pgStrm 0 1].map (fun pg => (pg, Fl.state, 2))) { jobs := [jr .preempted] }, jr .preempted, by decide⟩,
   ⟨0, fwOn [] { jobs := [jr .restoring] }, jr .restoring, by decide⟩,
   ⟨0, st [on], fw0, by simp only [accepted_iff]; decide⟩,
   ⟨0, {}, fw0, by decide⟩⟩

theorem witness_JobsEndMissAndAreCancelled :
    (∃ (p : PartId) (s : State) (j : JobRun),
        findJob s p j.jid = some j ∧
        hasEnded s j = true ∧
        j.jid < s.nextJid ∧
        firstWait s (Requester.fw p (jwSafe j.words))
        [(fgetAddr s (pgPart p) Fl.partCplBaseLoBase Fl.partCplBaseHiBase + 32 * j.entry, 32)] =
        none) ∧
    (∃ (p : PartId) (s : State) (j : JobRun), findJob s p j.jid = some j ∧ hasEnded s j = false) ∧
    (∃ (p : PartId) (s : State) (j : JobRun) (m : Nat) (b : MarkBudget),
        findJob s p j.jid = some j ∧
        watched j = true ∧ j.part = p ∧ j.marks[m]? = some b ∧ markReached j b = false ∧ j.start + b.deadline ≤ partCount s p) ∧
    (∃ (p : PartId) (s : State) (j : JobRun) (m : Nat) (b : MarkBudget),
        findJob s p j.jid = some j ∧
        watched j = true ∧ j.part = p ∧ j.marks[m]? = some b ∧ markReached j b = false ∧ partCount s p < j.start + b.deadline) ∧
    (∃ (p : PartId) (s : State) (j : JobRun),
        findJob s p j.jid = some j ∧ watched j = true ∧ j.part = p ∧ jwBudget j.words ≠ 0 ∧ j.start + jwBudget j.words ≤ partCount s p) ∧
    (∃ (p : PartId) (s : State) (j : JobRun), findJob s p j.jid = some j ∧ watched j = true ∧ j.part = p ∧ partCount s p < j.start + jwBudget j.words) ∧
    (∃ (p : PartId) (s : State) (w : FrameWin), windowOf s p = some w ∧ w.reserved = false ∧ inReserve s p = true) ∧
    (∃ (p : PartId) (s : State) (w : FrameWin), windowOf s p = some w ∧ (w.reserved = true ∨ inReserve s p = false)) ∧
    (∃ (p : PartId) (s : State) (w : FrameWin), windowOf s p = some w ∧ w.start + w.len ≤ partCount s p) ∧
    (∃ (p : PartId) (s : State) (w : FrameWin), windowOf s p = some w ∧ partCount s p < w.start + w.len) ∧
    (∃ (p : PartId) (s : State) (who : Requester) (v : Word) (j : JobRun),
        Accepted s who (pgPart p) 540 0 ∧
        fget s pgPwr Fl.pwrIdleState ≠ 1 ∧
        Fl.partJobCancelGo.get v = 1 ∧
        List.find?
        (fun (j : JobRun) =>
        decide (j.part = p) && j.stage != JobStage.ending && decide (jwId j.words = Fl.partJobCancelJobId.get v))
        s.jobs =
        some j ∧
        j.stage = JobStage.queued) ∧
    (∃ (p : PartId) (s : State) (who : Requester) (v : Word) (j : JobRun),
        Accepted s who (pgPart p) 540 0 ∧
        fget s pgPwr Fl.pwrIdleState ≠ 1 ∧
        Fl.partJobCancelGo.get v = 1 ∧
        List.find?
        (fun (j : JobRun) =>
        decide (j.part = p) && j.stage != JobStage.ending && decide (jwId j.words = Fl.partJobCancelJobId.get v))
        s.jobs =
        some j ∧
        j.stage ≠ JobStage.queued) ∧
    (∃ (p : PartId) (s : State) (who : Requester), Accepted s who (pgPart p) 520 0 ∧ fget s pgPwr Fl.pwrIdleState ≠ 1) :=
  ⟨⟨0, links 2 [(pgDdr 0 0, Fl.state, 2)] { jobs := [{ jr .running with left := [0] }], nextJid := 6 }, { jr .running with left := [0] }, by decide⟩,
   ⟨0, counted 149 { jobs := [jr .running [0, 0, 0, 0, 0, 0, 0, 0, 50]] }, jr .running [0, 0, 0, 0, 0, 0, 0, 0, 50], by decide⟩,
   ⟨0, counted 200 { jobs := [jr .running] }, jr .running, 0, ⟨2, 100⟩, by decide⟩,
   ⟨0, counted 199 { jobs := [jr .running] }, jr .running, 0, ⟨2, 100⟩, by decide⟩,
   ⟨0, counted 150 { jobs := [jr .running [0, 0, 0, 0, 0, 0, 0, 0, 50]] }, jr .running [0, 0, 0, 0, 0, 0, 0, 0, 50], by decide⟩,
   ⟨0, counted 149 { jobs := [jr .running [0, 0, 0, 0, 0, 0, 0, 0, 50]] }, jr .running [0, 0, 0, 0, 0, 0, 0, 0, 50], by decide⟩,
   ⟨0, counted 999 { window := [(0, some ⟨0, 1000, 100, false⟩)] }, ⟨0, 1000, 100, false⟩, by decide⟩,
   ⟨0, counted 899 { window := [(0, some ⟨0, 1000, 100, false⟩)] }, ⟨0, 1000, 100, false⟩, by decide⟩,
   ⟨0, counted 1000 { window := [(0, some ⟨0, 1000, 100, false⟩)] }, ⟨0, 1000, 100, false⟩, by decide⟩,
   ⟨0, counted 999 { window := [(0, some ⟨0, 1000, 100, false⟩)] }, ⟨0, 1000, 100, false⟩, by decide⟩,
   ⟨0, st [on] { jobs := [jr .queued] }, fw0, Fl.partJobCancelGo.put 0 1, jr .queued, by simp only [accepted_iff]; decide⟩,
   ⟨0, st [on] { jobs := [jr .running] }, fw0, Fl.partJobCancelGo.put 0 1, jr .running, by simp only [accepted_iff]; decide⟩,
   ⟨0, st [on], fw0, by simp only [accepted_iff]; decide⟩⟩

theorem witness_ContextsAreSavedAndRestored :
    (∃ (t : TileId) (s : State) (who : Requester), Accepted s who (pgTile t) 1288 0 ∧ fget s (pgTile t) Fl.lockCfg = 0) ∧
    (∃ (t : TileId) (s : State) (who : Requester) (v : Word),
        Accepted s who (pgTile t) 1288 0 ∧
        fget s (pgTile t) Fl.lockCfg = 0 ∧ bitAt v 16 = true ∧ ctxBusy s t = false ∧ (tile s t).kill = none) ∧
    (∃ (t : TileId) (s : State) (who : Requester) (v : Word), Accepted s who (pgTile t) 1288 0 ∧ fget s (pgTile t) Fl.lockCfg = 0 ∧ bitAt v 16 = true ∧ ctxBusy s t = false) ∧
    (∃ (t : TileId) (s : State) (lines : Nat),
        List.find? (fun (e : TileId × Bool × Nat) => decide (e.fst = t)) s.ctxRun = some (t, true, lines) ∧
        grantRanges s (Requester.tile t Engine.s0) true (ctxRanges (ctxAddr s t) (areaBanks s t) (fget s (pgTile t) Fl.tileCtxCtlBanks)) =
        Grant.served) ∧
    (∃ (t : TileId) (s : State) (lines : Nat) (c : SavedCtx),
        List.find? (fun (e : TileId × Bool × Nat) => decide (e.fst = t)) s.ctxRun = some (t, false, lines) ∧
        grantRanges s (Requester.tile t Engine.s0) false
        (ctxRanges (ctxAddr s t) (areaBanks s t) (fget s (pgTile t) Fl.tileCtxCtlBanks)) =
        Grant.served ∧
        List.find? (fun (d : SavedCtx) => decide (d.addr = ctxAddr s t)) s.saved = some c) :=
  ⟨⟨0, st [on], fw0, by simp only [accepted_iff]; decide⟩,
   ⟨0, st [on], fw0, 0x10000, by simp only [accepted_iff]; decide⟩,
   ⟨0, st [on], fw0, 0x10000, by simp only [accepted_iff]; decide⟩,
   ⟨0, ddrAll [(pgPart 0, Fl.partTilesMask 0, 1)] { ctxRun := [(0, true, 3)] }, 3, by decide +kernel⟩,
   ⟨0, ddrAll [(pgPart 0, Fl.partTilesMask 0, 1)] { ctxRun := [(0, false, 3)], saved := [⟨0, 0, [], {}, 0⟩] }, 3, ⟨0, 0, [], {}, 0⟩, by decide +kernel⟩⟩

theorem witness_CalderaModes :
    (∃ (s : State),
        (calRuns s = true ∨ calOn s = true ∧ fget s pgCal Fl.calStatusRestart = 1) ∧ ∀ (u : Nat), s.cal.lockAt = some u → u + 1000000 ≤ s.us) ∧
    (∃ (s : State) (u : Nat), (calRuns s = true ∨ calOn s = true ∧ fget s pgCal Fl.calStatusRestart = 1) ∧ s.cal.lockAt = some u ∧ s.us < u + 1000000) ∧
    (∃ (s : State), calOn s = true ∧ fget s pgCal Fl.calStatusRestart = 1) ∧
    (∃ (s : State) (who : Requester) (v : Word), Accepted s who pgCal 276 0 ∧ bitAt v 0 = true) ∧
    (∃ (s : State), calRuns s = true ∧ fget s pgCal Fl.calStatusFwHbLost = 0 ∧ s.cal.fwAt + fget s pgCal Fl.calFwHbLimitUs < s.us) ∧
    (∃ (s : State), s.us ≤ s.cal.fwAt + fget s pgCal Fl.calFwHbLimitUs) ∧
    (∃ (s : State) (who : Requester),
        Accepted s who pgCal 256 0 ∧ (calMode s ≠ 2 ∨ fget s pgCal Fl.calGeyStatResult ≠ 1 ∨ fget s pgCal Fl.calStatusFwHbLost = 1)) ∧
    (∃ (s : State) (who : Requester),
        Accepted s who pgCal 256 0 ∧
        calOn s = true ∧ calMode s = 2 ∧ fget s pgCal Fl.calGeyStatResult = 1 ∧ fget s pgCal Fl.calStatusFwHbLost = 0) ∧
    (∃ (s : State), calOn s = true) :=
  ⟨⟨calSt [(pgCal, Fl.calStatusRestart, 1)] {}, by decide⟩,
   ⟨calSt [] { lockAt := some 5 } { us := 1000004 }, 5, by decide⟩,
   ⟨calSt [(pgCal, Fl.calStatusRestart, 1)] {}, by decide⟩,
   ⟨calSt [] {}, fw0, 1, by simp only [accepted_iff]; decide⟩,
   ⟨calSt [(pgCal, Fl.calFwHbLimitUs, 50)] { fwAt := 5 } { us := 56 }, by decide⟩,
   ⟨calSt [(pgCal, Fl.calFwHbLimitUs, 50)] { fwAt := 5 } { us := 55 }, by decide⟩,
   ⟨calSt [(pgCal, Fl.calGeyStatResult, 0)] {}, fw0, by simp only [accepted_iff]; decide⟩,
   ⟨calSt [(pgCal, Fl.calGeyStatResult, 1)] {}, fw0, by simp only [accepted_iff]; decide⟩,
   ⟨calSt [] {}, by decide⟩⟩

theorem witness_EvidenceReachesCaldera :
    (∃ (s : State) (e : Evidence) (r : List Evidence), s.evidenceIn = e :: r ∧ calRuns s = false) ∧
    (∃ (s : State) (e : Evidence) (r : List Evidence), s.evidenceIn = e :: r ∧ calRuns s = true ∧ (e.safe = false ∨ safetyPart s ≠ some e.part)) ∧
    (∃ (s : State) (e : Evidence) (r : List Evidence) (n : Nat), s.evidenceIn = e :: r ∧ calRuns s = true ∧ e.safe = true ∧ safetyPart s = some e.part ∧ e.jid = some n) ∧
    (∃ (s : State) (u : TileId) (j : TileJob), (tile s u).job = some j ∧ j.safe = true ∧ j.jid.isSome = true ∧ (tile s u).hbAt + 10 ≤ s.us) ∧
    (∃ (s : State) (u : TileId) (j : TileJob), (tile s u).job = some j ∧ j.safe = true ∧ j.jid.isSome = true ∧ s.us < (tile s u).hbAt + 10) ∧
    (∃ (s : State) (u : TileId) (j : TileJob) (n : Nat),
        calRuns s = true ∧
        (tile s u).job = some j ∧
        j.safe = true ∧
        j.jid = some n ∧ safetyPart s = some j.part ∧ ¬u ∈ s.cal.lost ∧ Tab.get 0 s.cal.hb u + fget s pgCal Fl.calHbLimitUs < s.us) ∧
    (∃ (s : State) (u : TileId), s.us ≤ Tab.get 0 s.cal.hb u + fget s pgCal Fl.calHbLimitUs) :=
  ⟨⟨{ evidenceIn := [⟨.residue, 0, 0, 7, some 5, true, [1, 2, 3, 4, 5, 6]⟩] }, ⟨.residue, 0, 0, 7, some 5, true, [1, 2, 3, 4, 5, 6]⟩, [], by decide⟩,
   ⟨calSt [] {} { evidenceIn := [⟨.residue, 0, 0, 7, some 5, false, [1, 2, 3, 4, 5, 6]⟩] }, ⟨.residue, 0, 0, 7, some 5, false, [1, 2, 3, 4, 5, 6]⟩, [], by decide⟩,
   ⟨calSt [] {} { evidenceIn := [⟨.residue, 0, 0, 7, some 5, true, [1, 2, 3, 4, 5, 6]⟩] }, ⟨.residue, 0, 0, 7, some 5, true, [1, 2, 3, 4, 5, 6]⟩, [], 5, by decide⟩,
   ⟨{ us := 10, tiles := [(0, { job := some ⟨some 5, 7, 0, true, 0, false⟩ })] }, 0, ⟨some 5, 7, 0, true, 0, false⟩, by decide⟩,
   ⟨{ us := 9, tiles := [(0, { job := some ⟨some 5, 7, 0, true, 0, false⟩ })] }, 0, ⟨some 5, 7, 0, true, 0, false⟩, by decide⟩,
   ⟨calSt [(pgCal, Fl.calHbLimitUs, 50)] { hb := [(0, 5)] } { us := 56, tiles := [(0, { job := some ⟨some 5, 7, 0, true, 0, false⟩ })] }, 0, ⟨some 5, 7, 0, true, 0, false⟩, 5, by decide⟩,
   ⟨calSt [(pgCal, Fl.calHbLimitUs, 50)] { hb := [(0, 5)] } { us := 55 }, 0, by decide⟩⟩

theorem witness_VerdictsLeaveInOrder :
    (∃ (s : State) (p : PartId) (e : EndedJob) (rest : List EndedJob),
        safetyPart s = some p ∧
        calRuns s = true ∧
        s.cal.held = [] ∧ s.cal.ended = e :: rest ∧ (e.late = true ∨ e.job.jid ∈ s.cal.cut ∨ evidenceDone s e.job = true) ∧
        e.job.stage = .ending ∧ (vringFree s = 0 ∨ (vringWait s p).isSome = true)) ∧
    (∃ (s : State) (p : PartId) (e : EndedJob) (rest : List EndedJob),
        safetyPart s = some p ∧
        calRuns s = true ∧
        s.cal.held = [] ∧ s.cal.ended = e :: rest ∧ (e.late = true ∨ e.job.jid ∈ s.cal.cut ∨ evidenceDone s e.job = true) ∧
        e.job.stage = .ending ∧ 0 < vringFree s ∧ vringWait s p = none ∧ lateAmends s p (verdictsFor s p e) = []) ∧
    (∃ (s : State) (p : PartId) (e : EndedJob) (rest : List EndedJob),
        safetyPart s = some p ∧
        calRuns s = true ∧
        s.cal.held = [] ∧ s.cal.ended = e :: rest ∧ e.late = false ∧ ¬e.job.jid ∈ s.cal.cut ∧ evidenceDone s e.job = false) ∧
    (∃ (s : State) (p : PartId) (v : VerdictRec) (r : List VerdictRec), safetyPart s = some p ∧ calRuns s = true ∧ s.cal.held = v :: r ∧ 0 < vringFree s ∧ vringWait s p = none) ∧
    (∃ (s : State) (p : PartId) (v : VerdictRec) (r : List VerdictRec),
        safetyPart s = some p ∧ calRuns s = true ∧ s.cal.held = v :: r ∧ 0 < vringFree s ∧ (vringWait s p).isSome = true) ∧
    (∃ (s : State) (p : PartId) (v : VerdictRec) (r : List VerdictRec), safetyPart s = some p ∧ calRuns s = true ∧ s.cal.held = v :: r ∧ vringFree s = 0) ∧
    (∃ (s : State) (who : Requester), Accepted s who pgCal 300 0) :=
  ⟨⟨calSt [] { ended := [⟨{ jr .ending with status := 1 }, 9, true⟩] }, 0, ⟨{ jr .ending with status := 1 }, 9, true⟩, [], by decide⟩,
   ⟨calSt [(pgCal, Fl.calVringBaseHiBase, 0x1C)] { ended := [⟨{ jr .ending with status := 1 }, 9, true⟩], geyFail := some (7, 0) }, 0, ⟨{ jr .ending with status := 1 }, 9, true⟩, [], by decide⟩,
   ⟨calSt [] { ended := [⟨{ jr .ending with status := 1 }, 9, false⟩] }, 0, ⟨{ jr .ending with status := 1 }, 9, false⟩, [], by decide⟩,
   ⟨calSt [(pgCal, Fl.calVringBaseHiBase, 0x1C)] { held := [⟨3, [0], [7]⟩] }, 0, ⟨3, [0], [7]⟩, [], by decide⟩,
   ⟨calSt [] { held := [⟨3, [0], [7]⟩] }, 0, ⟨3, [0], [7]⟩, [], by decide⟩,
   ⟨calSt [(pgCal, Fl.calVringCfgNentM1, 0)] { held := [⟨3, [0], [7]⟩], used := 1 }, 0, ⟨3, [0], [7]⟩, [], by decide⟩,
   ⟨calSt [] {}, fw0, by simp only [accepted_iff]; decide⟩⟩

theorem witness_GeyserAndSelfTests :
    (∃ (s : State) (p : PartId) (w : FrameWin),
        fwRuns s = true ∧
        safetyPart s = some p ∧
        windowOf s p = some w ∧ calRuns s = true ∧ inReserve s p = true ∧ s.cal.gey = none ∧ s.cal.geyWin ≠ some (Tab.get 0 s.winNo p - 1)) ∧
    (∃ (s : State) (p : PartId) (g : GeySlice),
        safetyPart s = some p ∧
        s.cal.gey = some g ∧
        (∀ (u : TileId), u ∈ g.tiles → fget s (pgSeq u) Fl.seqStatusState = 2) ∧
        firstWait s (Requester.fw p true) (List.map (geyRegion s) g.tiles) = none ∧ g.tg < 12) ∧
    (∃ (s : State) (p : PartId) (g : GeySlice),
        safetyPart s = some p ∧
        s.cal.gey = some g ∧
        (∃ (u : TileId), u ∈ g.tiles ∧ fget s (pgSeq u) Fl.seqStatusState ≠ 2) ∧ g.endAt ≤ partCount s p ∧ calOn s = true) ∧
    (∃ (s : State) (p : PartId) (g : GeySlice),
        safetyPart s = some p ∧
        s.cal.gey = some g ∧ (∃ (u : TileId), u ∈ g.tiles ∧ fget s (pgSeq u) Fl.seqStatusState ≠ 2) ∧ partCount s p < g.endAt) ∧
    (∃ (s : State) (c : Bool), calRuns s = true ∧ stMay s (if c = true then 12 else dueGroup s) = true) ∧
    (∃ (s : State) (c : Bool), calRuns s = true ∧ stMay s (if c = true then 12 else dueGroup s) = false) ∧
    (∃ (s : State) (x : StSlice), s.cal.st = some x ∧ x.since + stLength x.grp ≤ s.us) ∧
    (∃ (s : State) (x : StSlice), s.cal.st = some x ∧ s.us < x.since + stLength x.grp) ∧
    (∃ (s : State) (grp : Fin 13), calOn s = true ∧ (Tab.get 0 s.cal.covAt ↑grp + if ↑grp = 12 then 100000 else 1000000) ≤ s.us) ∧
    (∃ (s : State) (grp : Fin 13), calOn s = true ∧ s.us < Tab.get 0 s.cal.covAt ↑grp + if ↑grp = 12 then 100000 else 1000000) ∧
    (∃ (s : State), s.cal.loadAt < s.us / 1000) ∧
    (∃ (s : State), s.us / 1000 ≤ s.cal.loadAt) :=
  ⟨⟨calSt ((List.range 3).map (fun k => (pgPart 0, Fl.partTilesMask k, 0))) {} (counted 900 { window := [(0, some ⟨0, 1000, 100, false⟩)] }), 0, ⟨0, 1000, 100, false⟩, by decide⟩,
   ⟨calSt [(pgSeq 0, Fl.seqStatusState, 2), (pgCal, Fl.calGeyOutLenLines, 0)] { gey := some ⟨0, 3, [0], [], 9⟩ }, 0, ⟨0, 3, [0], [], 9⟩, by decide⟩,
   ⟨calSt [(pgSeq 0, Fl.seqStatusState, 1)] { gey := some ⟨0, 3, [0], [], 9⟩ } (counted 9), 0, ⟨0, 3, [0], [], 9⟩, ⟨by decide, by decide, ⟨0, by decide⟩, by decide, by decide⟩⟩,
   ⟨calSt [(pgSeq 0, Fl.seqStatusState, 1)] { gey := some ⟨0, 3, [0], [], 9⟩ } (counted 8), 0, ⟨0, 3, [0], [], 9⟩, ⟨by decide, by decide, ⟨0, by decide⟩, by decide⟩⟩,
   ⟨calSt [(pgCal, Fl.calCtrlAutoSt, 1), (pgPart 0, Fl.partCfgSafety, 0)] {}, false, by decide⟩,
   ⟨calSt [] {}, true, by decide⟩,
   ⟨calSt [] { st := some ⟨12, 5⟩ } { us := 45 }, ⟨12, 5⟩, by decide⟩,
   ⟨calSt [] { st := some ⟨12, 5⟩ } { us := 44 }, ⟨12, 5⟩, by decide⟩,
   ⟨calSt [] {} { us := 100000 }, 12, by decide⟩,
   ⟨calSt [] {} { us := 99999 }, 12, by decide⟩,
   ⟨{ us := 1000 }, by decide⟩,
   ⟨{ us := 999 }, by decide⟩⟩

theorem witness_TilesLeaveAndAreRedirected :
    (∃ (s : State) (who : Requester) (v : Word), Accepted s who pgCal 412 0 ∧ bitAt v 8 = true ∧ Fl.calTileForceTile.get v < 96) ∧
    (∃ (s : State) (who : Requester) (k : Fin 4), Accepted s who pgCal (Fl.calRedirEn ↑k).off 0 ∧ fget s pgCal Fl.lockCfg = 0) ∧
    (∃ (s : State) (u : TileId) (j : JobRun),
        fwRuns s = true ∧
        jobOfTile s u = some j ∧
        fget s pgCal Fl.calCtrlRemapEn = 1 ∧
        pageOn s pgCal = true ∧
        jwSafe j.words = true ∧
        j.stage = JobStage.running ∧
        (tile s u).kill = none ∧
        ¬u ∈ s.cal.given ∧
        fget s (pgTile u) Fl.tileRunHalted = 1 ∧
        ((∀ (k : Fin 4), fget s pgCal (Fl.calRedirEn ↑k) = 1) ∨
        byGroup s j.words (List.filter (tileIdle s j.part) (maskTiles s j.part)) = [] ∧
        savePending s j.part = false ∧ remapVictim s j.part = none)) ∧
    (∃ (s : State) (u : TileId) (j : JobRun) (v : JobRun),
        fwRuns s = true ∧
        jobOfTile s u = some j ∧
        fget s pgCal Fl.calCtrlRemapEn = 1 ∧
        pageOn s pgCal = true ∧
        jwSafe j.words = true ∧
        j.stage = JobStage.running ∧
        (tile s u).kill = none ∧
        ¬u ∈ s.cal.given ∧
        fget s (pgTile u) Fl.tileRunHalted = 1 ∧
        (¬∀ (k : Fin 4), fget s pgCal (Fl.calRedirEn ↑k) = 1) ∧
        byGroup s j.words (List.filter (tileIdle s j.part) (maskTiles s j.part)) = [] ∧
        savePending s j.part = false ∧ remapVictim s j.part = some v) ∧
    (∃ (s : State) (u : TileId) (bad : Bool) (j : JobRun) (k : Nat) (w : TileId) (more : List TileId) (l : List Word),
        fwRuns s = true ∧
        jobOfTile s u = some j ∧
        fget s pgCal Fl.calCtrlRemapEn = 1 ∧
        pageOn s pgCal = true ∧
        jwSafe j.words = true ∧
        j.stage = JobStage.running ∧
        (tile s u).kill = none ∧
        ¬u ∈ s.cal.given ∧
        fget s (pgTile u) Fl.tileRunHalted = 1 ∧
        List.find? (fun (k : Nat) => !fon s pgCal (Fl.calRedirEn k)) (upTo 4) = some k ∧
        byGroup s j.words (List.filter (tileIdle s j.part) (maskTiles s j.part)) = w :: more ∧
        (jobPages w).all (pageOn s) = true ∧
        (∀ (pg : PageKey), pg ∈ jobPages w → fget s pg Fl.ctrlEn = 1) ∧
        (if j.isFb = true then Fetch.got j.load
        else fetchList s (Requester.fw j.part true) listFuel (jwProg j.words)) =
        Fetch.got l ∧
        bad = true) ∧
    (∃ (s : State) (u : TileId) (bad : Bool) (j : JobRun) (k : Nat) (w : TileId) (more : List TileId) (l : List Word),
        fwRuns s = true ∧
        jobOfTile s u = some j ∧
        fget s pgCal Fl.calCtrlRemapEn = 1 ∧
        pageOn s pgCal = true ∧
        jwSafe j.words = true ∧
        j.stage = JobStage.running ∧
        (tile s u).kill = none ∧
        ¬u ∈ s.cal.given ∧
        fget s (pgTile u) Fl.tileRunHalted = 1 ∧
        List.find? (fun (k : Nat) => !fon s pgCal (Fl.calRedirEn k)) (upTo 4) = some k ∧
        byGroup s j.words (List.filter (tileIdle s j.part) (maskTiles s j.part)) = w :: more ∧
        (jobPages w).all (pageOn s) = true ∧
        (∀ (pg : PageKey), pg ∈ jobPages w → fget s pg Fl.ctrlEn = 1) ∧
        (if j.isFb = true then Fetch.got j.load
        else fetchList s (Requester.fw j.part true) listFuel (jwProg j.words)) =
        Fetch.got l ∧
        bad = false ∧
        (∀ (a : Nat),
        fgetAddr s pgCal Fl.calRemapLoAddr Fl.calRemapHiAddr ≤ a →
        a < fgetAddr s pgCal Fl.calRemapLoAddr Fl.calRemapHiAddr + 1146880 →
        ∃ (h : HubId) (c : Sys2Proof.Sub), regionOf s (Requester.fw j.part true) a = Region.ddr h c) ∧
        grantRanges s (Requester.fw j.part true) true
        (ctxRanges (fgetAddr s pgCal Fl.calRemapLoAddr Fl.calRemapHiAddr) (jobBanks j)
        (jobBanks j &&&
        65535 -
        filledBanks (residentOnly (List.idxOf u j.tiles) l.length l).length
        (residentOnly (List.idxOf u j.tiles) l.length l))) =
        Grant.served) ∧
    (∃ (s : State) (u : TileId) (j : JobRun),
        fwRuns s = true ∧
        jobOfTile s u = some j ∧
        fget s pgCal Fl.calCtrlRemapEn = 1 ∧
        pageOn s pgCal = true ∧
        jwSafe j.words = true ∧
        j.stage = JobStage.running ∧
        (tile s u).kill = none ∧ ¬u ∈ s.cal.given ∧ fget s (pgTile u) Fl.tileRunHalted = 0 ∧ u ∈ s.cal.lost ∧ ¬u ∈ s.cal.lostKill) :=
  ⟨⟨calSt [] {}, fw0, 0x105, by simp only [accepted_iff]; decide⟩,
   ⟨calSt [] {}, fw0, 3, by simp only [accepted_iff]; decide⟩,
   ⟨calSt ([(pgCal, Fl.calCtrlRemapEn, 1), (pgTile 0, Fl.tileRunHalted, 1)] ++ (List.range 4).map (fun k => (pgCal, Fl.calRedirEn k, 1))) {  } { jobs := [jr .running [0x10000]], tiles := [(0, { job := some ⟨some 5, 7, 0, true, 0, false⟩ })] }, 0, jr .running [0x10000], by decide⟩,
   ⟨calSt ([(pgCal, Fl.calCtrlRemapEn, 1), (pgTile 0, Fl.tileRunHalted, 1), (pgPart 0, Fl.partTilesMask 0, 3), (pgPart 0, Fl.partTilesMask 1, 0), (pgPart 0, Fl.partTilesMask 2, 0)]) {} { jobs := [jr .running [0x10000], { jr .running [0, 0, 0, 0, 0, 0, 0, 0, 0, 0, 0, 0x1000] with jid := 6, tiles := [1] }], tiles := [(0, { job := some ⟨some 5, 7, 0, true, 0, false⟩ })] }, 0, jr .running [0x10000], { jr .running [0, 0, 0, 0, 0, 0, 0, 0, 0, 0, 0, 0x1000] with jid := 6, tiles := [1] }, by decide⟩,
   ⟨calSt ([(pgCal, Fl.calCtrlRemapEn, 1), (pgTile 0, Fl.tileRunHalted, 1), (pgPart 0, Fl.partTilesMask 0, 3), (pgPart 0, Fl.partTilesMask 1, 0), (pgPart 0, Fl.partTilesMask 2, 0)] ++ [pgTile 1, pgSeq 1, pgLane 1, pgVec 1, pgSpad 1, pgStrm 1 0, pgStrm 1 1].flatMap (fun pg => [(pg, Fl.state, 2), (pg, Fl.ctrlEn, 1)])) {} { jobs := [{ jr .running [0x10000] with isFb := true, load := [3, 0] }], tiles := [(0, { job := some ⟨some 5, 7, 0, true, 0, false⟩ })] }, 0, true, { jr .running [0x10000] with isFb := true, load := [3, 0] }, 0, 1, [], [3, 0], ⟨by decide, by decide, by decide, by decide, by decide, by decide, by decide, by decide, by decide, by decide, by decide, by decide, by decide, rfl, by decide⟩⟩,
   ⟨calSt ([(pgCal, Fl.calCtrlRemapEn, 1), (pgTile 0, Fl.tileRunHalted, 1), (pgPart 0, Fl.partTilesMask 0, 3), (pgPart 0, Fl.partTilesMask 1, 0), (pgPart 0, Fl.partTilesMask 2, 0)] ++ [pgTile 1, pgSeq 1, pgLane 1, pgVec 1, pgSpad 1, pgStrm 1 0, pgStrm 1 1].flatMap (fun pg => [(pg, Fl.state, 2), (pg, Fl.ctrlEn, 1)])) {} { ddrAll [] with jobs := [{ jr .running [0x10000] with isFb := true, load := [3, 0] }], tiles := [(0, { job := some ⟨some 5, 7, 0, true, 0, false⟩ })] }, 0, false, { jr .running [0x10000] with isFb := true, load := [3, 0] }, 0, 1, [], [3, 0], ⟨by decide, by decide, by decide, by decide, by decide, by decide, by decide, by decide, by decide, by decide, by decide, by decide, by decide, rfl, by decide, fun a _ h => in_ddr h (by decide) (by decide), by decide +kernel⟩⟩,
   ⟨calSt ([(pgCal, Fl.calCtrlRemapEn, 1), (pgTile 0, Fl.tileRunHalted, 0)] ++ (List.range 4).map (fun k => (pgCal, Fl.calRedirEn k, 1))) { lost := [0] } { jobs := [jr .running [0x10000]], tiles := [(0, { job := some ⟨some 5, 7, 0, true, 0, false⟩ })] }, 0, jr .running [0x10000], by decide⟩⟩

theorem witness_DomainsPowerOnAndOff :
    (∃ (s : State) (d : Domain), wakeCause s ↑d = false) ∧
    (∃ (s : State) (d : Domain),
        wakeCause s ↑d = true ∧
        s.pwr.winAt = none ∧
        domainOn s ↑d = false ∧ fbit s pgPwr Fl.pwrDomBusyRamp ↑d = false ∧ ∀ (w : Domain × PartId), w ∈ s.wakeQ → w.fst ≠ d) ∧
    (∃ (s : State) (d : Domain) (a : Nat), List.find? (fun (e : Nat × Nat) => decide (e.fst = ↑d)) s.pwr.ramps = some (↑d, a) ∧ s.us < a + onRamp ↑d) ∧
    (∃ (s : State) (d : Domain) (a : Nat),
        List.find? (fun (e : Nat × Nat) => decide (e.fst = ↑d)) s.pwr.ramps = some (↑d, a) ∧
        a + onRamp ↑d ≤ s.us ∧ ∀ (w : Domain × PartId), w ∈ s.wakeQ → w.fst ≠ d) ∧
    (∃ (s : State) (d : Domain) (a : Nat), List.find? (fun (e : Nat × Nat) => decide (e.fst = ↑d)) s.pwr.ramps = some (↑d, a) ∧ s.us < a + 50) ∧
    (∃ (s : State) (d : Domain) (a : Nat), List.find? (fun (e : Nat × Nat) => decide (e.fst = ↑d)) s.pwr.ramps = some (↑d, a) ∧ a + 50 ≤ s.us) ∧
    (∃ (s : State) (d : Domain) (a : Nat),
        List.find? (fun (e : Nat × Nat) => decide (e.fst = ↑d)) s.pwr.idleAt = some (↑d, a) ∧ s.us < a + fget s pgPwr Fl.pwrOffDelayUs) ∧
    (∃ (s : State) (d : Domain) (a : Nat),
        List.find? (fun (e : Nat × Nat) => decide (e.fst = ↑d)) s.pwr.idleAt = some (↑d, a) ∧
        offOk s ↑d = true ∧ a + fget s pgPwr Fl.pwrOffDelayUs ≤ s.us) ∧
    (∃ (s : State) (w : Nat), s.pwr.winAt = some w ∧ s.us < w + 10) ∧
    (∃ (s : State) (w : Nat), s.pwr.winAt = some w ∧ w + 10 ≤ s.us ∧ fget s pgPwr Fl.pwrAlertAsserted ≠ 0) ∧
    (∃ (s : State) (w : Nat) (d : Domain) (p : PartId) (r : List (Domain × PartId)),
        s.pwr.winAt = some w ∧
        w + 10 ≤ s.us ∧
        wakeOrder s = (d, p) :: r ∧
        (∀ (q : Nat), requires ↑d = some q → domainOn s q = true) ∧
        fget s pgPwr Fl.pwrAlertAsserted = 0 ∧ s.pwr.vaonLow = false ∧ tripped s = false) ∧
    (∃ (s : State), fget s pgPwr Fl.pwrAlertAsserted ≠ 0) ∧
    (∃ (s : State), fget s pgPwr Fl.pwrAlertAsserted = 0) ∧
    (∃ (s : State) (a : Nat), s.pwr.alertHigh = some a ∧ s.us < a + fget s pgPwr Fl.pwrAlertHoldUs) ∧
    (∃ (s : State) (a : Nat), s.pwr.alertHigh = some a ∧ a + fget s pgPwr Fl.pwrAlertHoldUs ≤ s.us) :=
  ⟨⟨{}, 3, by decide⟩,
   ⟨st [(pgEng .warp, Fl.state, 1)], 20, by decide⟩,
   ⟨st [on] { us := 5, pwr := { ramps := [(20, 1)] } }, 20, 1, by decide⟩,
   ⟨st [on] { us := 6, pwr := { ramps := [(20, 1)] } }, 20, 1, by decide⟩,
   ⟨st [on] { us := 50, pwr := { ramps := [(20, 1)] } }, 20, 1, by decide⟩,
   ⟨st [on] { us := 51, pwr := { ramps := [(20, 1)] } }, 20, 1, by decide⟩,
   ⟨st [on, (pgPwr, Fl.pwrOffDelayUs, 5)] { us := 5, pwr := { idleAt := [(20, 1)] } }, 20, 1, by decide⟩,
   ⟨st [on, (pgPwr, Fl.pwrOffDelayUs, 5)] { us := 6, pwr := { idleAt := [(20, 1)] } }, 20, 1, by decide⟩,
   ⟨st [on] { us := 10, pwr := { winAt := some 1 } }, 1, by decide⟩,
   ⟨st [on, (pgPwr, Fl.pwrAlertAsserted, 1)] { us := 11, pwr := { winAt := some 1 } }, 1, by decide⟩,
   ⟨st [on] { us := 11, pwr := { winAt := some 1 }, wakeQ := [(20, 3)] }, 1, 20, 3, [], ⟨by decide, by decide, by decide, none_some (by decide), by decide, by decide, by decide⟩⟩,
   ⟨st [(pgPwr, Fl.pwrAlertAsserted, 1)], by decide⟩,
   ⟨{}, by decide⟩,
   ⟨st [on, (pgPwr, Fl.pwrAlertHoldUs, 5)] { us := 5, pwr := { alertHigh := some 1 } }, 1, by decide⟩,
   ⟨st [on, (pgPwr, Fl.pwrAlertHoldUs, 5)] { us := 6, pwr := { alertHigh := some 1 } }, 1, by decide⟩⟩

theorem witness_ClocksAndDeepIdle :
    (∃ (s : State) (who : Requester) (v : Word), Accepted s who pgClk 256 0 ∧ fget s pgClk Fl.lockCfg = 0 ∧ rootOk s (BitVec.toNat v % 4) = true) ∧
    (∃ (s : State) (who : Requester) (v : Word), Accepted s who pgClk 256 0 ∧ fget s pgClk Fl.lockCfg = 0 ∧ rootOk s (BitVec.toNat v % 4) = false) ∧
    (∃ (s : State), fget s pgClk Fl.clkStatSwitching = 0) ∧
    (∃ (s : State), fget s pgClk Fl.clkStatSwitching = 1 ∧ fget s pgPwr Fl.pwrIdleState ≠ 3 ∧ s.pwr.rootTo ≠ 0 ∧
        srcReady s (rootSource s.pwr.rootTo) = true) ∧
    (∃ (s : State), fget s pgClk Fl.clkStatSwitching = 1 ∧ fget s pgPwr Fl.pwrIdleState ≠ 3 ∧ s.pwr.rootTo ≠ 0 ∧
        srcReady s (rootSource s.pwr.rootTo) = false) ∧
    (∃ (s : State),
        fget s pgClk Fl.clkStatSwitching = 1 ∧
        fget s pgPwr Fl.pwrIdleState = 3 ∧
        s.pwr.rootTo = 2 ∧ srcReady s 0 = true ∧ srcReady s 4 = true ∧ s.pwr.vcdOff = false ∧ fget s pgClk Fl.clkPllCtrlRootEn = 1 ∧ s.pwr.xtalA = true) ∧
    (∃ (s : State) (src : Fin 6), sourceRuns s ↑src = false) ∧
    (∃ (s : State) (src : Fin 6), sourceRuns s ↑src = true ∧ fget s pgPwr Fl.pwrIdleState ≠ 3) ∧
    (∃ (s : State) (src : Fin 6), ¬↑src ∈ [2, 4, 5] ∨ srcReady s ↑src = false) ∧
    (∃ (s : State) (src : Fin 6), ↑src ∈ [2, 4, 5] ∧ srcReady s ↑src = true) ∧
    (∃ (s : State) (who : Requester), Accepted s who pgPwr 304 0 ∧ idleOk s = true) ∧
    (∃ (s : State) (who : Requester), Accepted s who pgPwr 304 0 ∧ idleOk s = false) ∧
    (∃ (s : State), sleeping s = false) ∧
    (∃ (s : State), sleeping s = true ∧ s.boot.rst ≠ some .pin) ∧
    (∃ (s : State), sleeping s = true ∧ s.boot.rst = some .pin) ∧
    (∃ (s : State), fget s pgPwr Fl.pwrIdleState ≠ 2) ∧
    (∃ (s : State),
        fget s pgPwr Fl.pwrIdleState = 2 ∧ fget s pgPwr Fl.pwrWakeTimerTicks ≠ 0 ∧ fget s pgPwr Fl.pwrWakeTimerTicks ≤ s.pwr.aon) :=
  ⟨⟨st [(pgClk, Fl.clkSrcRdyRdy, 63)], fw0, 2, by simp only [accepted_iff]; decide⟩,
   ⟨st [(pgClk, Fl.clkSrcRdyRdy, 63)], fw0, 3, by simp only [accepted_iff]; decide⟩,
   ⟨{}, by decide⟩,
   ⟨st [(pgClk, Fl.clkStatSwitching, 1), (pgClk, Fl.clkSrcRdyRdy, 16)] { pwr := { rootTo := 2 } }, by decide⟩,
   ⟨st [(pgClk, Fl.clkStatSwitching, 1), (pgClk, Fl.clkSrcRdyRdy, 1)] { pwr := { rootTo := 2 } }, by decide⟩,
   ⟨st [(pgClk, Fl.clkStatSwitching, 1), (pgPwr, Fl.pwrIdleState, 3), (pgClk, Fl.clkSrcRdyRdy, 17), (pgClk, Fl.clkPllCtrlRootEn, 1)] { pwr := { rootTo := 2, xtalA := true } }, by decide⟩,
   ⟨{}, 2, by decide⟩,
   ⟨{}, 3, by decide⟩,
   ⟨st [(pgClk, Fl.clkSrcRdyRdy, 63)], 3, by decide⟩,
   ⟨st [(pgClk, Fl.clkSrcRdyRdy, 63)], 4, by decide⟩,
   ⟨{}, fw0, by simp only [accepted_iff]; decide⟩,
   ⟨{ jobs := [jr .queued] }, fw0, by simp only [accepted_iff]; decide⟩,
   ⟨{}, by decide⟩,
   ⟨st [(pgPwr, Fl.pwrIdleState, 2)], by decide⟩,
   ⟨st [(pgPwr, Fl.pwrIdleState, 2)] { boot := { rst := some .pin } }, by decide⟩,
   ⟨{}, by decide⟩,
   ⟨st [(pgPwr, Fl.pwrIdleState, 2), (pgPwr, Fl.pwrWakeTimerTicks, 5)] { pwr := { aon := 5 } }, by decide⟩⟩

theorem witness_PowerAndTemperature :
    (∃ (s : State), s.pwr.pmb = []) ∧
    (∃ (s : State) (x : PmbTx) (r : List PmbTx) (mv : Nat), s.pwr.pmb = x :: r ∧ x.cmd = PmbCmd.vout mv) ∧
    (∃ (s : State) (x : PmbTx) (r : List PmbTx) (mv : Nat), s.pwr.pmb = x :: r ∧ x.cmd = PmbCmd.vout mv ∧ x.retried = false) ∧
    (∃ (s : State) (x : PmbTx) (r : List PmbTx) (mv : Nat), s.pwr.pmb = x :: r ∧ x.cmd = PmbCmd.vout mv ∧ x.retried = true) ∧
    (∃ (s : State), s.us / 1000 ≤ s.pwr.pollAt) ∧
    (∃ (s : State), s.pwr.pollAt < s.us / 1000 ∧ s.pwr.cmdMv = none) ∧
    (∃ (s : State) (c : Nat), s.pwr.pollAt < s.us / 1000 ∧ s.pwr.cmdMv = some c) ∧
    (∃ (s : State), fget s pgClk Fl.clkArithEffective < pstateTarget s) ∧
    (∃ (s : State),
        pstateTarget s = fget s pgClk Fl.clkArithEffective ∨
        pstateTarget s < fget s pgClk Fl.clkArithEffective ∧
        (s.pwr.barred = some (pstateTarget s) ∨ ∃ (r : Rise), s.pwr.rise = some r ∧ r.target = pstateTarget s)) ∧
    (∃ (s : State),
        pstateTarget s < fget s pgClk Fl.clkArithEffective ∧
        (∀ (r : Rise), s.pwr.rise = some r → r.target ≠ pstateTarget s) ∧ s.pwr.barred ≠ some (pstateTarget s)) ∧
    (∃ (s : State), ∀ (r : Rise), s.pwr.rise = some r → r.since = none) ∧
    (∃ (s : State) (mv : Nat) (a : Nat) (r : Rise), s.pwr.rise = some r ∧ r.since = some a ∧ (mv ≤ r.mv + 10 ∧ r.mv ≤ mv + 10 ∨ a + 200 ≤ s.us)) ∧
    (∃ (s : State) (mv : Nat) (a : Nat) (r : Rise), s.pwr.rise = some r ∧ r.since = some a ∧ ¬(mv ≤ r.mv + 10 ∧ r.mv ≤ mv + 10) ∧ s.us < a + 200) ∧
    (∃ (s : State) (n : Sensor), s.us / 20 ≤ Tab.get 0 s.thm.sampled ↑n) ∧
    (∃ (s : State) (n : Sensor) (r : Int), Tab.get 0 s.thm.sampled ↑n < s.us / 20 ∧ -220 ≤ r ∧ r ≤ 600 ∧ Tab.get none s.thm.prev ↑n = none ∧ senValid s ↑n = false) ∧
    (∃ (s : State) (n : Sensor) (r : Int),
        Tab.get 0 s.thm.sampled ↑n < s.us / 20 ∧
        (r < -220 ∨ 600 < r ∨ ∃ (q : Int), Tab.get none s.thm.prev ↑n = some q ∧ (80 < r - q ∨ 80 < q - r))) ∧
    (∃ (s : State) (a : Nat), s.thm.riseAt = some a ∧ thermHot s = true ∧ s.us < a + fget s pgThm Fl.thmCtrlStepUs) ∧
    (∃ (s : State) (a : Nat), s.thm.riseAt = some a ∧ thermHot s = true ∧ a + fget s pgThm Fl.thmCtrlStepUs ≤ s.us ∧ fget s pgThm Fl.thmMaxFloor < 5) ∧
    (∃ (s : State) (a : Nat), s.thm.coolAt = some a ∧ s.us < a + fget s pgThm Fl.thmRelaxUs) ∧
    (∃ (s : State) (a : Nat), s.thm.coolAt = some a ∧ a + fget s pgThm Fl.thmRelaxUs ≤ s.us ∧ fget s pgThm Fl.thmMaxFloor ≠ 0) ∧
    (∃ (s : State), s.us / 10 ≤ s.pwr.estAt) ∧
    (∃ (s : State), s.pwr.estAt < s.us / 10) ∧
    (∃ (s : State), s.us / 1000 ≤ s.pwr.factorAt) ∧
    (∃ (s : State), s.pwr.factorAt < s.us / 1000) ∧
    (∃ (s : State), s.us / 10 ≤ s.pwr.capAt) ∧
    (∃ (s : State) (c : Nat),
        s.pwr.capAt < s.us / 10 ∧
        (fget s pgPwr Fl.pwrPkgPeakMw < fget s pgPwr Fl.pwrPkgNowMw ∨ fget s pgPwr Fl.pwrPkgCapMw < fget s pgPwr Fl.pwrPkgAvgMw) ∧
        List.find? (fun (c : Nat) => decide (fget s pgPwr (capField c).fst < (capField c).snd)) (capOrder s).reverse = some c) ∧
    (∃ (s : State) (a : Nat) (c : Nat),
        s.pwr.capAt < s.us / 10 ∧
        fget s pgPwr Fl.pwrPkgNowMw ≤ fget s pgPwr Fl.pwrPkgPeakMw ∧
        fget s pgPwr Fl.pwrPkgAvgMw ≤ fget s pgPwr Fl.pwrPkgCapMw ∧
        s.pwr.capLow = some a ∧ a + 1000 ≤ s.us ∧ List.find? (fun (c : Nat) => fget s pgPwr (capField c).fst != 0) (capOrder s) = some c) :=
  ⟨⟨{}, by decide⟩,
   ⟨{ pwr := { pmb := [{ cmd := .vout 800, retried := false }] } }, { cmd := .vout 800, retried := false }, [], 800, by decide⟩,
   ⟨{ pwr := { pmb := [{ cmd := .vout 800, retried := false }] } }, { cmd := .vout 800, retried := false }, [], 800, by decide⟩,
   ⟨{ pwr := { pmb := [{ cmd := .vout 800, retried := true }] } }, { cmd := .vout 800, retried := true }, [], 800, by decide⟩,
   ⟨{}, by decide⟩,
   ⟨{ us := 1000 }, by decide⟩,
   ⟨{ us := 1000, pwr := { cmdMv := some 800 } }, 800, by decide⟩,
   ⟨st [(pgThm, Fl.thmMaxFloor, 3), (pgClk, Fl.clkArithEffective, 2)], by decide⟩,
   ⟨{}, Or.inl (by decide)⟩,
   ⟨st [(pgClk, Fl.clkArithEffective, 3)], by decide⟩,
   ⟨{}, none_some (by decide)⟩,
   ⟨{ pwr := { rise := some ⟨1, 800, some 1⟩ } }, 810, 1, ⟨1, 800, some 1⟩, by decide⟩,
   ⟨{ us := 200, pwr := { rise := some ⟨1, 800, some 1⟩ } }, 811, 1, ⟨1, 800, some 1⟩, by decide⟩,
   ⟨{}, 31, by decide⟩,
   ⟨{ us := 20 }, 31, 600, by decide⟩,
   ⟨{ us := 20 }, 31, 601, ⟨by decide, Or.inr (Or.inl (by decide))⟩⟩,
   ⟨st [(pgThm, Fl.thmTValid 0, 1), (pgThm, Fl.thmTTemp 0, 600), (pgThm, Fl.thmCtrlStepUs, 5)] { us := 5, thm := { riseAt := some 1 } }, 1, by decide⟩,
   ⟨st [(pgThm, Fl.thmTValid 0, 1), (pgThm, Fl.thmTTemp 0, 600), (pgThm, Fl.thmCtrlStepUs, 5)] { us := 6, thm := { riseAt := some 1 } }, 1, by decide⟩,
   ⟨st [(pgThm, Fl.thmRelaxUs, 5), (pgThm, Fl.thmMaxFloor, 2)] { us := 5, thm := { coolAt := some 1 } }, 1, by decide⟩,
   ⟨st [(pgThm, Fl.thmRelaxUs, 5), (pgThm, Fl.thmMaxFloor, 2)] { us := 6, thm := { coolAt := some 1 } }, 1, by decide⟩,
   ⟨{ us := 0 }, by decide⟩,
   ⟨{ us := 10 }, by decide⟩,
   ⟨{ us := 0 }, by decide⟩,
   ⟨{ us := 1000 }, by decide⟩,
   ⟨{ us := 0 }, by decide⟩,
   ⟨st [(pgPwr, Fl.pwrPkgPeakMw, 4), (pgPwr, Fl.pwrPkgNowMw, 5)] { us := 10 }, 0, by decide⟩,
   ⟨st [(pgPwr, Fl.pwrCapStatCompute, 2)] { us := 1001, pwr := { capLow := some 1 } }, 1, 0, by decide⟩⟩

theorem witness_ServicesAnswerTheirMessages_1 (h : imageFault ({ said 0 (msg [1]) with boot := { running := true, push := true, header := okHeader } }) (pushedImage ({ said 0 (msg [1]) with boot := { running := true, push := true, header := okHeader } })).1 (pushedImage ({ said 0 (msg [1]) with boot := { running := true, push := true, header := okHeader } })).2 = none) :
    ∃ (s : State) (p : PartId) (m : List Byte) (rest : List (List Byte)),
    (sdioSt s p).toFw = m :: rest ∧
    (sdioSt s p).toHost.length < 8 ∧
    msgService m = 1 ∧ p = 0 ∧ s.boot.push = true ∧ imageFault s (pushedImage s).fst (pushedImage s).snd = none :=
  ⟨{ said 0 (msg [1]) with boot := { running := true, push := true, header := okHeader } }, 0, msg [1], [], ⟨by decide, by decide, by decide, by decide, by decide, h⟩⟩

theorem witness_ServicesAnswerTheirMessages :
    (∃ (s : State) (p : PartId), fwRuns s = true ∧ 8 ≤ (sdioSt s p).toHost.length) ∧
    (∃ (s : State) (p : PartId) (m : List Byte) (rest : List (List Byte)) (d : Nat),
        (sdioSt s p).toFw = m :: rest ∧
        (sdioSt s p).toHost.length < 8 ∧
        msgService m = 1 ∧ p = 0 ∧ s.boot.push = true ∧ imageFault s (pushedImage s).fst (pushedImage s).snd = some d) ∧
    (∃ (s : State) (p : PartId) (m : List Byte) (rest : List (List Byte)),
        (sdioSt s p).toFw = m :: rest ∧
        (sdioSt s p).toHost.length < 8 ∧ msgService m = 1 ∧ (s.boot.push = true ∨ fwRuns s = true) ∧ (s.boot.push = false ∨ p ≠ 0)) ∧
    (∃ (s : State) (p : PartId) (m : List Byte) (rest : List (List Byte)) (c : Nat) (e : Nat),
        (sdioSt s p).toFw = m :: rest ∧
        (sdioSt s p).toHost.length < 8 ∧
        fwRuns s = true ∧ grantRange s (Requester.fw p false) true (reqAddr (wordsOf m) 9) 2176 = Grant.error c e ∧ msgService m = 2) ∧
    (∃ (s : State) (p : PartId) (m : List Byte) (rest : List (List Byte)) (c : Nat) (e : Nat),
        (sdioSt s p).toFw = m :: rest ∧
        (sdioSt s p).toHost.length < 8 ∧
        fwRuns s = true ∧
        grantRange s (Requester.fw p false) true (reqAddr (wordsOf m) 9) (certBytes s).length = Grant.error c e ∧ msgService m = 3) ∧
    (∃ (s : State) (p : PartId) (m : List Byte) (rest : List (List Byte)),
        (sdioSt s p).toFw = m :: rest ∧
        (sdioSt s p).toHost.length < 8 ∧
        fwRuns s = true ∧ msgService m = 2 ∧ grantRange s (Requester.fw p false) true (reqAddr (wordsOf m) 9) 2176 = Grant.served) ∧
    (∃ (s : State) (p : PartId) (m : List Byte) (rest : List (List Byte)),
        (sdioSt s p).toFw = m :: rest ∧
        (sdioSt s p).toHost.length < 8 ∧
        fwRuns s = true ∧
        msgService m = 3 ∧ grantRange s (Requester.fw p false) true (reqAddr (wordsOf m) 9) (certBytes s).length = Grant.served) ∧
    (∃ (s : State) (p : PartId) (m : List Byte) (rest : List (List Byte)) (d : List Word),
        (sdioSt s p).toFw = m :: rest ∧
        (sdioSt s p).toHost.length < 8 ∧
        fwRuns s = true ∧
        msgService m = 4 ∧
        p = 0 ∧
        jw (wordsOf m) 3 = 1262836051 ∧
        fget s pgSec Fl.secFuseFlagsCustValid = 0 ∧
        fetchWords s (Requester.fw 0 false) (reqAddr (wordsOf m) 1) 16 = Fetch.got d) ∧
    (∃ (s : State) (p : PartId) (m : List Byte) (rest : List (List Byte)),
        (sdioSt s p).toFw = m :: rest ∧
        (sdioSt s p).toHost.length < 8 ∧
        fwRuns s = true ∧
        msgService m = 5 ∧
        p = 0 ∧
        jw (wordsOf m) 3 = 1380275787 ∧ fget s pgSec Fl.secFuseFlagsCustValid = 1 ∧ fget s pgSec Fl.secFuseFlagsVendorRevoked = 0) ∧
    (∃ (s : State) (p : PartId) (m : List Byte) (rest : List (List Byte)),
        (sdioSt s p).toFw = m :: rest ∧ (sdioSt s p).toHost.length < 8 ∧ fwRuns s = true ∧ msgService m = 6 ∧ p = 0) ∧
    (∃ (s : State) (p : PartId) (m : List Byte) (rest : List (List Byte)),
        (sdioSt s p).toFw = m :: rest ∧
        (sdioSt s p).toHost.length < 8 ∧
        fwRuns s = true ∧
        msgService m = 7 ∧
        p = 0 ∧ jw (wordsOf m) 3 = 1112493908 ∧ (4 * (jw (wordsOf m) 1 % 4) ||| BitVec.toNat (rd s pgSec 336)) &&& 12 ≠ 12) ∧
    (∃ (s : State) (p : PartId) (m : List Byte) (rest : List (List Byte)),
        (sdioSt s p).toFw = m :: rest ∧
        (sdioSt s p).toHost.length < 8 ∧ fwRuns s = true ∧ p = 0 ∧ msgService m = 4 ∧ jw (wordsOf m) 3 ≠ 1262836051) ∧
    (∃ (s : State) (p : PartId) (m : List Byte) (rest : List (List Byte)),
        (sdioSt s p).toFw = m :: rest ∧
        (sdioSt s p).toHost.length < 8 ∧
        fwRuns s = true ∧ p = 0 ∧ msgService m = 4 ∧ jw (wordsOf m) 3 = 1262836051 ∧ fget s pgSec Fl.secFuseFlagsCustValid = 1) ∧
    (∃ (s : State) (p : PartId) (m : List Byte) (rest : List (List Byte)),
        (sdioSt s p).toFw = m :: rest ∧
        (sdioSt s p).toHost.length < 8 ∧
        fwRuns s = true ∧ p = 0 ∧ msgService m = 5 ∧ (jw (wordsOf m) 3 ≠ 1380275787 ∨ fget s pgSec Fl.secFuseFlagsCustValid = 0)) ∧
    (∃ (s : State) (p : PartId) (m : List Byte) (rest : List (List Byte)),
        (sdioSt s p).toFw = m :: rest ∧
        (sdioSt s p).toHost.length < 8 ∧
        fwRuns s = true ∧
        p = 0 ∧
        msgService m = 7 ∧
        (jw (wordsOf m) 3 ≠ 1112493908 ∨ (4 * (jw (wordsOf m) 1 % 4) ||| BitVec.toNat (rd s pgSec 336)) &&& 12 = 12)) ∧
    (∃ (s : State) (p : PartId) (m : List Byte) (rest : List (List Byte)),
        (sdioSt s p).toFw = m :: rest ∧ (sdioSt s p).toHost.length < 8 ∧ fwRuns s = true ∧ p ≠ 0 ∧ msgService m = 4) ∧
    (∃ (s : State) (p : PartId) (m : List Byte) (rest : List (List Byte)),
        (sdioSt s p).toFw = m :: rest ∧ (sdioSt s p).toHost.length < 8 ∧ fwRuns s = true ∧ p ≠ 0 ∧ msgService m = 5) ∧
    (∃ (s : State) (p : PartId) (m : List Byte) (rest : List (List Byte)),
        (sdioSt s p).toFw = m :: rest ∧ (sdioSt s p).toHost.length < 8 ∧ fwRuns s = true ∧ p ≠ 0 ∧ msgService m = 6) ∧
    (∃ (s : State) (p : PartId) (m : List Byte) (rest : List (List Byte)),
        (sdioSt s p).toFw = m :: rest ∧ (sdioSt s p).toHost.length < 8 ∧ fwRuns s = true ∧ p ≠ 0 ∧ msgService m = 7) ∧
    (∃ (s : State) (p : PartId) (m : List Byte) (rest : List (List Byte)),
        (sdioSt s p).toFw = m :: rest ∧ (sdioSt s p).toHost.length < 8 ∧ fwRuns s = true ∧ ¬(1 ≤ msgService m ∧ msgService m ≤ 7)) ∧
    (∃ (s : State) (who : Requester), Accepted s who pgSec 324 0) :=
  ⟨⟨fwOn [] { sdio := [(0, { toHost := List.replicate 8 [] })] }, 0, by decide⟩,
   ⟨{ said 0 (msg [1]) with boot := { running := true, push := true, header := [] } }, 0, msg [1], [], 3, by decide⟩,
   ⟨fwOn [] (said 1 (msg [1])), 1, msg [1], [], by decide⟩,
   ⟨fwOn [] (said 0 (msg [2, 0, 0, 0, 0, 0, 0, 0, 0, 0xFFFFFFFF, 0xFF])), 0, msg [2, 0, 0, 0, 0, 0, 0, 0, 0, 0xFFFFFFFF, 0xFF], [], 15, 5, by decide +kernel⟩,
   ⟨fwOn [] (said 0 (msg [3, 0, 0, 0, 0, 0, 0, 0, 0, 0xFFFFFFFF, 0xFF])), 0, msg [3, 0, 0, 0, 0, 0, 0, 0, 0, 0xFFFFFFFF, 0xFF], [], 15, 5, by decide +kernel⟩,
   ⟨ddrAll [] (said 0 (msg [2])), 0, msg [2], [], by decide⟩,
   ⟨ddrAll [] (said 0 (msg [3])), 0, msg [3], [], by decide +kernel⟩,
   ⟨ddrAll [] (said 0 (msg [4, 0, 0, 1262836051])), 0, msg [4, 0, 0, 1262836051], [], List.replicate 16 0, ⟨by decide, by decide, by decide, by decide, by decide, by decide, by decide, rfl⟩⟩,
   ⟨fwOn [(pgSec, Fl.secFuseFlagsCustValid, 1)] (said 0 (msg [5, 0, 0, 1380275787])), 0, msg [5, 0, 0, 1380275787], [], by decide⟩,
   ⟨fwOn [] (said 0 (msg [6])), 0, msg [6], [], by decide⟩,
   ⟨fwOn [] (said 0 (msg [7, 1, 0, 1112493908])), 0, msg [7, 1, 0, 1112493908], [], by decide⟩,
   ⟨fwOn [] (said 0 (msg [4])), 0, msg [4], [], by decide⟩,
   ⟨fwOn [(pgSec, Fl.secFuseFlagsCustValid, 1)] (said 0 (msg [4, 0, 0, 0x4B455953])), 0, msg [4, 0, 0, 0x4B455953], [], by decide⟩,
   ⟨fwOn [] (said 0 (msg [5])), 0, msg [5], [], by decide⟩,
   ⟨fwOn [] (said 0 (msg [7])), 0, msg [7], [], by decide⟩,
   ⟨fwOn [] (said 1 (msg [4])), 1, msg [4], [], by decide⟩,
   ⟨fwOn [] (said 2 (msg [5])), 2, msg [5], [], by decide⟩,
   ⟨fwOn [] (said 3 (msg [6])), 3, msg [6], [], by decide⟩,
   ⟨fwOn [] (said 1 (msg [7])), 1, msg [7], [], by decide⟩,
   ⟨fwOn [] (said 0 (msg [8])), 0, msg [8], [], by decide⟩,
   ⟨{}, fw0, by simp only [accepted_iff]; decide⟩⟩

theorem witness_ResetsAndBoot_26 (h : imageFault (links 2 [(pgSec, Fl.secBootStatPhase, 5)]) (List.take 8192 okHeader) (slice okHeader 8192 (hdr okHeader 8 4)) = none) :
    ∃ (s : State) (o : BootObs),
    fget s pgSec Fl.secBootStatFailed = 0 ∧
    s.boot.rst = none ∧
    bootPhase s = 5 ∧
    (∀ (k : LinkId), k ∈ allLinks → linkState s k = 2 ∨ linkState s k = 4) ∧
    allDies.all (dieReached s) = true ∧
    fget s pgSec Fl.secFuseFlagsSpiBootDis = 0 ∧
    imageFault s (List.take 8192 o.image) (slice o.image 8192 (hdr o.image 8 4)) = none :=
  ⟨links 2 [(pgSec, Fl.secBootStatPhase, 5)], ⟨true, true, okHeader⟩, ⟨by decide, by decide, by decide, by decide, by decide, by decide, h⟩⟩

theorem witness_ResetsAndBoot :
    (∃ (s : State), s.boot.rst ≠ none) ∧
    (∃ (s : State), s.boot.rst = none) ∧
    (∃ (s : State) (k : Nat), s.boot.rst = none ∧ s.boot.kickAt = some k ∧ s.us < k + 1000 * fget s pgSec Fl.secWdogLimitMs) ∧
    (∃ (s : State) (k : Nat), s.boot.rst = none ∧ s.boot.kickAt = some k ∧ k + 1000 * fget s pgSec Fl.secWdogLimitMs ≤ s.us) ∧
    (∃ (s : State) (who : Requester) (a : Nat), s.boot.rst = none ∧ Accepted s who pgSec 292 0 ∧ s.boot.armAt = some a ∧ s.us ≤ a + 1000) ∧
    (∃ (s : State) (who : Requester), s.boot.rst = none ∧ Accepted s who pgSec 292 0 ∧ ∀ (a : Nat), s.boot.armAt = some a → a + 1000 < s.us) ∧
    (∃ (s : State) (who : Requester), Accepted s who pgSec 292 0) ∧
    (∃ (s : State) (who : Requester), Accepted s who pgSec 296 0) ∧
    (∃ (s : State), fget s pgFum Fl.fumStatFlushing = 0) ∧
    (∃ (s : State), fget s pgFum Fl.fumStatFlushing = 1 ∧ s.fum.again = true) ∧
    (∃ (s : State), fget s pgFum Fl.fumStatFlushing = 1 ∧ s.fum.again = false ∧ s.boot.rst = none) ∧
    (∃ (s : State) (c : RstCause), fget s pgFum Fl.fumStatFlushing = 1 ∧ s.fum.again = false ∧ s.boot.rst = some c) ∧
    (∃ (s : State), fget s pgSec Fl.secBootStatFailed ≠ 0) ∧
    (∃ (s : State),
        fget s pgSec Fl.secBootStatFailed = 0 ∧
        s.boot.rst = none ∧
        bootPhase s = 0 ∧
        tripped s = false ∧ fget s pgPwr Fl.pwrAlertAsserted = 0 ∧ domainOn s 23 = false ∧ fbit s pgPwr Fl.pwrDomBusyRamp 23 = false) ∧
    (∃ (s : State), fget s pgSec Fl.secBootStatFailed = 0 ∧ s.boot.rst = none ∧ bootPhase s = 1 ∧ domainOn s 23 = false) ∧
    (∃ (s : State), fget s pgSec Fl.secBootStatFailed = 0 ∧ s.boot.rst = none ∧ bootPhase s = 1 ∧ domainOn s 23 = true) ∧
    (∃ (s : State),
        fget s pgSec Fl.secBootStatFailed = 0 ∧ s.boot.rst = none ∧ bootPhase s = 0 ∧ (tripped s = true ∨ fget s pgPwr Fl.pwrAlertAsserted ≠ 0)) ∧
    (∃ (s : State), fget s pgSec Fl.secBootStatFailed = 0 ∧ s.boot.rst = none ∧ bootPhase s = 2 ∧ s.snt.ignore = true) ∧
    (∃ (s : State) (x : Snap), fget s pgSec Fl.secBootStatFailed = 0 ∧ s.boot.rst = none ∧ bootPhase s = 2 ∧ s.snt.ignore = false ∧ s.snt.last = some x) ∧
    (∃ (s : State),
        fget s pgSec Fl.secBootStatFailed = 0 ∧ s.boot.rst = none ∧ bootPhase s = 2 ∧ s.snt.ignore = false ∧ s.snt.last = none) ∧
    (∃ (s : State), fget s pgSec Fl.secBootStatFailed = 0 ∧ s.boot.rst = none ∧ bootPhase s = 3) ∧
    (∃ (s : State),
        fget s pgSec Fl.secBootStatFailed = 0 ∧
        s.boot.rst = none ∧
        bootPhase s = 4 ∧ fget s pgClk Fl.clkStatSwitching = 0 ∧ fget s pgClk Fl.clkStatRoot = if s.boot.auxPath = true then 1 else 2) ∧
    (∃ (s : State),
        fget s pgSec Fl.secBootStatFailed = 0 ∧
        s.boot.rst = none ∧
        bootPhase s = 4 ∧
        fget s pgClk Fl.clkStatSwitching = 0 ∧
        s.boot.auxPath = false ∧
        fget s pgClk Fl.clkStatRoot ≠ 2 ∧ srcReady s 4 = false ∧ srcReady s 2 = false ∧ s.boot.xtalAt + 2000 ≤ s.us) ∧
    (∃ (s : State),
        fget s pgSec Fl.secBootStatFailed = 0 ∧
        s.boot.rst = none ∧ bootPhase s = 5 ∧ ∃ (k : LinkId), k ∈ allLinks ∧ linkState s k ≠ 2 ∧ linkState s k ≠ 4) ∧
    (∃ (s : State) (o : BootObs) (n : Nat),
        fget s pgSec Fl.secBootStatFailed = 0 ∧
        s.boot.rst = none ∧
        bootPhase s = 5 ∧
        (∀ (k : LinkId), k ∈ allLinks → linkState s k = 2 ∨ linkState s k = 4) ∧
        allDies.all (dieReached s) = true ∧
        fget s pgSec Fl.secFuseFlagsSpiBootDis = 0 ∧
        fget s pgSec Fl.secFuseFlagsSdioBootDis = 0 ∧
        hdr o.image 0 4 = 1464228431 ∧ imageFault s (List.take 8192 o.image) (slice o.image 8192 (hdr o.image 8 4)) = some n) ∧
    (∃ (s : State),
        fget s pgSec Fl.secBootStatFailed = 0 ∧
        s.boot.rst = none ∧
        bootPhase s = 5 ∧ (∀ (k : LinkId), k ∈ allLinks → linkState s k = 2 ∨ linkState s k = 4) ∧ allDies.all (dieReached s) = false) ∧
    (∃ (s : State), domainOn s 23 = false) ∧
    (∃ (s : State), domainOn s 23 = true) :=
  ⟨⟨{ boot := { rst := some .soft } }, by decide⟩,
   ⟨{}, by decide⟩,
   ⟨st [(pgSec, Fl.secWdogLimitMs, 5)] { us := 5000, boot := { kickAt := some 1 } }, 1, by decide⟩,
   ⟨st [(pgSec, Fl.secWdogLimitMs, 5)] { us := 5001, boot := { kickAt := some 1 } }, 1, by decide⟩,
   ⟨st [(pgSec, Fl.secWdogLimitMs, 5)] { us := 1001, boot := { armAt := some 1 } }, fw0, 1, by simp only [accepted_iff]; decide⟩,
   ⟨{}, fw0, by
  simp only [accepted_iff]
  exact ⟨by decide, by decide, none_some (by decide)⟩⟩,
   ⟨{}, fw0, by simp only [accepted_iff]; decide⟩,
   ⟨{}, fw0, by simp only [accepted_iff]; decide⟩,
   ⟨{}, by decide⟩,
   ⟨st [(pgFum, Fl.fumStatFlushing, 1)] { fum := { again := true } }, by decide⟩,
   ⟨st [(pgFum, Fl.fumStatFlushing, 1)], by decide⟩,
   ⟨st [(pgFum, Fl.fumStatFlushing, 1)] { boot := { rst := some .pin } }, .pin, by decide⟩,
   ⟨st [(pgSec, Fl.secBootStatFailed, 1)], by decide⟩,
   ⟨{}, by decide⟩,
   ⟨st [(pgSec, Fl.secBootStatPhase, 1)], by decide⟩,
   ⟨st [(pgSec, Fl.secBootStatPhase, 1), on], by decide⟩,
   ⟨st [(pgPwr, Fl.pwrAlertAsserted, 1)], by decide⟩,
   ⟨st [(pgSec, Fl.secBootStatPhase, 2)] { snt := { ignore := true } }, by decide⟩,
   ⟨st [(pgSec, Fl.secBootStatPhase, 2)] { snt := { last := some ⟨1, [], []⟩ } }, ⟨1, [], []⟩, by decide⟩,
   ⟨st [(pgSec, Fl.secBootStatPhase, 2)], by decide⟩,
   ⟨st [(pgSec, Fl.secBootStatPhase, 3)], by decide⟩,
   ⟨st [(pgSec, Fl.secBootStatPhase, 4), (pgClk, Fl.clkStatRoot, 2)], by decide⟩,
   ⟨st [(pgSec, Fl.secBootStatPhase, 4), (pgClk, Fl.clkSrcRdyRdy, 1)] { us := 2000 }, by decide⟩,
   ⟨st [(pgSec, Fl.secBootStatPhase, 5)], by decide⟩,
   ⟨links 2 [(pgSec, Fl.secBootStatPhase, 5)], ⟨true, true, msg [0x57465A4F, 2]⟩, 3, by decide⟩,
   ⟨links 4 [(pgSec, Fl.secBootStatPhase, 5)], by decide⟩,
   ⟨{}, by decide⟩,
   ⟨st [on], by decide⟩⟩

theorem witness_SnapshotsTagsAndRecords :
    (∃ (s : State) (who : Requester), Accepted s who pgSnt 260 0) ∧
    (∃ (s : State), fget s pgSnt Fl.sntStatSnap ≠ 1) ∧
    (∃ (s : State), fget s pgSnt Fl.sntStatSnap = 1) ∧
    (∃ (s : State) (x : Snap), s.boot.snap = some x ∧ fget s pgSnt Fl.sntStatSnap = 2 ∧ fget s pgFum Fl.fumStatFlushing = 1) ∧
    (∃ (s : State) (x : Snap), s.boot.snap = some x ∧ fget s pgSnt Fl.sntStatSnap = 2 ∧ fget s pgFum Fl.fumStatFlushing = 0) ∧
    (∃ (s : State) (who : Requester), fget s pgSnt Fl.lockCfg = 0 ∧ Accepted s who pgSnt 256 0) ∧
    (∃ (s : State) (who : Requester) (i : Fin 256), fget s pgSnt Fl.lockCfg = 0 ∧ Accepted s who pgSnt (2048 + 4 * ↑i) 0 ∧ s.snt.tagLock.testBit (↑i / 16) = false) ∧
    (∃ (s : State) (who : Requester) (i : Fin 256), fget s pgSnt Fl.lockCfg = 0 ∧ Accepted s who pgSnt (2048 + 4 * ↑i) 0 ∧ s.snt.tagLock.testBit (↑i / 16) = true) ∧
    (∃ (s : State) (who : Requester), fget s pgSnt Fl.lockCfg = 0 ∧ Accepted s who pgSnt 288 0) ∧
    (∃ (s : State) (r : FumRec) (rest : List FumRec),
        s.fumIn = r :: rest ∧
        (r.code = 4100 ∨ s.fum.buckets.length < 32 ∧ ∀ (b : Bucket), b ∈ s.fum.buckets → b.code = r.code → 0 < b.tokens) ∧
        s.fum.buf.length < 64) ∧
    (∃ (s : State) (r : FumRec) (rest : List FumRec),
        s.fumIn = r :: rest ∧
        (r.code = 4100 ∨ s.fum.buckets.length < 32 ∧ ∀ (b : Bucket), b ∈ s.fum.buckets → b.code = r.code → 0 < b.tokens) ∧
        64 ≤ s.fum.buf.length) ∧
    (∃ (s : State) (r : FumRec) (rest : List FumRec) (b : Bucket),
        s.fumIn = r :: rest ∧
        List.find? (fun (b : Bucket) => decide (b.code = r.code)) s.fum.buckets = some b ∧
        r.code ≠ 4100 ∧ b.tokens = 0 ∧ (s.us - b.from') * fumRate s / 1000000 ≤ b.gained) ∧
    (∃ (s : State) (who : Requester), Accepted s who pgFum 256 0 ∧ fget s pgFum Fl.fumStatFlushing = 1) ∧
    (∃ (s : State) (who : Requester), Accepted s who pgFum 256 0 ∧ fget s pgFum Fl.fumStatFlushing = 0) ∧
    (∃ (s : State), ∀ (b : Bucket), b ∈ s.fum.buckets ++ s.fum.shared.toList → b.count = 0 ∨ s.us < b.lastAt + 1000000) :=
  ⟨⟨{}, fw0, by simp only [accepted_iff]; decide⟩,
   ⟨{}, by decide⟩,
   ⟨st [(pgSnt, Fl.sntStatSnap, 1)], by decide⟩,
   ⟨st [(pgSnt, Fl.sntStatSnap, 2), (pgFum, Fl.fumStatFlushing, 1)] { boot := { snap := some ⟨1, [], []⟩ } }, ⟨1, [], []⟩, by decide⟩,
   ⟨st [(pgSnt, Fl.sntStatSnap, 2), (pgFum, Fl.fumStatFlushing, 0)] { boot := { snap := some ⟨1, [], []⟩ } }, ⟨1, [], []⟩, by decide⟩,
   ⟨{}, fw0, by simp only [accepted_iff]; decide⟩,
   ⟨{}, fw0, 255, by simp only [accepted_iff]; decide⟩,
   ⟨{ snt := { tagLock := 2 ^ 15 } }, fw0, 255, by simp only [accepted_iff]; decide⟩,
   ⟨{}, fw0, by simp only [accepted_iff]; decide⟩,
   ⟨{ fumIn := [fr 5] }, fr 5, [], by decide⟩,
   ⟨{ fumIn := [fr 5], fum := { buf := List.replicate 64 (fr 6) } }, fr 5, [], by decide⟩,
   ⟨{ fumIn := [fr 5], fum := { buckets := [{ code := 5, tokens := 0, from' := 0, gained := 0, count := 3, lastAt := 1 }] } }, fr 5, [], { code := 5, tokens := 0, from' := 0, gained := 0, count := 3, lastAt := 1 }, by decide⟩,
   ⟨st [(pgFum, Fl.fumStatFlushing, 1)], fw0, by simp only [accepted_iff]; decide⟩,
   ⟨{}, fw0, by simp only [accepted_iff]; decide⟩,
   ⟨{}, by decide⟩⟩
/-! ## Ill-formed commands are refused -/

/-- A page instance that no page of the part has. -/
def noPage : PageKey := ⟨.hubDdr, 8⟩

theorem test_wf_request_length : (Instr.deviceRequest fw0 ⟨false, 0, 0, []⟩).wf = false := by decide
theorem test_wf_request_end : (Instr.deviceRequest fw0 ⟨false, 0xFFFFFFFFFF, 2, []⟩).wf = false := by decide
theorem test_wf_request_data : (Instr.deviceRequest fw0 ⟨true, 0, 2, [1]⟩).wf = false := by decide
theorem test_wf_request_ok : (Instr.deviceRequest fw0 ⟨true, 0, 2, [1, 2]⟩).wf = true := by decide
theorem test_wf_register_page : (Instr.registerWrite fw0 noPage 0x100 32 0).wf = false := by decide
theorem test_wf_register_offset : (Instr.registerWrite fw0 (pgCam 0) 0x1000 32 0).wf = false := by decide
theorem test_wf_register_width : (Instr.registerWrite fw0 (pgCam 0) 0x100 24 0).wf = false := by decide
theorem test_wf_tx_word : (Instr.txWrite fw0 (pgCam 0) 0x102 0).wf = false := by decide
theorem test_wf_sh_word : (Instr.shWrite fw0 (pgCam 0) 0x102 0).wf = false := by decide
theorem test_wf_pages : ∀ c ∈ [Instr.pageEnable fw0 noPage, .pageDisable fw0 noPage, .pageTurnOnDone noPage false, .pageTurnOffDone noPage,
    .softRst fw0 noPage, .irqStatClear fw0 noPage 0 0, .faultClr fw0 noPage, .ownerWrite fw0 noPage 0, .lockCfgSet fw0 noPage,
    .lockOwnSet fw0 noPage, .txnOpen fw0 noPage 0, .txnCommit fw0 noPage, .txnAbort fw0 noPage], c.wf = false := by decide
theorem test_wf_spad_line : (Instr.spadAccess 0 0 true false 0 (List.replicate 65 0) .clean).wf = false := by decide
theorem test_wf_drift : (Instr.liveCalibration 0 0 [0, 0, 0, 0] [0, 0, 0, 0, 0] 0).wf = false := by decide
theorem test_wf_centre : (Instr.liveCalibration 0 0 [0, 0, 0, 0, 0] [0, 0, 0, 0] 0).wf = false := by decide

/-! ## The spec's worked examples and published check values -/

/-- The next state, or the reset state where there is none. -/
def next (i : Instr) (s : State) : State := match exec i s with
  | .next t => t
  | _ => {}

/-- spec/01: 0x00_4000_3000 is HB's and 0x00_4000_4000 is HA's. -/
theorem test_example_interleave : regionDie 0x40003000 (regionOf {} (.tile 37 .s0) 0x40003000) = .hb ∧
    regionDie 0x40004000 (regionOf {} (.tile 37 .s0) 0x40004000) = .ha := by decide

/-- spec/02: WARP is ON and is disabled at 0 us. -/
theorem test_example_page_off : fget (next (.pageDisable fw0 (pgEng .warp)) (st [on, (pgEng .warp, Fl.state, 2)])) (pgEng .warp) Fl.state = 3 := by decide
/-- spec/02: enabled at 3 us while it turns off. -/
theorem test_example_page_pend : fget (next (.pageEnable fw0 (pgEng .warp)) (st [on, (pgEng .warp, Fl.state, 3)])) (pgEng .warp) Fl.state = 4 := by decide
/-- spec/02: the pending enable is cancelled at 8 us. -/
theorem test_example_page_cancel : fget (next (.pageDisable fw0 (pgEng .warp)) (st [on, (pgEng .warp, Fl.state, 4)])) (pgEng .warp) Fl.state = 3 := by decide
/-- spec/02: at 18 us the turn-off completes with an enable pending, and at 43 us the page is ON. -/
theorem test_example_page_again :
    let t := next (.pageTurnOffDone (pgEng .warp)) (st [on, (pgEng .warp, Fl.state, 4), (pgEng .warp, Fl.ctrlEn, 1)])
    fget t (pgEng .warp) Fl.state = 1 ∧ fget (next (.pageTurnOnDone (pgEng .warp) true) t) (pgEng .warp) Fl.state = 2 := by decide

/-- spec/03: x = 1.3 is evaluated with segment 37 of table B at u = 0.2, which is 0.2000007 in FP32: with c1 of that segment
alone nonzero, and 1, the function is u. -/
theorem test_example_table : tableFn (st [(pgVec 0, Fl.vecLutbXminXmin, 0xC1000000), (pgVec 0, Fl.vecLutbScaleScale, 0x40800000),
    (pgVec 0, Fl.vecLutbCoef 149, 0x3F800000)]) 0 1 0x3FA66666 = 0x3E4CCD00 := by decide
/-- spec/03: coefficient 2 of segment 37 of table B lies at 0xA58. -/
theorem test_example_coefficient : (Fl.vecLutbCoef (4 * 37 + 2)).off = 0xA58 := by decide

/-- spec/04: 2,330 / 512 = 4.55 rounds to 5. -/
theorem test_example_conversion : (roundHalfAway 2330 9, roundHalfAway (-2330) 9) = (5, -5) := by decide
/-- spec/04: with SAT_LIMIT 0xFFFE in a SAFE job, one saturation in 2,048 elements fails the test. -/
theorem test_example_saturation : satTestFails (satLimit 0xFFFE true) 1 2048 = true := by decide

/-- The check value of the CRC-64 of R423 over the nine digits, as ECMA-182 gives it. -/
theorem test_crc64 : crc64 [0x31, 0x32, 0x33, 0x34, 0x35, 0x36, 0x37, 0x38, 0x39] = 0x6C40DF5F0B497347 := by decide +kernel

/-- The byte at the lowest address is the lowest of a word (R8). -/
theorem test_word_bytes : leBytes 4 0x12345678 = [0x78, 0x56, 0x34, 0x12] := by decide

/-- A step takes the command in front of the queue. -/
theorem test_step_takes : (match step { pending := [.wakeN, .lockstep] } with
  | .next t => t.pending
  | _ => []) = [.lockstep] := by decide

end Sys2Proof.Tests
end

/-! ## A register write that passes every check, outside deep idle -/

namespace Sys2Proof.Machine

open Sys2Proof.Safety

/-- A write cancels deep-idle entry only while entry is under way (R452). -/
theorem touched_of_not_entering {s : State} (who : Requester) (pg : PageKey) (h : fget s pgPwr Fl.pwrIdleState ≠ 1) :
    touched who pg s = s := by
  cases who with
  | host p => simp [touched, cancelEntry, h]
  | _ => rfl

/-- An accepted aligned 32-bit write acts on its register, with no check left (R37, R45, R52). -/
theorem exec_registerWrite_of_accepted {s : State} {who : Requester} {pg : PageKey} {off : Nat} {v : Word}
    (h : Accepted s who pg off v) (hidle : fget s pgPwr Fl.pwrIdleState ≠ 1) (halign : off % 4 = 0) :
    exec (.registerWrite who pg off 32 v) s = .next (writeAct busOwn who pg off v s) := by
  have hact : doRegisterWrite who pg off 32 v s = writeAct busOwn who pg off v s := by
    simp only [doRegisterWrite, h.exists', halign, busWrite, touched_of_not_entering who pg hidle, writeBy,
      guardedWord_accepted _ h, Bool.not_true, Bool.false_eq_true, and_self, if_true, if_false]
  calc exec (.registerWrite who pg off 32 v) s = .next (doRegisterWrite who pg off 32 v s) := rfl
    _ = .next (writeAct busOwn who pg off v s) := by rw [hact]

/-- A write of PART_JOB_SUB_HI also submits a job (R383), which `Safety.plainReg` does not leave out. -/
theorem writeAct_jobSubHi (who : Requester) (p : PartId) (v : Word) (s : State) :
    writeAct busOwn who (pgPart p) 0x214 v s = jobSubWrite p v s := by
  have hp : partOf p.val = p := Fin.ext (Nat.mod_eq_of_lt p.isLt)
  calc writeAct busOwn who (pgPart p) 0x214 v s = jobSubWrite (partOf p.val) v s := rfl
    _ = jobSubWrite p v s := by rw [hp]

end Sys2Proof.Machine

/-! ## The statements settled -/

namespace Sys2Proof

open Sys2Proof.Machine Sys2Proof.Safety

/-- Settles O5: the reset state is the empty one, whose memory is in canonical form by `reset_mem_wf`. -/
theorem resetMeetsTheInvariants : Obligations.ResetMeetsTheInvariants := by
  have hfounding : State.reset.snt.founding.length ≤ 256 := Nat.zero_le _
  exact ⟨rfl, reset_mem_wf, hfounding, rfl, rfl, rfl⟩

/-- Refutes O13: `Safety.plainReg` lets PART_JOB_SUB_HI through (0x214 of PART, whose ADDR is RW and whose GO is WO). Right
after reset the firmware cores write GO there for PART0: the write is accepted, and it stores ADDR, but the job it submits waits
among the submissions too (R383), so registers are not all that changes. -/
theorem not_registerWriteStoresByAccessType : ¬ Obligations.RegisterWriteStoresByAccessType := by
  unfold Obligations.RegisterWriteStoresByAccessType
  intro h
  have hidle : fget State.reset pgPwr Fl.pwrIdleState ≠ 1 := by decide
  have hacc : Accepted State.reset (.fw 0 false) (pgPart 0) 0x214 0x80000000 := ⟨by decide, by decide, by decide⟩
  obtain ⟨hstores, -⟩ := h (.fw 0 false) (pgPart 0) 0x80000000 State.reset hidle
  obtain ⟨u, hexec, -, honly⟩ := hstores 0x214 hacc (by decide) (by decide) (by decide) (by decide) (by decide) (by decide)
    (by decide) (by decide) (by decide)
  rw [exec_registerWrite_of_accepted hacc hidle (by decide), writeAct_jobSubHi] at hexec
  injection hexec with hu
  have hnone : u.submits = [] := by rw [honly.rest]; rfl
  have hone : (jobSubWrite 0 0x80000000 State.reset).submits = [(0, 0)] := by decide
  rw [hu, hnone] at hone
  exact List.cons_ne_nil _ _ hone.symm

end Sys2Proof

namespace Sys2Proof.Machine

/-! ## The hub, the subchannel and the line of a DDR address (R32, R290, R291) -/

theorem ddrHub_eq (a : Nat) : ddrHub a = if a / 4096 % 2 = 0 then 0 else 1 := by
  have hbit : a.testBit 12 = decide (a / 4096 % 2 = 1) := Nat.testBit_eq_decide_div_mod_eq
  rw [ddrHub, hbit]
  by_cases h : a / 4096 % 2 = 0
  · simp [h]
  · simp [Nat.mod_two_ne_zero.mp h]

theorem ddrHub_val (a : Nat) : (ddrHub a).val = a / 4096 % 2 := by
  rw [ddrHub_eq]
  split <;> simp <;> omega

theorem ddrHub_next_block (a : Nat) : ddrHub (a + 4096) ≠ ddrHub a := by
  intro h
  have hval := congrArg Fin.val h
  rw [ddrHub_val, ddrHub_val] at hval
  omega

theorem ddrSub_four {s : State} (a : Nat) (h : subCount s = 4) : (ddrSub s a).val = a / 256 % 4 := by
  simp [ddrSub, h, bitsOf]

theorem ddrSub_two {s : State} (a : Nat) (h : subCount s = 2) : (ddrSub s a).val = a / 256 % 2 := by
  simp [ddrSub, h, bitsOf]
  omega

theorem ddrSub_one {s : State} (a : Nat) (h : subCount s = 1) : (ddrSub s a).val = 0 := by
  simp [ddrSub, h]

/-- A hub populates one, two or four subchannels (R285). -/
theorem subCount_cases (s : State) : subCount s = 1 ∨ subCount s = 2 ∨ subCount s = 4 := by
  unfold subCount cfgSubs
  split <;> simp

/-- The two low digits of a packed line index, of bases 4 and `m`, and what is above them. -/
theorem digits_of_packed {x y m : Nat} (z : Nat) (hx : x < 4) (hy : y < m) :
    (x + 4 * y + 4 * m * z) % 4 = x ∧ (x + 4 * y + 4 * m * z) / 4 % m = y ∧ (x + 4 * y + 4 * m * z) / (4 * m) = z := by
  have hsplit : x + 4 * y + 4 * m * z = x + 4 * (y + m * z) := by rw [Nat.mul_add, Nat.mul_assoc, Nat.add_assoc]
  have hlow : (x + 4 * y + 4 * m * z) % 4 = x := by rw [hsplit, Nat.add_mul_mod_self_left, Nat.mod_eq_of_lt hx]
  have hrest : (x + 4 * y + 4 * m * z) / 4 = y + m * z := by
    rw [hsplit, Nat.add_mul_div_left _ _ (by decide), Nat.div_eq_of_lt hx, Nat.zero_add]
  refine ⟨hlow, ?_, ?_⟩
  · rw [hrest, Nat.add_mul_mod_self_left, Nat.mod_eq_of_lt hy]
  · rw [← Nat.div_div_eq_div_mul, hrest, Nat.add_mul_div_left _ _ (by omega), Nat.div_eq_of_lt hy, Nat.zero_add]

theorem lineAddr_subLine_one (a : Nat) : lineAddr 1 (a / 4096 % 2) 0 (subLine 1 a) = a / 64 * 64 := by
  simp only [lineAddr, subLine, bitsOf]
  omega

theorem lineAddr_subLine_two (a : Nat) : lineAddr 2 (a / 4096 % 2) (a / 256 % 2) (subLine 2 a) = a / 64 * 64 := by
  obtain ⟨hlow, hmid, htop⟩ := digits_of_packed (x := a / 2 ^ 6 % 2 ^ 2) (y := a / 2 ^ 9 % 2 ^ 3) (m := 8) (a / 2 ^ 13)
    (Nat.mod_lt _ (by decide)) (Nat.mod_lt _ (by decide))
  simp only [Nat.reduceMul] at hlow hmid htop
  simp only [lineAddr, subLine, bitsOf, hlow, hmid, htop]
  clear hlow hmid htop
  omega

theorem lineAddr_subLine_four (a : Nat) : lineAddr 4 (a / 4096 % 2) (a / 256 % 4) (subLine 4 a) = a / 64 * 64 := by
  obtain ⟨hlow, hmid, htop⟩ := digits_of_packed (x := a / 2 ^ 6 % 2 ^ 2) (y := a / 2 ^ 10 % 2 ^ 2) (m := 4) (a / 2 ^ 13)
    (Nat.mod_lt _ (by decide)) (Nat.mod_lt _ (by decide))
  simp only [Nat.reduceMul] at hlow hmid htop
  simp only [lineAddr, subLine, bitsOf, hlow, hmid, htop]
  clear hlow hmid htop
  omega

/-- The packing of R291 loses no bit of the line's address, whichever number of subchannels is populated. -/
theorem lineAddr_subLine (s : State) (a : Nat) :
    lineAddr (subCount s) (ddrHub a).val (ddrSub s a).val (subLine (subCount s) a) = a / 64 * 64 := by
  rcases subCount_cases s with h | h | h
  · rw [ddrSub_one a h, h, ddrHub_val, lineAddr_subLine_one]
  · rw [ddrSub_two a h, h, ddrHub_val, lineAddr_subLine_two]
  · rw [ddrSub_four a h, h, ddrHub_val, lineAddr_subLine_four]

end Sys2Proof.Machine

namespace Sys2Proof

open Sys2Proof.Machine Sys2Proof.Safety

/-- Settles O33: the line comes back by `lineAddr_subLine`, for each number of subchannels a hub may populate. -/
theorem ddrAddressesInterleave : Obligations.DdrAddressesInterleave :=
  ⟨fun a => ⟨ddrHub_eq a, ddrHub_next_block a⟩, fun _ a => ⟨ddrSub_four a, ddrSub_two a, ddrSub_one a⟩, lineAddr_subLine⟩

end Sys2Proof

namespace Sys2Proof.Machine

open Sys2Proof.Safety

/-! ## What a fault record leaves as it was -/

theorem latchFault_rest (pg : PageKey) (cls det : Nat) (s : State) :
    latchFault pg cls det s = { s with regs := (latchFault pg cls det s).regs } := by
  unfold latchFault
  split <;> rfl

theorem recordFault_rest (pg : PageKey) (cls det : Nat) (s : State) :
    recordFault pg cls det s =
      { s with regs := (recordFault pg cls det s).regs, fumIn := (recordFault pg cls det s).fumIn } := by
  unfold recordFault faultData
  rw [latchFault_rest]
  rfl

/-- A latched fault writes IRQ_RAW and FAULT of its page. -/
theorem rd_latchFault_other (s : State) (pg pg' : PageKey) (cls det off : Nat) (hirq : canonKey pg' off ≠ canonKey pg 0x010)
    (hfault : canonKey pg' off ≠ canonKey pg 0x01C) : rd (latchFault pg cls det s) pg' off = rd s pg' off := by
  unfold latchFault setIrq raise
  rw [rd_wr_other _ _ _ _ _ _ hirq]
  split
  · rw [rd_fset_key _ _ _ Fl.faultClass _ _ hfault, rd_fset_key _ _ _ Fl.faultDetail _ _ hfault]
  · rw [rd_fset_key _ _ _ Fl.faultMore _ _ hfault]

theorem rd_recordFault_key (s : State) (pg pg' : PageKey) (cls det off : Nat) (hirq : canonKey pg' off ≠ canonKey pg 0x010)
    (hfault : canonKey pg' off ≠ canonKey pg 0x01C) : rd (recordFault pg cls det s) pg' off = rd s pg' off := by
  simp only [recordFault, faultData, rd_sendFum, rd_latchFault_other s pg pg' cls det off hirq hfault]

/-! ## Link faults (R30) -/

theorem linkFault_rest (det : Nat) (s : State) :
    linkFault det s = { s with regs := (linkFault det s).regs, fumIn := (linkFault det s).fumIn } := by
  unfold linkFault
  rw [recordFault_rest, latchFault_rest]

@[simp] theorem linkFault_links (det : Nat) (s : State) : (linkFault det s).links = s.links := by rw [linkFault_rest]
@[simp] theorem linkFault_outstanding (det : Nat) (s : State) : (linkFault det s).outstanding = s.outstanding := by rw [linkFault_rest]
@[simp] theorem linkFault_mem (det : Nat) (s : State) : (linkFault det s).mem = s.mem := by rw [linkFault_rest]
@[simp] theorem linkFault_us (det : Nat) (s : State) : (linkFault det s).us = s.us := by rw [linkFault_rest]

/-- A link fault writes IRQ_RAW and FAULT of the HUB pages. -/
theorem rd_linkFault (det : Nat) (s : State) (pg : PageKey) (off : Nat) (hirq : off ≠ 0x010) (hfault : off ≠ 0x01C) :
    rd (linkFault det s) pg off = rd s pg off := by
  rw [linkFault, rd_recordFault_other _ _ _ _ _ _ hirq hfault,
    rd_latchFault_other _ _ _ _ _ _ (fun e => hirq (canonKey_pg_eq _ _ _ _ e)) (fun e => hfault (canonKey_pg_eq _ _ _ _ e))]

theorem fget_linkFault (det : Nat) (s : State) (pg : PageKey) (f : Fld) (hirq : f.off ≠ 0x010) (hfault : f.off ≠ 0x01C) :
    fget (linkFault det s) pg f = fget s pg f := by
  rw [fget, rd_linkFault _ _ _ _ hirq hfault, fget]

/-- HA's page shows a link fault where no fault was held. -/
theorem fget_linkFault_first (det : Nat) (s : State) (h : fget s (pgHub 0) Fl.faultClass = 0) :
    fget (linkFault det s) (pgHub 0) Fl.faultClass = 0x0F ∧ fget (linkFault det s) (pgHub 0) Fl.faultDetail = det % 256 := by
  have hclear : fget (latchFault (pgHub 1) 0x0F det s) (pgHub 0) Fl.faultClass = 0 := by
    rw [fget, rd_latchFault_other _ _ _ _ _ _ (by decide) (by decide)]
    exact h
  obtain ⟨hclass, hdetail, -⟩ := fault_first _ (pgHub 0) 0x0F det hclear
  exact ⟨hclass, hdetail⟩

end Sys2Proof.Machine

namespace Sys2Proof.Machine

open Sys2Proof.Safety

/-! ## The register and the record of a link (R27) -/

@[simp] theorem linkSt_setLinkSt_same (k : LinkId) (x : LinkSt) (s : State) : linkSt (setLinkSt k x s) k = x :=
  Tab.get_put_same _ _ _ _

theorem linkSt_setLinkSt_other {k j : LinkId} (x : LinkSt) (s : State) (h : j ≠ k) : linkSt (setLinkSt k x s) j = linkSt s j :=
  Tab.get_put_other _ _ _ h

theorem linkSt_of_links {s t : State} (h : t.links = s.links) (k : LinkId) : linkSt t k = linkSt s k := by
  rw [linkSt, linkSt, h]

/-- Fields of other registers than the one written keep their value. -/
theorem fget_fset_off (s : State) (pg pg' : PageKey) (f g : Fld) (v : Nat) (h : g.off ≠ f.off) :
    fget (fset pg f v s) pg' g = fget s pg' g := by
  rw [fget, rd_fset_off _ _ _ _ _ _ h, fget]

theorem linkOff_ne {k j : LinkId} (h : j ≠ k) : 0x800 + 0x4 * j.val ≠ 0x800 + 0x4 * k.val := by
  have hval : j.val ≠ k.val := fun e => h (Fin.ext e)
  omega

theorem linkState_fset_other {k j : LinkId} (pg : PageKey) (f : Fld) (v : Nat) (s : State) (hf : f.off = 0x800 + 0x4 * k.val)
    (h : j ≠ k) : linkState (fset pg f v s) j = linkState s j :=
  fget_fset_off _ _ _ _ _ _ (by rw [hf]; exact linkOff_ne h)

theorem linkState_setLink_same (k : LinkId) (v : Nat) (s : State) (h : v < 8) : linkState (setLink k v s) k = v := by
  rw [linkState, setLink, fget_fset_same _ _ _ _ (by simp [Fl.hubLinkStatState])]
  exact Nat.mod_eq_of_lt h

theorem linkState_setLink_other {k j : LinkId} (v : Nat) (s : State) (h : j ≠ k) : linkState (setLink k v s) j = linkState s j :=
  linkState_fset_other (pgHub 0) (Fl.hubLinkStatState k.val) v s rfl h

/-- A link fault changes no field of a link's register. -/
theorem fget_linkFault_link (det : Nat) (s : State) (k : LinkId) (f : Fld) (ho : f.off = 0x800 + 0x4 * k.val) :
    fget (linkFault det s) (pgHub 0) f = fget s (pgHub 0) f := fget_linkFault _ _ _ _ (by omega) (by omega)

theorem linkState_linkFault (det : Nat) (s : State) (k : LinkId) : linkState (linkFault det s) k = linkState s k :=
  fget_linkFault_link det s k _ rfl

/-- STATE of a link shares its register with fields above it. -/
theorem linkState_fset_above (k : LinkId) (f : Fld) (v : Nat) (s : State) (ho : f.off = 0x800 + 0x4 * k.val)
    (hlo : 3 ≤ f.lo) (hhi : f.lo + f.width ≤ 32) : linkState (fset (pgHub 0) f v s) k = linkState s k :=
  fget_fset_disjoint _ _ _ _ _ hhi (Or.inl (by simpa [Fl.hubLinkStatState] using hlo)) ho.symm

theorem fget_setLink_above (k : LinkId) (f : Fld) (v : Nat) (s : State) (ho : f.off = 0x800 + 0x4 * k.val)
    (hlo : 3 ≤ f.lo) : fget (setLink k v s) (pgHub 0) f = fget s (pgHub 0) f :=
  fget_fset_disjoint _ _ _ _ _ (by simp [Fl.hubLinkStatState]) (Or.inr (by simpa [Fl.hubLinkStatState] using hlo)) ho

/-- A counter field holds one more after a bump, up to its width. -/
theorem fget_fbump_same (s : State) (pg : PageKey) (f : Fld) (n : Nat) (h : f.lo + f.width ≤ 32) :
    fget (fbump pg f n s) pg f = min (fget s pg f + n) (2 ^ f.width - 1) := by
  have hpos := Nat.two_pow_pos f.width
  rw [fbump, fget_fset_same _ _ _ _ h, satAdd, Nat.mod_eq_of_lt (by omega)]

/-! ## Register space is the same in every state (R31) -/

theorem regionOf_eq_regs_iff (s : State) (who : Requester) (a : Nat) :
    regionOf s who a = .regs ↔ within 0x2000000000 0x20FFFFFFFF a = true := by
  simp only [regionOf, within]
  constructor
  · intro h
    split at h
    · split at h <;> cases h
    · simp only [decide_eq_true_eq] at h ⊢
      split at h
      · cases h
      · split at h
        · cases h
        · split at h
          · split at h <;> cases h
          · split at h
            · assumption
            · cases h
  · intro h
    simp only [decide_eq_true_eq] at h ⊢
    rw [if_neg (by omega), if_neg (by omega), if_neg (by omega), if_neg (by omega), if_pos h]

/-- A request names a place that is no register. -/
def OffRegs (o : Outstanding) : Prop := within 0x2000000000 0x20FFFFFFFF o.req.addr.toNat = false

theorem offRegs_iff (s : State) (o : Outstanding) : OffRegs o ↔ regionOf s o.who o.req.addr.toNat ≠ .regs := by
  rw [OffRegs, ne_eq, regionOf_eq_regs_iff, Bool.not_eq_true]

/-! ## What sending requests leaves of the links (R18 to R26) -/

/-- From `s` to `t` the registers of the HUB pages are as they were, and so is all that is kept of a link but the packets not
yet acknowledged and the tag served last. -/
structure LinksKept (s t : State) : Prop where
  hub : ∀ pg off, pg.kind = .hub → rd t pg off = rd s pg off
  fails : ∀ k, (linkSt t k).fails = (linkSt s k).fails
  trainAt : ∀ k, (linkSt t k).trainAt = (linkSt s k).trainAt
  gridAt : ∀ k, (linkSt t k).gridAt = (linkSt s k).gridAt

namespace LinksKept

variable {s t u : State}

theorem refl (s : State) : LinksKept s s := ⟨fun _ _ _ => rfl, fun _ => rfl, fun _ => rfl, fun _ => rfl⟩

theorem trans (h : LinksKept s t) (h' : LinksKept t u) : LinksKept s u :=
  ⟨fun pg off hk => (h'.hub pg off hk).trans (h.hub pg off hk), fun k => (h'.fails k).trans (h.fails k),
    fun k => (h'.trainAt k).trans (h.trainAt k), fun k => (h'.gridAt k).trans (h.gridAt k)⟩

/-- A field of a HUB page reads as before. -/
theorem fget (h : LinksKept s t) (j : HubId) (f : Fld) : Machine.fget t (pgHub j) f = Machine.fget s (pgHub j) f := by
  rw [Machine.fget, h.hub _ _ rfl, Machine.fget]

theorem linkState (h : LinksKept s t) (k : LinkId) : Machine.linkState t k = Machine.linkState s k := h.fget 0 _

/-- A change outside the registers and the links. -/
theorem of_regs_links (h : LinksKept s t) (hr : u.regs = t.regs) (hl : u.links = t.links) : LinksKept s u := by
  have hrd : ∀ pg off, rd u pg off = rd t pg off := fun pg off => by rw [rd, rd, hr]
  exact h.trans ⟨fun pg off _ => hrd pg off, fun k => by rw [linkSt_of_links hl], fun k => by rw [linkSt_of_links hl],
    fun k => by rw [linkSt_of_links hl]⟩

theorem wr (h : LinksKept s t) {pg : PageKey} (hk : pg.kind ≠ .hub) (off : Nat) (w : Word) : LinksKept s (wr pg off w t) :=
  h.trans ⟨fun _ _ hk' => rd_wr_kind _ _ _ _ _ _ (fun e => hk (e.symm.trans hk')), fun _ => rfl, fun _ => rfl, fun _ => rfl⟩

theorem fset (h : LinksKept s t) {pg : PageKey} (hk : pg.kind ≠ .hub) (f : Fld) (v : Nat) : LinksKept s (fset pg f v t) :=
  h.wr hk _ _

theorem fbump (h : LinksKept s t) {pg : PageKey} (hk : pg.kind ≠ .hub) (f : Fld) (n : Nat) : LinksKept s (fbump pg f n t) :=
  h.fset hk _ _

theorem setIrq (h : LinksKept s t) {pg : PageKey} (hk : pg.kind ≠ .hub) (i : Nat) : LinksKept s (setIrq pg i t) := h.wr hk _ _

theorem foldl {α : Type} (h : LinksKept s t) (f : State → α → State) (l : List α)
    (hf : ∀ a ∈ l, ∀ u, LinksKept s u → LinksKept s (f u a)) : LinksKept s (l.foldl f t) :=
  List.foldlRecOn l f h (fun u hu a ha => hf a ha u hu)

theorem fsets (h : LinksKept s t) {pg : PageKey} (hk : pg.kind ≠ .hub) (l : List (Fld × Nat)) : LinksKept s (fsets pg l t) :=
  h.foldl _ _ (fun _ _ _ hu => hu.fset hk _ _)

theorem enterState (h : LinksKept s t) {pg : PageKey} (hk : pg.kind ≠ .hub) (v : Nat) : LinksKept s (enterState pg v t) := by
  unfold Machine.enterState
  split
  · exact (h.fset hk _ _).setIrq hk _
  · exact h.fset hk _ _

theorem recordFault (h : LinksKept s t) {pg : PageKey} (hk : pg.kind ≠ .hub) (cls det : Nat) :
    LinksKept s (recordFault pg cls det t) := by
  have hlatch : LinksKept s (latchFault pg cls det t) := by
    unfold latchFault
    split
    · exact ((h.fset hk _ _).fset hk _ _).setIrq hk _
    · exact (h.fset hk _ _).setIrq hk _
  exact hlatch.of_regs_links rfl rfl

theorem refuseReq (h : LinksKept s t) (who : Requester) (cls det : Nat) : LinksKept s (refuseReq who cls det t) := by
  have hpage : (reqPage who).kind ≠ .hub := by
    cases who with
    | tile t q => cases q <;> simp [reqPage, pgEngine, pgLane, pgVec, pgStrm]
    | channel e c => cases e <;> simp [reqPage, pgEng]
    | _ => simp [reqPage, pgSdio, pgXcore, pgSeq, pgCam]
  have hpart : ∀ p : PartId, (pgPart p).kind ≠ .hub := fun p => by simp [pgPart]
  unfold Machine.refuseReq
  split
  · exact ((h.recordFault hpage _ _).fbump (hpart _) _ _).setIrq (hpart _) _
  · exact h.recordFault hpage _ _

theorem finishReq (h : LinksKept s t) (id : Nat) (err : Option (Nat × Nat)) (d : List Byte) : LinksKept s (finishReq id err d t) :=
  h.of_regs_links rfl rfl

theorem refuseOut (h : LinksKept s t) (o : Outstanding) (cls det : Nat) : LinksKept s (refuseOut o cls det t) :=
  (h.refuseReq _ _ _).finishReq _ _ _

end LinksKept

end Sys2Proof.Machine

namespace Sys2Proof.Machine

open Sys2Proof.Safety

/-! ## Wake requests change the queue alone (R447) -/

theorem wakeOne_rest (p : PartId) (s : State) (d : Nat) : wakeOne p s d = { s with wakeQ := (wakeOne p s d).wakeQ } := by
  unfold wakeOne
  split <;> rfl

theorem requestWake_rest (d : Nat) (p : PartId) (s : State) : requestWake d p s = { s with wakeQ := (requestWake d p s).wakeQ } := by
  unfold requestWake
  generalize wakeChain d = l
  induction l generalizing s with
  | nil => rfl
  | cons e r ih =>
    rw [List.foldl_cons, wakeOne_rest]
    exact ih _

theorem wakeLink_rest (k : LinkId) (p : PartId) (s : State) : wakeLink k p s = { s with wakeQ := (wakeLink k p s).wakeQ } := by
  unfold wakeLink
  dsimp only
  generalize List.filterMap linkDomain _ = l
  induction l generalizing s with
  | nil => rfl
  | cons e r ih =>
    rw [List.foldl_cons, requestWake_rest]
    exact ih _

/-! ## What a request may wait for at its target (R296, R315) -/

theorem targetGrant_atDdr {s : State} {g : Region} {pg : PageKey} (h : targetGrant s g = .atDdr pg) : pg.kind = .hubDdr := by
  unfold targetGrant at h
  split at h
  · split at h
    · cases h
    · split at h
      · split at h
        · cases h; rfl
        · cases h
      · cases h
      · cases h; rfl
  · split at h
    · cases h
    · split at h <;> cases h
  · cases h

theorem targetGrant_errorOn {s : State} {g : Region} {cls det : Nat} {pg : PageKey} {x : Option (Nat × Nat × Bool)}
    (h : targetGrant s g = .errorOn pg cls det x) : pg.kind = .hubLlc := by
  unfold targetGrant at h
  split at h
  · split at h
    · cases h
    · split at h
      · split at h <;> cases h
      · cases h
      · cases h
  · split at h
    · cases h; rfl
    · split at h <;> cases h
  · cases h

theorem spadGrant_errorOn {s : State} {who : Requester} {write : Bool} {a cls det : Nat} {u : TileId} {pg : PageKey}
    {x : Option (Nat × Nat × Bool)} (h : spadGrant s who write a u = .errorOn pg cls det x) : pg.kind = .spad := by
  unfold spadGrant at h
  dsimp only at h
  split at h
  · cases h; rfl
  · cases h

/-- Only a scratchpad or an LLC answers with an error that the serving page records. -/
theorem grantOf_errorOn {s : State} {who : Requester} {write : Bool} {a cls det : Nat} {pg : PageKey} {x : Option (Nat × Nat × Bool)}
    (h : grantOf s who write a = .errorOn pg cls det x) : pg.kind ≠ .hub := by
  unfold grantOf at h
  dsimp only at h
  split at h
  · cases h
  · split at h
    · cases h
    · cases h
    · split at h
      · cases h
      · split at h
        · rw [spadGrant_errorOn h]; decide
        · rw [targetGrant_errorOn h]; decide

namespace LinksKept

variable {s t u : State}

theorem requestWake (h : LinksKept s t) (d : Nat) (p : PartId) : LinksKept s (requestWake d p t) := by
  rw [requestWake_rest]
  exact h.of_regs_links rfl rfl

theorem wakeLink (h : LinksKept s t) (k : LinkId) (p : PartId) : LinksKept s (wakeLink k p t) := by
  rw [wakeLink_rest]
  exact h.of_regs_links rfl rfl

theorem setSub (h : LinksKept s t) (i : Nat) (x : SubSt) : LinksKept s (setSub i x t) := h.of_regs_links rfl rfl

theorem setTile (h : LinksKept s t) (u : TileId) (x : Tile) : LinksKept s (setTile u x t) := h.of_regs_links rfl rfl

theorem updHub (h : LinksKept s t) (j : HubId) (f : HubSt → HubSt) : LinksKept s (updHub j f t) := h.of_regs_links rfl rfl

theorem updOut (h : LinksKept s t) (id : Nat) (f : Outstanding → Outstanding) : LinksKept s (updOut id f t) := h.of_regs_links rfl rfl

theorem dropLines (h : LinksKept s t) (id : Nat) : LinksKept s (dropLines id t) := h.of_regs_links rfl rfl

theorem poke (h : LinksKept s t) (a : Nat) (l : List Byte) : LinksKept s (poke a l t) := h.of_regs_links rfl rfl

theorem startSub (h : LinksKept s t) (i : Nat) : LinksKept s (startSub i t) := by
  unfold Machine.startSub
  extract_lets w bad pg _ v ph _ x y
  have hpg : pg.kind ≠ .hub := by simp [pg]
  have hv : LinksKept s v := (h.setSub _ _).fset hpg _ _
  have hx : LinksKept s x := by
    unfold x
    split
    · exact hv
    · exact hv.setSub _ _
  split
  · exact hv
  · split
    · exact LinksKept.of_regs_links (hx.fset hpg _ _) rfl rfl
    · exact hx.fset hpg _ _

theorem startOn (h : LinksKept s t) (pg : PageKey) : LinksKept s (startOn pg t) := by
  unfold Machine.startOn
  split
  · exact h
  · split
    · exact h.startSub _
    · exact h

theorem enableCore (h : LinksKept s t) {pg : PageKey} (hk : pg.kind ≠ .hub) (p : PartId) : LinksKept s (enableCore pg p t) := by
  unfold Machine.enableCore
  split
  · exact h
  · have hen := h.fset hk Fl.ctrlEn 1
    dsimp only
    split
    · split
      · exact ((hen.enterState hk 1).requestWake _ p).startOn pg
      · exact (hen.enterState hk 1).startOn pg
    · exact hen.enterState hk 4
    · exact hen

theorem waitEffect (h : LinksKept s t) (who : Requester) (v : State) (g : Region) : LinksKept s (waitEffect who (targetGrant v g) t) := by
  unfold Machine.waitEffect
  split
  · exact h.wakeLink _ _
  next pg hg => exact h.enableCore (by rw [targetGrant_atDdr hg]; decide) _
  · exact h

theorem spadFault (h : LinksKept s t) (u : TileId) (port : Nat) (write : Bool) (off det : Nat) :
    LinksKept s (spadFault u port write off det t) := by
  have hpg : (pgSpad u).kind ≠ .hub := by simp [pgSpad]
  unfold Machine.spadFault
  dsimp only
  split
  · exact (((h.fsets hpg _).fbump hpg _ _).recordFault hpg _ _).setIrq hpg _
  · exact ((h.fsets hpg _).recordFault hpg _ _).setIrq hpg _

theorem recordOn (h : LinksKept s t) {pg : PageKey} (hk : pg.kind ≠ .hub) (cls det : Nat) (x : Option (Nat × Nat × Bool)) :
    LinksKept s (recordOn pg cls det x t) := by
  unfold Machine.recordOn
  split
  · exact h.spadFault _ _ _ _ _
  · exact h.recordFault hk _ _

theorem useBank (h : LinksKept s t) (rank : Nat) (u : TileId) (bank : Nat) : LinksKept s (useBank rank u t bank) := by
  have hdelay : ∀ later v, LinksKept s v → LinksKept s (pathDelayed u later v) := by
    intro later v hv
    unfold pathDelayed
    split
    · exact hv.fbump (by simp [pgLane]) _ _
    · split
      · exact hv.fbump (by simp [pgVec]) _ _
      · exact hv.fbump (by simp [pgSpad]) _ _
  unfold Machine.useBank
  dsimp only
  generalize (if (tile t u).busAt = t.now then (tile t u).busUse else []) = used
  split
  · exact h
  · exact LinksKept.foldl (h.setTile _ _) _ _ (fun e _ v hv => hdelay _ v hv)

theorem atBank (h : LinksKept s t) (u : TileId) (o : Outstanding) : LinksKept s (atBank u o t) := by
  unfold Machine.atBank
  dsimp only
  split
  · exact (h.spadFault _ _ _ _ _).finishReq _ _ _
  · split
    · exact ((h.useBank _ _ _).poke _ _).finishReq _ _ _
    · exact (h.useBank _ _ _).finishReq _ _ _

/-- A request for no register is served without a change of a HUB page's registers. -/
theorem deliver (h : LinksKept s t) (regs : RegServe) (o : Outstanding) (ho : OffRegs o) : LinksKept s (deliver regs o t) := by
  have hqueue : ∀ j g, LinksKept s (Machine.updHub j (fun x => { x with reqs := x.reqs ++ [hubReqOf t o] })
      (Machine.waitEffect o.who (targetGrant t g) t)) :=
    fun j g => (h.waitEffect o.who t g).updHub _ _
  unfold Machine.deliver
  dsimp only
  split
  next hg => exact absurd hg ((offRegs_iff t o).mp ho)
  · split
    · exact h.refuseOut _ _ _
    · exact hqueue _ _
  · split
    · exact h.refuseOut _ _ _
    · exact hqueue _ _
  · split
    · exact h.refuseOut _ _ _
    · exact h.atBank _ _
  · split
    · exact h.refuseOut _ _ _
    next hg => exact (h.recordOn (grantOf_errorOn hg) _ _ _).finishReq _ _ _
    · split
      · exact (h.poke _ _).finishReq _ _ _
      · exact h.finishReq _ _ _

/-- A link carries one packet more, of the tag it serves. -/
theorem carries (h : LinksKept s t) (k : LinkId) (n tag : Nat) :
    LinksKept s (setLinkSt k { linkSt t k with unacked := n, lastTag := tag } t) := by
  have hst : ∀ j, linkSt (setLinkSt k { linkSt t k with unacked := n, lastTag := tag } t) j =
      if j = k then { linkSt t k with unacked := n, lastTag := tag } else linkSt t j := fun j => Tab.get_put _ _ _ _ _
  refine h.trans ⟨fun _ _ _ => rfl, fun j => ?_, fun j => ?_, fun j => ?_⟩ <;> rw [hst] <;> split <;> simp_all

theorem sendReq (h : LinksKept s t) (regs : RegServe) (o : Outstanding) (ho : OffRegs o) : LinksKept s (sendReq regs o t) := by
  unfold Machine.sendReq
  split
  · exact h.refuseOut _ _ _
  · dsimp only
    split
    · exact h.refuseOut _ _ _
    · exact (h.updOut _ _).wakeLink _ _
    · have hsent := fun l o' tag => LinksKept.foldl (h.updOut o.id (fun _ => o')) (fun v k =>
        setLinkSt k { linkSt v k with unacked := (linkSt v k).unacked + 1, lastTag := tag } v) l (fun k _ v hv => hv.carries k _ _)
      split
      · exact (hsent _ _ _).refuseOut _ _ _
      · exact (hsent _ _ _).deliver regs _ ho

end LinksKept

end Sys2Proof.Machine

namespace Sys2Proof.Machine

open Sys2Proof.Safety

/-! ## Held requests are sent again (R19, R26) -/

theorem mem_of_mem_turns {s : State} {o : Outstanding} (n last : Nat) (l : List Outstanding) (h : o ∈ turns s n last l) : o ∈ l := by
  induction n generalizing last l with
  | zero => simp [turns] at h
  | succ n ih =>
    unfold turns at h
    split at h
    · simp at h
    next p hp =>
      have hmem : p ∈ l := by
        obtain ⟨i, -, hi⟩ := List.exists_of_findSome?_eq_some hp
        exact List.mem_of_find?_eq_some hi
      rcases List.mem_cons.mp h with rfl | h
      · exact hmem
      · exact (List.mem_filter.mp (ih _ _ h)).1

/-- The requests that are sent again are outstanding and held. -/
theorem mem_resent {s : State} {o : Outstanding}
    (h : o ∈ allLinks.flatMap (fun k => turns s (heldAt s k).length (linkSt s k).lastTag (heldAt s k))) :
    o ∈ s.outstanding ∧ ∃ k, o.place = .held k := by
  obtain ⟨k, -, hk⟩ := List.mem_flatMap.mp h
  have hheld := mem_of_mem_turns _ _ _ hk
  simp only [heldAt, List.mem_filter, decide_eq_true_eq] at hheld
  exact ⟨hheld.1, k, hheld.2⟩

theorem resendHeld_of_none_held {s : State} (h : ∀ o ∈ s.outstanding, ∀ k, o.place ≠ .held k) : resendHeld s = s := by
  have hnil : allLinks.flatMap (fun k => turns s (heldAt s k).length (linkSt s k).lastTag (heldAt s k)) = [] := by
    apply List.eq_nil_iff_forall_not_mem.mpr
    intro o ho
    obtain ⟨hout, k, hk⟩ := mem_resent ho
    exact h o hout k hk
  rw [resendHeld, hnil, List.foldl_nil]

theorem resendHeld_of_none_outstanding {s : State} (h : s.outstanding = []) : resendHeld s = s :=
  resendHeld_of_none_held (by simp [h])

/-- Every request outstanding is for no register. -/
def NoRegRequests (s : State) : Prop := ∀ o ∈ s.outstanding, OffRegs o

theorem noRegRequests_of {s : State} (h : ∀ o ∈ s.outstanding, regionOf s o.who o.req.addr.toNat ≠ .regs) : NoRegRequests s :=
  fun o ho => (offRegs_iff s o).mpr (h o ho)

theorem linksKept_resendHeld {s : State} (h : NoRegRequests s) : LinksKept s (resendHeld s) :=
  (LinksKept.refl s).foldl _ _ (fun o ho _ hu => hu.sendReq regRequest o (h o (mem_resent ho).1))

/-! ## A link leaves UP (R21, R23, R24) -/

/-- A request for no register that crossed the link waits to be issued once more, and no register changes. -/
theorem linksKept_loseRequest {s t : State} (k : LinkId) (o : Outstanding) (ho : OffRegs o) (h : LinksKept s t) :
    LinksKept s (loseRequest k o t) := by
  have hregs : ∀ u, regionOf u o.who o.req.addr.toNat ≠ .regs := fun u => (offRegs_iff u o).mp ho
  unfold loseRequest
  split
  · exact h
  · simp only [hregs, decide_false, Bool.and_false, Bool.false_eq_true, if_false]
    exact (h.dropLines _).updOut _ _

/-- What is asked for stays the same while requests are lost. -/
theorem noRegRequests_loseRequest {s : State} (k : LinkId) (o : Outstanding) (ho : OffRegs o) (h : NoRegRequests s) :
    NoRegRequests (loseRequest k o s) := by
  have hregs : ∀ u, regionOf u o.who o.req.addr.toNat ≠ .regs := fun u => (offRegs_iff u o).mp ho
  unfold loseRequest
  split
  · exact h
  · simp only [hregs, decide_false, Bool.and_false, Bool.false_eq_true, if_false]
    intro x hx
    obtain ⟨y, hy, rfl⟩ := List.mem_map.mp hx
    split
    · exact h y hy
    · exact h y hy

/-- The link's own record as it leaves UP, before the requests that crossed it are lost. -/
def downed (k : LinkId) (v : Nat) (s : State) : State :=
  setLinkSt k { linkSt s k with replays := 0, toReplay := 0, unacked := 0 } (setLink k v s)

theorem leaveUp_eq (k : LinkId) (v : Nat) (s : State) :
    leaveUp k v s = s.outstanding.foldl (fun s o => loseRequest k o s) (downed k v s) := rfl

theorem leaveUp_keeps {s : State} (k : LinkId) (v : Nat) (h : NoRegRequests s) :
    LinksKept (downed k v s) (leaveUp k v s) ∧ NoRegRequests (leaveUp k v s) := by
  rw [leaveUp_eq]
  refine List.foldlRecOn (motive := fun u => LinksKept (downed k v s) u ∧ NoRegRequests u) _ _ ⟨LinksKept.refl _, h⟩ ?_
  intro u hu o ho
  exact ⟨linksKept_loseRequest k o (h o ho) hu.1, noRegRequests_loseRequest k o (h o ho) hu.2⟩

theorem leaveUp_of_none_outstanding {s : State} (k : LinkId) (v : Nat) (h : s.outstanding = []) : leaveUp k v s = downed k v s := by
  rw [leaveUp_eq, h, List.foldl_nil]

/-- A field of a HUB page after a link has left UP: STATE is the link's new one. -/
theorem linkState_leaveUp {s : State} (k : LinkId) {v : Nat} (hv : v < 8) (h : NoRegRequests s) :
    linkState (leaveUp k v s) k = v := by
  rw [(leaveUp_keeps k v h).1.linkState]
  exact linkState_setLink_same k v s hv

theorem linkState_leaveUp_other {s : State} {j k : LinkId} (v : Nat) (hj : j ≠ k) (h : NoRegRequests s) :
    linkState (leaveUp k v s) j = linkState s j := by
  rw [(leaveUp_keeps k v h).1.linkState]
  exact linkState_setLink_other v s hj

theorem fget_leaveUp_above {s : State} (k : LinkId) (v : Nat) (f : Fld) (ho : f.off = 0x800 + 0x4 * k.val) (hlo : 3 ≤ f.lo)
    (h : NoRegRequests s) : fget (leaveUp k v s) (pgHub 0) f = fget s (pgHub 0) f := by
  rw [(leaveUp_keeps k v h).1.fget]
  exact fget_setLink_above k f v s ho hlo

theorem fget_leaveUp_off {s : State} (k : LinkId) (v : Nat) (j : HubId) (f : Fld) (ho : f.off ≠ 0x800 + 0x4 * k.val)
    (h : NoRegRequests s) : fget (leaveUp k v s) (pgHub j) f = fget s (pgHub j) f := by
  rw [(leaveUp_keeps k v h).1.fget]
  exact fget_fset_off _ _ _ _ _ _ ho

end Sys2Proof.Machine

namespace Sys2Proof.Machine

open Sys2Proof.Safety

/-! ## Packets, replays and the retrain that too many of them start (R21, R22, R30) -/

section
variable {k : LinkId} {s : State}

theorem exec_linkPacketReceive (h : linkState s k = 2) (good : Bool) :
    exec (.linkPacketReceive k good) s = .next (setLinkSt k
      (if good then { linkSt s k with unacked := (linkSt s k).unacked - 1 }
        else { linkSt s k with toReplay := (linkSt s k).toReplay + 1 }) s) :=
  congrArg Host.Outcome.next (show linkPacket k good s = _ by simp only [linkPacket, h, if_true])

/-- The replay of a packet counts in the interval and in REPLAY_CNT. -/
theorem linkReplay_spec (h : linkState s k = 2) (hr : 0 < (linkSt s k).toReplay) :
    ∃ t, exec (.linkReplay k) s = .next t ∧ (linkSt t k).toReplay + 1 = (linkSt s k).toReplay ∧
      (linkSt t k).replays = (linkSt s k).replays + 1 ∧
      fget t (pgHub 0) (Fl.hubLinkStatReplayCnt k.val) = min (fget s (pgHub 0) (Fl.hubLinkStatReplayCnt k.val) + 1) 0xFFFF ∧
      linkState t k = 2 ∧ t.mem = s.mem := by
  let s1 := setLinkSt k { linkSt s k with toReplay := (linkSt s k).toReplay - 1, replays := (linkSt s k).replays + 1 } s
  have hact : linkReplay k s = fbump (pgHub 0) (Fl.hubLinkStatReplayCnt k.val) 1 s1 := by
    simp only [linkReplay, h, hr, and_self, if_true, s1]
  have hst : linkSt (fbump (pgHub 0) (Fl.hubLinkStatReplayCnt k.val) 1 s1) k = linkSt s1 k := linkSt_of_links rfl k
  refine ⟨_, congrArg Host.Outcome.next hact, ?_, ?_, ?_, ?_, rfl⟩
  · rw [hst, linkSt_setLinkSt_same]
    exact Nat.sub_add_cancel hr
  · rw [hst, linkSt_setLinkSt_same]
  · exact fget_fbump_same s1 _ _ _ (by simp [Fl.hubLinkStatReplayCnt])
  · exact (linkState_fset_above k _ _ s1 rfl (by simp [Fl.hubLinkStatReplayCnt]) (by simp [Fl.hubLinkStatReplayCnt])).trans h

theorem exec_replayIntervalEnd_due (h : linkState s k = 2) (hd : (linkSt s k).gridAt + 1600000 ≤ s.now) :
    exec (.replayIntervalEnd k) s =
      .next (setLinkSt k { linkSt s k with replays := 0, gridAt := (linkSt s k).gridAt + 1600000 } s) := by
  have hact : replayIntervalEnd k s = setLinkSt k { linkSt s k with replays := 0, gridAt := (linkSt s k).gridAt + 1600000 } s := by
    simp only [replayIntervalEnd, replayInterval, h, hd, and_self, if_true]
  exact congrArg Host.Outcome.next hact

theorem exec_replayIntervalEnd_early (hd : s.now < (linkSt s k).gridAt + 1600000) : exec (.replayIntervalEnd k) s = .next s := by
  have hact : replayIntervalEnd k s = s := by
    simp only [replayIntervalEnd, replayInterval, Nat.not_le.mpr hd, and_false, if_false]
  exact congrArg Host.Outcome.next hact

theorem exec_replayLimit_within (h : (linkSt s k).replays ≤ fget s (pgHub 0) Fl.hubLinkCtrlReplayLimit) :
    exec (.replayLimit k) s = .next s := by
  have hact : replayLimit k s = s := by
    simp only [replayLimit, Nat.not_lt.mpr h, and_false, if_false]
  exact congrArg Host.Outcome.next hact

/-! ### The start of a retrain -/

theorem linkState_beginRetrain (k : LinkId) (s : State) : linkState (beginRetrain k s) k = 3 := linkState_setLink_same _ _ _ (by decide)

theorem linkState_beginRetrain_other {j : LinkId} (hj : j ≠ k) : linkState (beginRetrain k s) j = linkState s j := by
  rw [beginRetrain, linkState_setLink_other _ _ hj]
  exact linkState_fset_other (pgHub 0) (Fl.hubLinkStatRetrainCnt k.val) _ s rfl hj

/-- A retrain is counted as it starts. -/
theorem fget_beginRetrain_count (k : LinkId) (s : State) : fget (beginRetrain k s) (pgHub 0) (Fl.hubLinkStatRetrainCnt k.val) =
    min (fget s (pgHub 0) (Fl.hubLinkStatRetrainCnt k.val) + 1) 0xFF := by
  rw [beginRetrain, fget_setLink_above _ _ _ _ rfl (by simp [Fl.hubLinkStatRetrainCnt])]
  exact fget_fbump_same s _ _ _ (by simp [Fl.hubLinkStatRetrainCnt])

/-- The start of a retrain writes the link's register alone. -/
theorem fget_beginRetrain_off (k : LinkId) (s : State) (pg : PageKey) (f : Fld) (hf : f.off ≠ 0x800 + 0x4 * k.val) :
    fget (beginRetrain k s) pg f = fget s pg f := by
  rw [beginRetrain, setLink, fget_fset_off _ _ _ _ _ _ hf]
  exact fget_fset_off _ _ _ _ _ _ hf

theorem linkSt_beginRetrain (k : LinkId) (s : State) (j : LinkId) : linkSt (beginRetrain k s) j = linkSt s j := rfl

/-- FAULT is no register of a link. -/
theorem faultOff_ne (k : LinkId) : (0x01C : Nat) ≠ 0x800 + 0x4 * k.val := by omega

/-- Too many replays in an interval: the link retrains and the fault is recorded. -/
theorem replayLimit_spec (h : linkState s k = 2) (hr : fget s (pgHub 0) Fl.hubLinkCtrlReplayLimit < (linkSt s k).replays)
    (ho : NoRegRequests s) :
    ∃ t, exec (.replayLimit k) s = .next t ∧ linkState t k = 3 ∧
      fget t (pgHub 0) (Fl.hubLinkStatRetrainCnt k.val) = min (fget s (pgHub 0) (Fl.hubLinkStatRetrainCnt k.val) + 1) 0xFF ∧
      (∀ j : LinkId, j ≠ k → linkState t j = linkState s j) ∧
      (fget s (pgHub 0) Fl.faultClass = 0 → fget t (pgHub 0) Fl.faultClass = 0x0F ∧ fget t (pgHub 0) Fl.faultDetail = 1) ∧
      (s.outstanding = [] → t.mem = s.mem) := by
  have hact : replayLimit k s = resendHeld (beginRetrain k (leaveUp k 3 (linkFault 1 s))) := by
    simp only [replayLimit, h, hr, and_self, if_true]
  have hfaulted : NoRegRequests (linkFault 1 s) := by rw [NoRegRequests, linkFault_outstanding]; exact ho
  obtain ⟨-, hleft⟩ := leaveUp_keeps k 3 hfaulted
  have hkept : LinksKept (beginRetrain k (leaveUp k 3 (linkFault 1 s))) (resendHeld (beginRetrain k (leaveUp k 3 (linkFault 1 s)))) :=
    linksKept_resendHeld hleft
  have hpage : ∀ f : Fld, f.off = 0x01C →
      fget (resendHeld (beginRetrain k (leaveUp k 3 (linkFault 1 s)))) (pgHub 0) f = fget (linkFault 1 s) (pgHub 0) f := by
    intro f hf
    have hoff : f.off ≠ 0x800 + 0x4 * k.val := by rw [hf]; exact faultOff_ne k
    rw [hkept.fget, fget_beginRetrain_off _ _ _ _ hoff, fget_leaveUp_off _ _ _ _ hoff hfaulted]
  refine ⟨_, congrArg Host.Outcome.next hact, ?_, ?_, ?_, ?_, ?_⟩
  · rw [hkept.linkState, linkState_beginRetrain]
  · rw [hkept.fget, fget_beginRetrain_count, fget_leaveUp_above k 3 _ rfl (by simp [Fl.hubLinkStatRetrainCnt]) hfaulted,
      fget_linkFault_link 1 s k _ rfl]
  · intro j hj
    rw [hkept.linkState, linkState_beginRetrain_other hj, linkState_leaveUp_other _ hj hfaulted, linkState_linkFault]
  · intro hclear
    rw [hpage Fl.faultClass rfl, hpage Fl.faultDetail rfl]
    exact fget_linkFault_first 1 s hclear
  · intro hnone
    have hout : (linkFault 1 s).outstanding = [] := by rw [linkFault_outstanding, hnone]
    rw [leaveUp_of_none_outstanding k 3 hout, resendHeld_of_none_outstanding (s := beginRetrain k (downed k 3 (linkFault 1 s))) hout]
    exact linkFault_mem 1 s

end

end Sys2Proof.Machine

namespace Sys2Proof

open Sys2Proof.Machine Sys2Proof.Safety

/-- Settles O39: the start of the retrain and what is sent again after it leave HA's page but for the link's register, by
`leaveUp_keeps` and `linksKept_resendHeld`. -/
theorem packetsAreReplayed : Obligations.PacketsAreReplayed := by
  intro k s hup
  refine ⟨⟨_, exec_linkPacketReceive hup true, linkSt_setLinkSt_same _ _ _, rfl, fun j hj => linkSt_setLinkSt_other _ _ hj⟩,
    ⟨_, exec_linkPacketReceive hup false, linkSt_setLinkSt_same _ _ _, rfl, fun j hj => linkSt_setLinkSt_other _ _ hj⟩,
    linkReplay_spec hup,
    fun hdue => ⟨_, exec_replayIntervalEnd_due hup hdue, linkSt_setLinkSt_same _ _ _, rfl⟩,
    exec_replayIntervalEnd_early, fun hover hregs => replayLimit_spec hup hover (noRegRequests_of hregs), exec_replayLimit_within⟩

end Sys2Proof

namespace Sys2Proof.Machine

open Sys2Proof.Safety

/-! ## A link comes back to UP, or a training of it fails (R22, R25, R26) -/

section
variable {k : LinkId} {s : State}

/-- The other fields of a link's register, and every other register, keep their value as the link enters UP; DETOUR may be
cleared. -/
theorem fget_enterUp (k : LinkId) (s : State) (f : Fld) (ho : f.off = 0x800 + 0x4 * k.val) (hlo : 4 ≤ f.lo) :
    fget (enterUp k s) (pgHub 0) f = fget s (pgHub 0) f := by
  have hup := fget_setLink_above k f 2
    (setLinkSt k { fails := 0, gridAt := s.now, trainAt := (linkSt s k).trainAt, lastTag := (linkSt s k).lastTag } s) ho (by omega)
  unfold enterUp
  dsimp only
  split
  · exact hup
  · rw [fget_fset_disjoint _ _ (Fl.hubLinkStatDetour k.val) _ _ (by simp [Fl.hubLinkStatDetour])
      (Or.inr (by simpa [Fl.hubLinkStatDetour] using hlo)) ho]
    exact hup

theorem linkState_enterUp (k : LinkId) (s : State) : linkState (enterUp k s) k = 2 := by
  unfold enterUp
  dsimp only
  split
  · exact linkState_setLink_same _ _ _ (by decide)
  · rw [linkState_fset_above k (Fl.hubLinkStatDetour k.val) _ _ rfl (by simp [Fl.hubLinkStatDetour]) (by simp [Fl.hubLinkStatDetour])]
    exact linkState_setLink_same _ _ _ (by decide)

theorem fget_enterUp_detour (k : LinkId) (s : State) (h : ∀ o ∈ s.outstanding, o.around ≠ some k) :
    fget (enterUp k s) (pgHub 0) (Fl.hubLinkStatDetour k.val) = 0 := by
  have hnone : s.outstanding.any (fun o => o.around = some k) = false := by simpa using h
  have houts : (setLink k 2 (setLinkSt k { fails := 0, gridAt := s.now, trainAt := (linkSt s k).trainAt, lastTag := (linkSt s k).lastTag }
    s)).outstanding = s.outstanding := rfl
  simp only [enterUp, houts, hnone, Bool.false_eq_true, if_false]
  exact fget_fset_same _ _ _ _ (by simp [Fl.hubLinkStatDetour])

theorem linkSt_enterUp (k : LinkId) (s : State) : linkSt (enterUp k s) k =
    { fails := 0, gridAt := s.now, trainAt := (linkSt s k).trainAt, lastTag := (linkSt s k).lastTag } := by
  unfold enterUp
  dsimp only
  split <;> exact linkSt_setLinkSt_same k _ s

@[simp] theorem enterUp_outstanding (k : LinkId) (s : State) : (enterUp k s).outstanding = s.outstanding := by
  unfold enterUp
  dsimp only
  split <;> rfl

@[simp] theorem enterUp_mem (k : LinkId) (s : State) : (enterUp k s).mem = s.mem := by
  unfold enterUp
  dsimp only
  split <;> rfl

/-- A link enters UP and the requests held are sent again. -/
theorem resendHeld_enterUp (k : LinkId) (ho : NoRegRequests s) :
    linkState (resendHeld (enterUp k s)) k = 2 ∧ (linkSt (resendHeld (enterUp k s)) k).fails = 0 ∧
      (linkSt (resendHeld (enterUp k s)) k).gridAt = s.now ∧
      ((∀ o ∈ s.outstanding, o.around ≠ some k) → fget (resendHeld (enterUp k s)) (pgHub 0) (Fl.hubLinkStatDetour k.val) = 0) ∧
      fget (resendHeld (enterUp k s)) (pgHub 0) (Fl.hubLinkStatSpared k.val) = fget s (pgHub 0) (Fl.hubLinkStatSpared k.val) ∧
      (s.outstanding = [] → (resendHeld (enterUp k s)).mem = s.mem) := by
  have hkept : LinksKept (enterUp k s) (resendHeld (enterUp k s)) :=
    linksKept_resendHeld (by rw [NoRegRequests, enterUp_outstanding]; exact ho)
  refine ⟨?_, ?_, ?_, fun h => ?_, ?_, fun h => ?_⟩
  · rw [hkept.linkState, linkState_enterUp]
  · rw [hkept.fails, linkSt_enterUp]
  · rw [hkept.gridAt, linkSt_enterUp]
  · rw [hkept.fget, fget_enterUp_detour k s h]
  · rw [hkept.fget, fget_enterUp k s _ rfl (by simp [Fl.hubLinkStatSpared])]
  · rw [resendHeld_of_none_outstanding (by rw [enterUp_outstanding, h]), enterUp_mem]

theorem retrainDone_spec (ho : NoRegRequests s) (h : linkState s k = 3) (spared : Bool) :
    ∃ t, exec (.retrainDone k spared) s = .next t ∧ linkState t k = 2 ∧ (linkSt t k).fails = 0 ∧
      ((∀ o ∈ s.outstanding, o.around ≠ some k) → fget t (pgHub 0) (Fl.hubLinkStatDetour k.val) = 0) ∧
      (spared = true → fget t (pgHub 0) (Fl.hubLinkStatSpared k.val) = 1) ∧ (s.outstanding = [] → t.mem = s.mem) := by
  cases spared with
  | false =>
    have hact : retrainDone k false s = resendHeld (enterUp k s) := by
      simp only [retrainDone, h, if_true, Bool.false_eq_true, if_false]
    obtain ⟨hstate, hfails, -, hdetour, -, hmem⟩ := resendHeld_enterUp k ho
    exact ⟨_, congrArg Host.Outcome.next hact, hstate, hfails, hdetour, fun e => absurd e (by decide), hmem⟩
  | true =>
    have hact : retrainDone k true s = resendHeld (enterUp k (fset (pgHub 0) (Fl.hubLinkStatSpared k.val) 1 s)) := by
      simp only [retrainDone, h, if_true]
    obtain ⟨hstate, hfails, -, hdetour, hspared, hmem⟩ :=
      resendHeld_enterUp (s := fset (pgHub 0) (Fl.hubLinkStatSpared k.val) 1 s) k ho
    exact ⟨_, congrArg Host.Outcome.next hact, hstate, hfails, hdetour,
      fun _ => hspared.trans (fget_fset_same _ _ _ _ (by simp [Fl.hubLinkStatSpared])), hmem⟩

theorem linkTrained_spec (ho : NoRegRequests s) (h : linkState s k = 1) (hp : linkPowered s k = true)
    (ht : s.us ≤ (linkSt s k).trainAt + 30) :
    ∃ t, exec (.linkTrained k) s = .next t ∧ linkState t k = 2 ∧ (linkSt t k).fails = 0 ∧ (linkSt t k).gridAt = s.now ∧
      (s.outstanding = [] → t.mem = s.mem) := by
  have hact : linkTrained k s = resendHeld (enterUp k s) := by
    simp only [linkTrained, trainLimit, h, hp, ht, and_self, if_true]
  obtain ⟨hstate, hfails, hgrid, -, -, hmem⟩ := resendHeld_enterUp k ho
  exact ⟨_, congrArg Host.Outcome.next hact, hstate, hfails, hgrid, hmem⟩

/-! ### A failure -/

/-- The third failure in a row: the link is DOWN, and the fault is recorded. -/
theorem trainingFailed_third (k : LinkId) (det : Nat) (again : State → State) (h : 2 ≤ (linkSt s k).fails) :
    trainingFailed k det again s = linkFault det (setLink k 4 (setLinkSt k { linkSt s k with fails := (linkSt s k).fails + 1 } s)) := by
  simp only [trainingFailed, show 3 ≤ (linkSt s k).fails + 1 by omega, if_true]

theorem trainingFailed_early (k : LinkId) (det : Nat) (again : State → State) (h : (linkSt s k).fails < 2) :
    trainingFailed k det again s = again (setLinkSt k { linkSt s k with fails := (linkSt s k).fails + 1 } s) := by
  simp only [trainingFailed, show ¬ 3 ≤ (linkSt s k).fails + 1 by omega, if_false]

/-- After the third failure, with the requests held sent again. -/
theorem resendHeld_trainingFailed_third (k : LinkId) (det : Nat) (again : State → State) (ho : NoRegRequests s)
    (h : 2 ≤ (linkSt s k).fails) :
    (linkSt (resendHeld (trainingFailed k det again s)) k).fails = (linkSt s k).fails + 1 ∧
      linkState (resendHeld (trainingFailed k det again s)) k = 4 ∧
      (fget s (pgHub 0) Fl.faultClass = 0 → fget (resendHeld (trainingFailed k det again s)) (pgHub 0) Fl.faultClass = 0x0F ∧
        fget (resendHeld (trainingFailed k det again s)) (pgHub 0) Fl.faultDetail = det % 256) := by
  rw [trainingFailed_third k det again h]
  generalize hs : setLink k 4 (setLinkSt k { linkSt s k with fails := (linkSt s k).fails + 1 } s) = u
  have hst : linkSt u k = { linkSt s k with fails := (linkSt s k).fails + 1 } := by rw [← hs]; exact linkSt_setLinkSt_same k _ s
  have hstate : linkState u k = 4 := by rw [← hs]; exact linkState_setLink_same _ _ _ (by decide)
  have hclass : fget u (pgHub 0) Fl.faultClass = fget s (pgHub 0) Fl.faultClass := by
    rw [← hs, setLink, fget_fset_off _ _ _ _ _ _ (faultOff_ne k)]
    rfl
  have hout : u.outstanding = s.outstanding := by rw [← hs]; rfl
  have hkept : LinksKept (linkFault det u) (resendHeld (linkFault det u)) :=
    linksKept_resendHeld (by rw [NoRegRequests, linkFault_outstanding, hout]; exact ho)
  refine ⟨?_, ?_, fun hclear => ?_⟩
  · rw [hkept.fails, linkSt_of_links (linkFault_links det u), hst]
  · rw [hkept.linkState, linkState_linkFault, hstate]
  · rw [hkept.fget, hkept.fget]
    exact fget_linkFault_first det u (hclass.trans hclear)

theorem retrainFail_spec (ho : NoRegRequests s) (h : linkState s k = 3) :
    ∃ t, exec (.retrainFail k) s = .next t ∧ (linkSt t k).fails = (linkSt s k).fails + 1 ∧
      linkState t k = (if 2 ≤ (linkSt s k).fails then 4 else 3) ∧
      (2 ≤ (linkSt s k).fails → fget s (pgHub 0) Fl.faultClass = 0 →
        fget t (pgHub 0) Fl.faultClass = 0x0F ∧ fget t (pgHub 0) Fl.faultDetail = 2) := by
  have hact : retrainFail k s = resendHeld (trainingFailed k 2 (beginRetrain k) s) := by simp only [retrainFail, h, if_true]
  refine ⟨_, congrArg Host.Outcome.next hact, ?_⟩
  by_cases hn : 2 ≤ (linkSt s k).fails
  · obtain ⟨hfails, hstate, hfault⟩ := resendHeld_trainingFailed_third k 2 (beginRetrain k) ho hn
    rw [if_pos hn]
    exact ⟨hfails, hstate, fun _ => hfault⟩
  · rw [if_neg hn, trainingFailed_early k 2 _ (by omega)]
    have hkept := linksKept_resendHeld (s := beginRetrain k (setLinkSt k { linkSt s k with fails := (linkSt s k).fails + 1 } s)) ho
    refine ⟨?_, ?_, fun hn' => absurd hn' hn⟩
    · rw [hkept.fails, linkSt_beginRetrain, linkSt_setLinkSt_same]
    · rw [hkept.linkState, linkState_beginRetrain]

theorem linkTrainTimeout_spec (ho : NoRegRequests s) (h : linkState s k = 1) (hp : linkPowered s k = true)
    (ht : (linkSt s k).trainAt + 30 ≤ s.us) :
    ∃ t, exec (.linkTrainTimeout k) s = .next t ∧ (linkSt t k).fails = (linkSt s k).fails + 1 ∧
      linkState t k = (if 2 ≤ (linkSt s k).fails then 4 else 1) ∧ ((linkSt s k).fails < 2 → (linkSt t k).trainAt = s.us) := by
  have hact : linkTrainTimeout k s = resendHeld (trainingFailed k (if bootPhase s = 5 then 6 else 2)
      (fun s => setLinkSt k { linkSt s k with trainAt := s.us } s) s) := by
    simp only [linkTrainTimeout, trainLimit, h, hp, ht, and_self, if_true]
  refine ⟨_, congrArg Host.Outcome.next hact, ?_⟩
  by_cases hn : 2 ≤ (linkSt s k).fails
  · obtain ⟨hfails, hstate, -⟩ := resendHeld_trainingFailed_third k (if bootPhase s = 5 then 6 else 2)
      (fun s => setLinkSt k { linkSt s k with trainAt := s.us } s) ho hn
    rw [if_pos hn]
    exact ⟨hfails, hstate, fun hn' => absurd hn' (by omega)⟩
  · rw [if_neg hn, trainingFailed_early k _ _ (by omega), linkSt_setLinkSt_same]
    generalize hu : setLinkSt k _ (setLinkSt k _ s) = u
    have hst : linkSt u k = { linkSt s k with fails := (linkSt s k).fails + 1, trainAt := s.us } := by
      rw [← hu]; exact linkSt_setLinkSt_same k _ _
    have hkept : LinksKept u (resendHeld u) := linksKept_resendHeld (by rw [← hu]; exact ho)
    refine ⟨?_, ?_, fun _ => ?_⟩
    · rw [hkept.fails, hst]
    · rw [hkept.linkState, ← hu]; exact h
    · rw [hkept.trainAt, hst]

/-! ## Detours (R23, R25) -/

theorem detourReady_spec (ho : NoRegRequests s) (h : linkState s k = 3 ∨ linkState s k = 4) (hk : k ≠ 3)
    (hp : ∃ p, detourPath s (linkEnds k).1 (linkEnds k).2 = some p ∧ ∀ j ∈ p, linkState s j = 2) :
    ∃ t, exec (.detourReady k) s = .next t ∧ fget t (pgHub 0) (Fl.hubLinkStatDetour k.val) = 1 ∧
      (s.outstanding = [] → OnlyRegs (keysOf (pgHub 0) [0x800 + 4 * k.val]) s t) := by
  obtain ⟨p, hpath, hall⟩ := hp
  have hup : detourUp s k = true := by
    have hpups : p.all (fun j => decide (linkState s j = 2)) = true := by simpa using hall
    simp only [detourUp, hpath, hpups, hk, ne_eq, not_false_eq_true, decide_true, Bool.and_self]
  have hact : detourReady k s = resendHeld (fset (pgHub 0) (Fl.hubLinkStatDetour k.val) 1 s) := by
    simp only [detourReady, h, hup, and_self, if_true]
  have hkept := linksKept_resendHeld (s := fset (pgHub 0) (Fl.hubLinkStatDetour k.val) 1 s) ho
  refine ⟨_, congrArg Host.Outcome.next hact, ?_, fun hnone => ?_⟩
  · rw [hkept.fget, fget_fset_same _ _ _ _ (by simp [Fl.hubLinkStatDetour])]
    rfl
  · rw [resendHeld_of_none_outstanding (s := fset (pgHub 0) (Fl.hubLinkStatDetour k.val) 1 s) hnone]
    exact (OnlyRegs.refl _ s).fset _ _ _ (List.mem_singleton.mpr rfl)

theorem detourRelease_spec (h : linkState s k = 2) (ho : ∀ o ∈ s.outstanding, o.around ≠ some k) :
    ∃ t, exec (.detourRelease k) s = .next t ∧ fget t (pgHub 0) (Fl.hubLinkStatDetour k.val) = 0 ∧
      OnlyRegs (keysOf (pgHub 0) [0x800 + 4 * k.val]) s t := by
  have hnone : s.outstanding.any (fun o => o.around = some k) = false := by simpa using ho
  have hact : detourRelease k s = fset (pgHub 0) (Fl.hubLinkStatDetour k.val) 0 s := by
    simp only [detourRelease, h, hnone, Bool.not_false, and_self, if_true]
  refine ⟨_, congrArg Host.Outcome.next hact, ?_, (OnlyRegs.refl _ s).fset _ _ _ (List.mem_singleton.mpr rfl)⟩
  exact fget_fset_same _ _ _ _ (by simp [Fl.hubLinkStatDetour])

end

end Sys2Proof.Machine

namespace Sys2Proof.Machine

open Sys2Proof.Safety

/-! ## FORCE_DOWN (R28) -/

theorem Fld.get_testBit (f : Fld) (w : Word) (i : Nat) : (f.get w).testBit i = (decide (i < f.width) && w.getLsbD (f.lo + i)) := by
  rw [Fld.get, bitsOf_testBit, toNat_testBit]

/-- Bit `j` of FORCE_DOWN. -/
theorem fget_forceDown_testBit (s : State) (h : HubId) (j : LinkId) :
    (fget s (pgHub 0) Fl.hubLinkCtrlForceDown).testBit j.val = (rd s (pgHub h) 0x820).getLsbD j.val := by
  rw [fget, Fld.get_testBit]
  have hj : j.val < Fl.hubLinkCtrlForceDown.width := j.isLt
  simp only [hj, decide_true, Bool.true_and]
  exact congrArg (BitVec.getLsbD (rd s (pgHub h) 0x820)) (Nat.zero_add _)

theorem oneBit_getLsbD (i j : Nat) (hj : j < 32) : (oneBit i).getLsbD j = decide (i = j) := by
  rw [oneBit, BitVec.getLsbD_ofNat, Nat.testBit_two_pow]
  simp [hj]

/-- FORCE_DOWN lies in the RW bits of HUB_LINK_CTRL. -/
theorem linkCtrlMask_getLsbD (j : LinkId) : (0xFF003F : Word).getLsbD j.val = true := by
  revert j
  decide

/-- A write of HUB_LINK_CTRL that no lock holds stores its RW bits and does no more of its own. -/
theorem plainWrite_linkCtrl {s : State} (h : HubId) (v : Word) (hl : fget s (pgHub h) Fl.lockCfg = 0) :
    plainWrite (pgHub h) 0x820 v s = wrMasked (pgHub h) 0x820 v 0xFF003F s := by
  have hrw : rwMask (pgHub h) 0x820 = 0xFF003F := rfl
  have htx : txMask (pgHub h) 0x820 = 0 := rfl
  have hsh : shMask (pgHub h) 0x820 = 0 := rfl
  have hw1c : w1cMask (pgHub h) 0x820 = 0 := rfl
  have hwin : isWindow 0x820 = false := rfl
  simp [plainWrite, hrw, htx, hsh, hw1c, hwin, fon, hl]

/-- Bit `j` of FORCE_DOWN after such a write. -/
theorem forceDown_wrMasked_testBit (s : State) (h : HubId) (v : Word) (j : LinkId) :
    (fget (wrMasked (pgHub h) 0x820 v 0xFF003F s) (pgHub 0) Fl.hubLinkCtrlForceDown).testBit j.val = v.getLsbD j.val := by
  have hj : j.val < 32 := by omega
  rw [fget_forceDown_testBit _ h, wrMasked, rd_wr_same, BitVec.getLsbD_or, BitVec.getLsbD_and, BitVec.getLsbD_and, BitVec.getLsbD_not,
    linkCtrlMask_getLsbD]
  simp [hj]

/-- A fold over distinct things of which one alone has an effect. -/
theorem foldl_acts_once {α σ : Type} (f : σ → α → σ) (k : α) (l : List α) (hn : l.Nodup) (hk : k ∈ l)
    (hother : ∀ j, j ≠ k → ∀ s, f s j = s) (s : σ) : l.foldl f s = f s k := by
  induction l generalizing s with
  | nil => cases hk
  | cons e r ih =>
    obtain ⟨he, hr⟩ := List.nodup_cons.mp hn
    rw [List.foldl_cons]
    rcases List.mem_cons.mp hk with rfl | hmem
    · have hrest : ∀ l : List α, k ∉ l → ∀ u, l.foldl f u = u := by
        intro l hl u
        induction l with
        | nil => rfl
        | cons j r' ih' =>
          rw [List.foldl_cons, hother j (fun e => hl (e ▸ List.mem_cons_self)) u]
          exact ih' (fun h => hl (List.mem_cons_of_mem _ h))
      exact hrest r he _
    · rw [hother e (fun e' => he (e' ▸ hmem)) s]
      exact ih hr hmem s

theorem allLinks_nodup : allLinks.Nodup := by decide

theorem mem_allLinks (k : LinkId) : k ∈ allLinks := by
  revert k
  decide

/-- FORCE_DOWN of one link has become 1. -/
theorem forceChanged_set {s : State} {old : Nat} {k : LinkId} (hk : old.testBit k.val = false)
    (hnew : (fget s (pgHub 0) Fl.hubLinkCtrlForceDown).testBit k.val = true)
    (hother : ∀ j : LinkId, j ≠ k → (fget s (pgHub 0) Fl.hubLinkCtrlForceDown).testBit j.val = old.testBit j.val) :
    forceChanged old s = forceLink k s := by
  rw [forceChanged, foldl_acts_once _ k allLinks allLinks_nodup (mem_allLinks k)]
  · simp [hk, hnew]
  · intro j hj u
    simp [hother j hj]

/-- FORCE_DOWN of one link has become 0. -/
theorem forceChanged_clear {s : State} {old : Nat} {k : LinkId} (hk : old.testBit k.val = true)
    (hnew : (fget s (pgHub 0) Fl.hubLinkCtrlForceDown).testBit k.val = false)
    (hother : ∀ j : LinkId, j ≠ k → (fget s (pgHub 0) Fl.hubLinkCtrlForceDown).testBit j.val = old.testBit j.val) :
    forceChanged old s = freeLink k s := by
  rw [forceChanged, foldl_acts_once _ k allLinks allLinks_nodup (mem_allLinks k)]
  · simp [hk, hnew]
  · intro j hj u
    simp [hother j hj]

/-- HUB_LINK_CTRL is no link's register. -/
theorem linkCtrlOff_ne (k : LinkId) : (0x820 : Nat) ≠ 0x800 + 0x4 * k.val := by omega

/-- A forced link is out of service; HUB_LINK_CTRL and the other links are as they were. -/
theorem forceLink_spec {s : State} (k : LinkId) (ho : NoRegRequests s) :
    linkState (forceLink k s) k = 4 ∧
      fget (forceLink k s) (pgHub 0) Fl.hubLinkCtrlForceDown = fget s (pgHub 0) Fl.hubLinkCtrlForceDown ∧
      ∀ j : LinkId, j ≠ k → linkState (forceLink k s) j = linkState s j := by
  unfold forceLink
  split
  · exact ⟨linkState_leaveUp k (by decide) ho, fget_leaveUp_off k 4 0 _ (linkCtrlOff_ne k) ho,
      fun j hj => linkState_leaveUp_other 4 hj ho⟩
  · exact ⟨linkState_setLink_same _ _ _ (by decide), fget_fset_off _ _ _ _ _ _ (linkCtrlOff_ne k),
      fun j hj => linkState_setLink_other _ _ hj⟩

section
variable {k : LinkId} {s : State}

/-- A write of HUB_LINK_CTRL leaves the links' registers and records to what FORCE_DOWN does. -/
theorem linkState_wrMasked (h : HubId) (v : Word) (j : LinkId) : linkState (wrMasked (pgHub h) 0x820 v 0xFF003F s) j = linkState s j := by
  have hoff : (Fl.hubLinkStatState j.val).off ≠ 0x820 := (linkCtrlOff_ne j).symm
  rw [linkState, fget, wrMasked, rd_wr_off _ _ _ _ _ _ hoff]
  rfl

theorem linkPowered_wrMasked (h : HubId) (v : Word) : linkPowered (wrMasked (pgHub h) 0x820 v 0xFF003F s) k = linkPowered s k := by
  have hon : domainOn (wrMasked (pgHub h) 0x820 v 0xFF003F s) = domainOn s := by
    funext d
    rw [domainOn, fbit, fget, wrMasked, rd_wr_off _ _ _ _ _ _ (by decide)]
    rfl
  rw [linkPowered, hon, linkPowered]

theorem forceDown_spec (ho : NoRegRequests s) (who : Requester) (h : HubId) (hacc : Accepted s who (pgHub h) 0x820 0)
    (hl : fget s (pgHub h) Fl.lockCfg = 0) (hf : (fget s (pgHub 0) Fl.hubLinkCtrlForceDown).testBit k.val = false) :
    ∃ t, exec (.forceDown who h k) s = .next t ∧ linkState t k = 4 ∧
      (fget t (pgHub 0) Fl.hubLinkCtrlForceDown).testBit k.val = true ∧ ∀ j : LinkId, j ≠ k → linkState t j = linkState s j := by
  let v := rd s (pgHub h) 0x820 ||| oneBit k.val
  let u := wrMasked (pgHub h) 0x820 v 0xFF003F s
  have hbit : ∀ j : LinkId, (fget u (pgHub 0) Fl.hubLinkCtrlForceDown).testBit j.val =
      ((fget s (pgHub 0) Fl.hubLinkCtrlForceDown).testBit j.val || decide (k = j)) := by
    intro j
    rw [forceDown_wrMasked_testBit, BitVec.getLsbD_or, oneBit_getLsbD _ _ (by omega), fget_forceDown_testBit s h]
    simp only [Fin.ext_iff]
  have hact : guarded who (pgHub h) 0x820 (linkCtrlWrite (pgHub h) v) s = forceLink k u := by
    rw [guarded_accepted _ hacc, linkCtrlWrite, plainWrite_linkCtrl h v hl]
    refine forceChanged_set hf ?_ fun j hj => ?_
    · rw [hbit]; simp
    · rw [hbit]; simp [Ne.symm hj]
  obtain ⟨hstate, hforce, hothers⟩ := forceLink_spec (s := u) k ho
  refine ⟨_, congrArg Host.Outcome.next hact, hstate, ?_, fun j hj => ?_⟩
  · rw [hforce, hbit]; simp
  · rw [hothers j hj, linkState_wrMasked]

theorem forceDownRelease_spec (who : Requester) (h : HubId) (hacc : Accepted s who (pgHub h) 0x820 0)
    (hl : fget s (pgHub h) Fl.lockCfg = 0) (hf : (fget s (pgHub 0) Fl.hubLinkCtrlForceDown).testBit k.val = true)
    (hp : linkPowered s k = true) (hn : (linkSt s k).fails < 3) :
    ∃ t, exec (.forceDownRelease who h k) s = .next t ∧ linkState t k = 3 ∧
      (fget t (pgHub 0) Fl.hubLinkCtrlForceDown).testBit k.val = false ∧ ∀ j : LinkId, j ≠ k → linkState t j = linkState s j := by
  let v := rd s (pgHub h) 0x820 &&& ~~~ oneBit k.val
  let u := wrMasked (pgHub h) 0x820 v 0xFF003F s
  have hbit : ∀ j : LinkId, (fget u (pgHub 0) Fl.hubLinkCtrlForceDown).testBit j.val =
      ((fget s (pgHub 0) Fl.hubLinkCtrlForceDown).testBit j.val && !decide (k = j)) := by
    intro j
    have hj : j.val < 32 := by omega
    rw [forceDown_wrMasked_testBit, BitVec.getLsbD_and, BitVec.getLsbD_not, oneBit_getLsbD _ _ hj, fget_forceDown_testBit s h]
    simp [hj, Fin.ext_iff]
  have hfree : freeLink k u = beginRetrain k u := by
    have hfails : ¬ 3 ≤ (linkSt u k).fails := Nat.not_le.mpr hn
    have hpower : linkPowered u k = true := (linkPowered_wrMasked h v).trans hp
    simp only [freeLink, hfails, hpower, if_true, if_false]
  have hact : guarded who (pgHub h) 0x820 (linkCtrlWrite (pgHub h) v) s = beginRetrain k u := by
    rw [guarded_accepted _ hacc, linkCtrlWrite, plainWrite_linkCtrl h v hl, ← hfree]
    refine forceChanged_clear hf ?_ fun j hj => ?_
    · rw [hbit]; simp
    · rw [hbit]; simp [Ne.symm hj]
  refine ⟨_, congrArg Host.Outcome.next hact, linkState_beginRetrain _ _, ?_, fun j hj => ?_⟩
  · rw [fget_beginRetrain_off _ _ _ _ (linkCtrlOff_ne k), hbit]; simp
  · rw [linkState_beginRetrain_other hj, linkState_wrMasked]

end

end Sys2Proof.Machine

namespace Sys2Proof

open Sys2Proof.Machine Sys2Proof.Safety

/-- Settles O40: each command's own effect on the link, and `linksKept_resendHeld` for the requests sent again after it. -/
theorem linksTrainRetrainAndGoDown : Obligations.LinksTrainRetrainAndGoDown := by
  intro k s hregs
  have ho := noRegRequests_of hregs
  exact ⟨retrainDone_spec ho, linkTrained_spec ho, retrainFail_spec ho, linkTrainTimeout_spec ho, detourReady_spec ho,
    detourRelease_spec, fun who h hacc hlock => ⟨forceDown_spec ho who h hacc hlock, forceDownRelease_spec who h hacc hlock⟩⟩

end Sys2Proof

namespace Sys2Proof.Machine

open Sys2Proof.Safety

/-! ## A path of a rank that no scratchpad bank sees -/

/-- Tile 0's SPAD page is ON in a powered domain, and in the present cycle a path of rank 8, a drain's reads of the accumulator,
has accessed bank 0 of the scratchpad. -/
def strayPath : State :=
  fset pgPwr Fl.pwrDomStatOn 1 (fset (pgSpad 0) Fl.state 2 { tiles := [(0, { busUse := [(8, 0)] })] })

/-- A read of one byte at the start of tile 0's scratchpad. -/
def strayRead : Req := ⟨false, 0x1000000000, 1, []⟩

/-- The vector unit's read loses the bank to that path, and the count of the path's rank lies past SPAD_CONFLICT5 (R280). -/
theorem rd_strayRead : rd (doDeviceRequest (.tile 0 .vec) strayRead strayPath) (pgSpad 0) 0x128 = 1 := by decide

/-! ## A soft reset that waits for a ramp, with a commit group open (R51, R63, R450) -/

/-- WARP is TURNING_ON and its domain has ramped for 50 us; a SOFT_RST waits for the transition to end, and one commit group
holds WARP and PWR. -/
def lateRamp : State :=
  fset pgPwr Fl.pwrDomBusyRamp (2 ^ 20) (fset (pgEng .warp) Fl.state 1 (fset (pgEng .warp) Fl.ctrlEn 1
    { us := 50
      groups := [⟨0, 0, 0, 0, false, [pgEng .warp, pgPwr]⟩]
      softPend := [pgEng .warp]
      pwr := { ramps := [(20, 0)] } }))

/-- The reset acts as WARP enters FAULT, and its abort of the group is recorded on PWR before the late ramp is. -/
theorem fget_lateRamp : fget (doWakeTimeout 20 lateRamp) pgPwr Fl.faultClass = 6 := by decide

end Sys2Proof.Machine

namespace Sys2Proof

open Sys2Proof.Machine Sys2Proof.Safety

/-- Refutes O41: a served read of a scratchpad may change a register that `Safety.conflictKeys` does not list. In `strayPath` the
bank it reads is in use by a path of rank 8, so `useBank` counts at offset 0x128 of SPAD, past the six conflict counters. No run
reaches that state, since paths of ranks 8 and 9 use banks 16 and above only, but the statement has no premise that leaves it
out. -/
theorem not_requestsIntoTheAddressSpace : ¬ Obligations.RequestsIntoTheAddressSpace := by
  unfold Obligations.RequestsIntoTheAddressSpace
  intro h
  obtain ⟨hrequest, -⟩ := h
  obtain ⟨hissued, -⟩ := hrequest (.tile 0 .vec) strayRead strayPath (by decide) (by decide) (by decide) (by decide) (by decide)
  obtain ⟨t, o, hexec, -, -, -, -, -, -, -, -, hspad, -⟩ := hissued (by decide)
  obtain ⟨-, -, -, -, hregs⟩ := hspad 0 (by decide) (by decide)
  injection hexec with ht
  have hkept : rd t (pgSpad 0) 0x128 = rd strayPath (pgSpad 0) 0x128 := hregs (pgSpad 0) 0x128 (by decide)
  have hbefore : rd strayPath (pgSpad 0) 0x128 = 0 := by decide
  rw [← ht, hbefore] at hkept
  exact absurd (rd_strayRead.symm.trans hkept) (by decide)

/-- Refutes O55: PWR's FAULT need not show WAKE_TIMEOUT after a ramp of 50 us. In `lateRamp` the page that fails has a SOFT_RST
pending and shares a commit group with PWR; the page's FAULT ends its transition, the reset acts (R51) and aborts the group, and
PWR records MEMBER_LOST first (R63), so that WAKE_TIMEOUT only sets MORE (R43). -/
theorem not_domainsPowerOnAndOff : ¬ Obligations.DomainsPowerOnAndOff := by
  unfold Obligations.DomainsPowerOnAndOff
  intro h
  obtain ⟨hdomains, -⟩ := h lateRamp
  obtain ⟨-, -, hramps, -⟩ := hdomains 20
  obtain ⟨-, -, -, hlate⟩ := hramps 0 (by decide)
  obtain ⟨t, hexec, -, -, -, hfault⟩ := hlate (by decide)
  injection hexec with ht
  obtain ⟨hclass, -⟩ := hfault (by decide)
  rw [← ht] at hclass
  exact absurd (fget_lateRamp.symm.trans hclass) (by decide)

end Sys2Proof

namespace Sys2Proof.Machine

open Sys2Proof.Safety

/-! ## A tile after its own change -/

@[simp] theorem tile_setTile_same (t : TileId) (x : Tile) (s : State) : tile (setTile t x s) t = x := Tab.get_put_same _ _ _ _

@[simp] theorem tile_updTile_same (t : TileId) (f : Tile → Tile) (s : State) : tile (updTile t f s) t = f (tile s t) :=
  tile_setTile_same _ _ _

/-! ## Memory and the tiles under an operation that touches neither -/

/-- Memory and what no register shows of the tiles. -/
def memTiles (s : State) : List Host.Cell × Tab TileId Tile := (s.mem, s.tiles)

section
variable (s : State) (pg : PageKey)

@[simp] theorem memTiles_fset (f : Fld) (v : Nat) : memTiles (fset pg f v s) = memTiles s := rfl
@[simp] theorem memTiles_updHub (h : HubId) (f : HubSt → HubSt) : memTiles (updHub h f s) = memTiles s := rfl

@[simp] theorem memTiles_recordFault (cls det : Nat) : memTiles (recordFault pg cls det s) = memTiles s := by
  rw [recordFault_rest]; rfl

@[simp] theorem memTiles_enterState (v : Nat) : memTiles (enterState pg v s) = memTiles s := by
  unfold enterState; split <;> rfl

@[simp] theorem memTiles_requestWake (d : Nat) (p : PartId) : memTiles (requestWake d p s) = memTiles s := by
  rw [requestWake_rest]; rfl

@[simp] theorem memTiles_wakeLink (k : LinkId) (p : PartId) : memTiles (wakeLink k p s) = memTiles s := by
  rw [wakeLink_rest]; rfl

@[simp] theorem memTiles_startSub (i : Nat) : memTiles (startSub i s) = memTiles s := by
  unfold startSub
  extract_lets w bad pg _ v ph _ x y
  have hx : memTiles x = memTiles s := by
    unfold x
    split <;> rfl
  split
  · rfl
  · split <;> exact hx

@[simp] theorem memTiles_startOn : memTiles (startOn pg s) = memTiles s := by
  unfold startOn
  split
  · rfl
  · split <;> simp

@[simp] theorem memTiles_enableCore (p : PartId) : memTiles (enableCore pg p s) = memTiles s := by
  unfold enableCore
  split
  · rfl
  · dsimp only
    split
    · split <;> simp
    · simp
    · simp

@[simp] theorem memTiles_waitEffect (who : Requester) (g : Grant) : memTiles (waitEffect who g s) = memTiles s := by
  unfold waitEffect
  split <;> simp

end

/-- What every step of a fold keeps, the fold keeps. -/
theorem memTiles_foldl {α : Type} (f : State → α → State) (l : List α) (s : State) (hf : ∀ u a, memTiles (f u a) = memTiles u) :
    memTiles (l.foldl f s) = memTiles s :=
  List.foldlRecOn (motive := fun u => memTiles u = memTiles s) l f rfl (fun u hu a _ => (hf u a).trans hu)

/-! ## A request served at once leaves memory and the descriptor stores (R152; log 84) -/

/-- From `s` to `u` memory and every tile's descriptor store are as they were. -/
structure StoresKept (s u : State) : Prop where
  mem : u.mem = s.mem
  descs : ∀ t, (tile u t).descs = (tile s t).descs
  pend : ∀ t, (tile u t).descPend = (tile s t).descPend

namespace StoresKept

theorem of_memTiles {s u : State} (h : memTiles u = memTiles s) : StoresKept s u := by
  obtain ⟨hmem, htiles⟩ := Prod.mk.inj h
  exact ⟨hmem, fun t => by rw [tile, htiles, tile], fun t => by rw [tile, htiles, tile]⟩

theorem trans {s u v : State} (h : StoresKept s u) (h' : StoresKept u v) : StoresKept s v :=
  ⟨h'.mem.trans h.mem, fun t => (h'.descs t).trans (h.descs t), fun t => (h'.pend t).trans (h.pend t)⟩

theorem setTile {s : State} (t : TileId) (x : Tile) (hd : x.descs = (tile s t).descs) (hp : x.descPend = (tile s t).descPend) :
    StoresKept s (setTile t x s) := by
  refine ⟨rfl, fun u => ?_, fun u => ?_⟩ <;> rw [tile, setTile_tiles, Tab.get_put] <;> split
  · subst u; exact hd
  · rfl
  · subst u; exact hp
  · rfl

end StoresKept

theorem memTiles_pathDelayed (t : TileId) (later : Nat) (s : State) : memTiles (pathDelayed t later s) = memTiles s := by
  unfold pathDelayed
  split
  · rfl
  · split <;> rfl

theorem storesKept_useBank (rank : Nat) (t : TileId) (s : State) (bank : Nat) : StoresKept s (useBank rank t s bank) := by
  unfold useBank
  extract_lets x l
  split
  · exact .of_memTiles rfl
  · have hset : StoresKept s (Machine.setTile t { x with busAt := s.now, busUse := l ++ [(rank, bank)] } s) := .setTile t _ rfl rfl
    exact hset.trans (.of_memTiles (memTiles_foldl _ _ _ (fun _ _ => memTiles_pathDelayed _ _ _)))

theorem memTiles_touchRow (i a : Nat) (s : State) : memTiles (touchRow i a s) = memTiles s := by
  unfold touchRow
  extract_lets
  split <;> rfl

theorem memTiles_queueWb (h : HubId) (r : HubReq) (s : State) : memTiles (queueWb h r s) = memTiles s := by
  unfold queueWb
  split
  · rfl
  · rw [memTiles_updHub, memTiles_waitEffect]

theorem memTiles_queueWbs (h : HubId) (stay : Bool) (ls : List LlcLine) (s : State) : memTiles (queueWbs h stay ls s) = memTiles s :=
  memTiles_foldl _ _ _ (fun _ _ => memTiles_queueWb _ _ _)

theorem memTiles_allocLine (h : HubId) (p : PartId) (a : Nat) (dirty : Bool) (s : State) :
    memTiles (allocLine h p a dirty s) = memTiles s := by
  unfold allocLine
  extract_lets ws f w u old
  split
  · rfl
  · split
    · split <;> rfl
    · rw [memTiles_updHub, memTiles_queueWbs]; rfl

theorem storesKept_noteLine (who : Requester) (write : Bool) (a : Nat) (s : State) : StoresKept s (noteLine who write a s) := by
  unfold noteLine
  extract_lets g p c
  clear_value c g
  cases g with
  | regs =>
    dsimp only
    split
    · exact .of_memTiles (memTiles_recordFault _ _ _ _)
    · exact .of_memTiles rfl
  | spad u => exact storesKept_useBank _ _ _ _
  | ddr h k =>
    have hddr : ∀ v, memTiles (touchRow (subNo h k) a (usePos h (8 + k.val) c p v)) = memTiles v := fun v => memTiles_touchRow _ _ _
    refine .of_memTiles ?_
    dsimp only
    split
    · exact hddr s
    · split
      · split <;> rfl
      · rw [memTiles_allocLine, hddr]; rfl
  | window | sram | none => exact .of_memTiles rfl

theorem storesKept_noteLines (who : Requester) (write : Bool) (a n : Nat) (s : State) : StoresKept s (noteLines who write a n s) :=
  List.foldlRecOn (motive := StoresKept s) _ _ (.of_memTiles rfl) (fun _ hu _ _ => hu.trans (storesKept_noteLine _ _ _ _))

/-! ## Copies of descriptors (R151, R152) -/

section
variable {t : TileId} {s : State} {who : Requester} {v : Word}

theorem exec_descLoad (h : Accepted s who (pgTile t) 0x400 0) :
    exec (.descLoad who t v) s = .next (descLoad t (v.toNat % 2 ^ 16) s) :=
  congrArg Host.Outcome.next (guarded_accepted _ h)

theorem requestDesc_of_room {h : Nat} (qn : Nat) (cmd : List Word) (hnew : descOf (tile s t) h = none) (hpend : h ∉ (tile s t).descPend)
    (hroom : (tile s t).descs.length + (tile s t).descPend.length < 64) :
    requestDesc t qn cmd h s = setTile t { tile s t with descPend := (tile s t).descPend ++ [h] } s := by
  simp [requestDesc, hnew, hpend, Nat.not_le.mpr hroom]

theorem descLoad_spec (hacc : Accepted s who (pgTile t) 0x400 0) (hok : handleBad s t ⟨v.toNat % 2 ^ 16, 2, false⟩ = false)
    (hnew : descOf (tile s t) (v.toNat % 2 ^ 16) = none) (hpend : v.toNat % 2 ^ 16 ∉ (tile s t).descPend)
    (hroom : (tile s t).descs.length + (tile s t).descPend.length < 64) :
    ∃ u, exec (.descLoad who t v) s = .next u ∧ (tile u t).descPend = (tile s t).descPend ++ [v.toNat % 2 ^ 16] ∧
      u = { s with tiles := u.tiles } := by
  have hload : descLoad t (v.toNat % 2 ^ 16) s =
      setTile t { tile s t with descPend := (tile s t).descPend ++ [v.toNat % 2 ^ 16] } s := by
    rw [descLoad, hok]
    exact requestDesc_of_room 0 [] hnew hpend hroom
  exact ⟨_, (exec_descLoad hacc).trans (congrArg _ hload), congrArg Tile.descPend (tile_setTile_same _ _ _), rfl⟩

theorem descLoad_bad_spec (hacc : Accepted s who (pgTile t) 0x400 0) (hbad : handleBad s t ⟨v.toNat % 2 ^ 16, 2, false⟩ = true) :
    exec (.descLoad who t v) s = .next (commandFault t (pgTile t) 0 2 0x11 [] s) := by
  rw [exec_descLoad hacc, descLoad, hbad]
  rfl

theorem doDescResponse_served {h : Nat} (hpend : h ∈ (tile s t).descPend)
    (hserved : grantRange s (.seq t) false (descAddr s (tilePart s t) h) 64 = .served) :
    ∃ v, StoresKept (updTile t (fun x => { x with descPend := x.descPend.erase h }) s) v ∧
      doDescResponse t h false s =
        updTile t (fun x => { x with descs := x.descs ++ [(h, wordsOf (peekReq s (descAddr s (tilePart s t) h) 64))] }) v := by
  refine ⟨_, storesKept_noteLines (.seq t) false (descAddr s (tilePart s t) h) 64 _, ?_⟩
  have hpend' : (!(tile s t).descPend.contains h) = false := by simpa using hpend
  simp only [doDescResponse, hpend', hserved]
  rfl

theorem descCopyResponse_spec {h : Nat} (hpend : h ∈ (tile s t).descPend)
    (hserved : grantRange s (.seq t) false (descAddr s (tilePart s t) h) 64 = .served) :
    ∃ u, exec (.descCopyResponse t h false) s = .next u ∧ (tile u t).descPend = (tile s t).descPend.erase h ∧
      (tile u t).descs = (tile s t).descs ++ [(h, wordsOf (peekReq s (descAddr s (tilePart s t) h) 64))] ∧ u.mem = s.mem := by
  obtain ⟨v, hv, heq⟩ := doDescResponse_served hpend hserved
  refine ⟨_, congrArg Host.Outcome.next heq, ?_, ?_, hv.mem⟩
  · rw [tile_updTile_same, hv.pend, tile_updTile_same]
  · rw [tile_updTile_same, hv.descs, tile_updTile_same]

end

end Sys2Proof.Machine

namespace Sys2Proof.Machine

open Sys2Proof.Safety

/-! ## Slot fills (R163, R189) -/

section
variable (s : State) (t : TileId) (r : Nat)

/-- The field of SLOT_STATE that holds the state of buffer `b` (R189). -/
def bufFld (r b : Nat) : Fld := ⟨(Fl.tileSlotStateBufs r).off, 2 * b, 2⟩

theorem bufState_eq_fget (b : Nat) : bufState s t r b = fget s (pgTile t) (bufFld r b) := by
  have hword : fget s (pgTile t) (Fl.tileSlotStateBufs r) = (rd s (pgTile t) (Fl.tileSlotStateBufs r).off).toNat := by
    rw [fget, Fld.get, Fl.tileSlotStateBufs, bitsOf, Nat.pow_zero, Nat.div_one, Nat.mod_eq_of_lt (BitVec.isLt _)]
  rw [bufState, hword, fget, Fld.get, bufFld]

theorem bufState_setBufState_same {b v : Nat} (hb : b < 16) (hv : v < 4) : bufState (setBufState t r b v s) t r b = v := by
  have hfits : (bufFld r b).lo + (bufFld r b).width ≤ 32 := by simp only [bufFld]; omega
  rw [bufState_eq_fget]
  exact (fget_fset_same s (pgTile t) (bufFld r b) v hfits).trans (Nat.mod_eq_of_lt hv)

theorem bufState_setBufState_other {b c : Nat} (v : Nat) (hb : b < 16) (hc : c ≠ b) :
    bufState (setBufState t r b v s) t r c = bufState s t r c := by
  have hfits : (bufFld r b).lo + (bufFld r b).width ≤ 32 := by simp only [bufFld]; omega
  rw [bufState_eq_fget, bufState_eq_fget]
  exact fget_fset_disjoint s (pgTile t) (bufFld r b) (bufFld r c) v hfits (by simp only [bufFld]; omega) rfl

theorem rd_setTags_off (b : Nat) (wide invalid : Bool) (pg : PageKey) {off : Nat} (h : off ≠ 0x20C + 0x10 * r) :
    rd (setTags t r b wide invalid s) pg off = rd s pg off := by
  rw [setTags, fsetBit, rd_fset_off _ _ _ _ _ _ h, fsetBit, rd_fset_off _ _ _ _ _ _ h]

theorem bufState_of_rd {u : State} (b : Nat) (h : rd u (pgTile t) (0x208 + 0x10 * r) = rd s (pgTile t) (0x208 + 0x10 * r)) :
    bufState u t r b = bufState s t r b := by
  rw [bufState_eq_fget, bufState_eq_fget, fget, fget]
  exact congrArg _ h

/-- Buffer `b` becomes FULL with its tags clear. -/
def fillBuf (t : TileId) (r : Nat) (s : State) (b : Nat) : State := setTags t r b false false (setBufState t r b 2 s)

theorem bufState_fillBuf {b : Nat} (c : Nat) (hb : b < 16) : bufState (fillBuf t r s b) t r c = if c = b then 2 else bufState s t r c := by
  rw [fillBuf, bufState_of_rd (setBufState t r b 2 s) t r c (rd_setTags_off _ _ _ _ _ _ _ (by omega))]
  split
  next h => rw [h, bufState_setBufState_same _ _ _ hb (by decide)]
  next h => rw [bufState_setBufState_other _ _ _ _ hb h]

/-- The first `n` buffers become FULL. -/
def fillBufs (t : TileId) (r n : Nat) (s : State) : State := (upTo n).foldl (fillBuf t r) s

theorem fillBufs_succ (n : Nat) : fillBufs t r (n + 1) s = fillBuf t r (fillBufs t r n s) n := by
  rw [fillBufs, upTo, List.range_succ, List.foldl_append]
  rfl

theorem bufState_fillBufs {n : Nat} (c : Nat) (hn : n ≤ 16) :
    bufState (fillBufs t r n s) t r c = if c < n then 2 else bufState s t r c := by
  induction n with
  | zero => rfl
  | succ n ih =>
    rw [fillBufs_succ, bufState_fillBuf _ _ _ _ (by omega), ih (by omega)]
    by_cases hc : c = n
    · rw [if_pos hc, if_pos (by omega)]
    · rw [if_neg hc]
      simp only [show c < n + 1 ↔ c < n by omega]

theorem fget_fillBufs_cfg (n : Nat) : fget (fillBufs t r n s) (pgTile t) (Fl.tileSlotCfgNbufM1 r) =
    fget s (pgTile t) (Fl.tileSlotCfgNbufM1 r) := by
  induction n with
  | zero => rfl
  | succ n ih =>
    have hstate : (Fl.tileSlotCfgNbufM1 r).off ≠ (bufFld r n).off := by
      simp only [bufFld, Fl.tileSlotCfgNbufM1, Fl.tileSlotStateBufs]
      omega
    have htags : (Fl.tileSlotCfgNbufM1 r).off ≠ 0x20C + 0x10 * r := by simp only [Fl.tileSlotCfgNbufM1]; omega
    rw [fillBufs_succ, fget, fillBuf, rd_setTags_off _ _ _ _ _ _ _ htags]
    exact (fget_fset_off _ _ _ (bufFld r n) _ _ hstate).trans ih

theorem fillBufs_mem (n : Nat) : (fillBufs t r n s).mem = s.mem :=
  List.foldlRecOn (motive := fun u : State => u.mem = s.mem) _ _ rfl (fun _ hu _ _ => hu)

theorem ringBufs_le : ringBufs s t r ≤ 16 := by
  have h := fget_lt s (pgTile t) (Fl.tileSlotCfgNbufM1 r)
  have hwidth : 2 ^ (Fl.tileSlotCfgNbufM1 r).width = 16 := rfl
  rw [ringBufs]
  omega

/-- The first `n` buffers become FULL, and the indices follow them. -/
def fillRing (t : TileId) (r n : Nat) (s : State) : State :=
  setRdIdx t r 0 (setWrIdx t r (n % ringBufs (fillBufs t r n s) t r) (fillBufs t r n s))

theorem bufState_fillRing {n : Nat} (c : Nat) (hn : n ≤ 16) :
    bufState (fillRing t r n s) t r c = if c < n then 2 else bufState s t r c := by
  have hoff : 0x208 + 0x10 * r ≠ 0x204 + 0x10 * r := by omega
  rw [fillRing, bufState_of_rd (fillBufs t r n s), bufState_fillBufs _ _ _ _ hn]
  rw [setRdIdx, rd_fset_off _ _ _ _ _ _ hoff, setWrIdx, rd_fset_off _ _ _ _ _ _ hoff]

theorem rdIdx_fillRing (n : Nat) : rdIdx (fillRing t r n s) t r = 0 :=
  fget_fset_same _ _ (Fl.tileSlotSizeRdIdx r) 0 (by simp [Fl.tileSlotSizeRdIdx])

theorem wrIdx_fillRing (n : Nat) : wrIdx (fillRing t r n s) t r = n % ringBufs s t r := by
  have hrd : (Fl.tileSlotSizeRdIdx r).lo + (Fl.tileSlotSizeRdIdx r).width ≤ 32 := by simp [Fl.tileSlotSizeRdIdx]
  have hwr : (Fl.tileSlotSizeWrIdx r).lo + (Fl.tileSlotSizeWrIdx r).width ≤ 32 := by simp [Fl.tileSlotSizeWrIdx]
  have hbufs : ringBufs (fillBufs t r n s) t r = ringBufs s t r := by rw [ringBufs, fget_fillBufs_cfg, ringBufs]
  have hpos : 0 < ringBufs s t r := Nat.succ_pos _
  have hlt := Nat.mod_lt n hpos
  have hle := ringBufs_le s t r
  rw [wrIdx, fillRing, setRdIdx, fget_fset_disjoint _ _ _ (Fl.tileSlotSizeWrIdx r) _ hrd (Or.inl (Nat.le_refl 20)) rfl,
    setWrIdx, fget_fset_same _ _ _ _ hwr, hbufs]
  exact Nat.mod_eq_of_lt (by simp only [Fl.tileSlotSizeWrIdx]; omega)

end

section
variable {t : TileId} {s : State} {who : Requester} {v : Word}

theorem exec_slotFill (h : Accepted s who (pgTile t) 0x458 0) : exec (.slotFill who t v) s = .next (slotFill t v s) :=
  congrArg Host.Outcome.next (guarded_accepted _ h)

theorem slotFill_of_ready (hgo : Fl.tileSlotFillGo.get v = 1) (hring : ringValid s t (Fl.tileSlotFillRing.get v) = true)
    (hempty : fget s (pgTile t) (Fl.tileSlotStateBufs (Fl.tileSlotFillRing.get v)) = 0)
    (hroom : Fl.tileSlotFillCountM1.get v + 1 ≤ ringBufs s t (Fl.tileSlotFillRing.get v))
    (hseq : fget s (pgSeq t) Fl.seqStatusState ≠ 1) :
    slotFill t v s = fillRing t (Fl.tileSlotFillRing.get v) (Fl.tileSlotFillCountM1.get v + 1) s := by
  have hready : (ringValid s t (Fl.tileSlotFillRing.get v)
      && decide (fget s (pgTile t) (Fl.tileSlotStateBufs (Fl.tileSlotFillRing.get v)) = 0)
      && decide (Fl.tileSlotFillCountM1.get v + 1 ≤ ringBufs s t (Fl.tileSlotFillRing.get v))
      && decide (fget s (pgSeq t) Fl.seqStatusState ≠ 1)) = true := by
    simp [hring, hempty, hroom, hseq]
  rw [slotFill, hgo]
  exact (if_neg (by decide)).trans (if_pos hready)

theorem slotFill_spec (hacc : Accepted s who (pgTile t) 0x458 0) (hgo : Fl.tileSlotFillGo.get v = 1)
    (hring : ringValid s t (Fl.tileSlotFillRing.get v) = true)
    (hempty : fget s (pgTile t) (Fl.tileSlotStateBufs (Fl.tileSlotFillRing.get v)) = 0)
    (hroom : Fl.tileSlotFillCountM1.get v + 1 ≤ ringBufs s t (Fl.tileSlotFillRing.get v))
    (hseq : fget s (pgSeq t) Fl.seqStatusState ≠ 1) :
    ∃ u, exec (.slotFill who t v) s = .next u ∧
      (∀ b, b < 16 → bufState u t (Fl.tileSlotFillRing.get v) b = if b ≤ Fl.tileSlotFillCountM1.get v then 2 else 0) ∧
      rdIdx u t (Fl.tileSlotFillRing.get v) = 0 ∧
      wrIdx u t (Fl.tileSlotFillRing.get v) = (Fl.tileSlotFillCountM1.get v + 1) % ringBufs s t (Fl.tileSlotFillRing.get v) ∧
      u.mem = s.mem := by
  have hle := ringBufs_le s t (Fl.tileSlotFillRing.get v)
  refine ⟨_, (exec_slotFill hacc).trans (congrArg _ (slotFill_of_ready hgo hring hempty hroom hseq)), fun b _ => ?_,
    rdIdx_fillRing _ _ _ _, wrIdx_fillRing _ _ _ _, fillBufs_mem _ _ _ _⟩
  rw [bufState_fillRing _ _ _ _ (by omega), bufState, hempty]
  simp only [bitsOf, Nat.zero_div, Nat.zero_mod, Nat.lt_succ_iff]

end

end Sys2Proof.Machine

namespace Sys2Proof.Machine

open Sys2Proof.Safety

/-! ## What changes only registers of some page types -/

/-- From `s` to `u` memory is as it was, and so is every register but those of pages of the types `ks`. -/
structure KindsOnly (ks : List PageKind) (s u : State) : Prop where
  mem : u.mem = s.mem
  regs : ∀ pg off, pg.kind ∉ ks → rd u pg off = rd s pg off

namespace KindsOnly

variable {ks : List PageKind} {s u v : State}

theorem refl (s : State) : KindsOnly ks s s := ⟨rfl, fun _ _ _ => rfl⟩

theorem of_mem_regs (hm : u.mem = s.mem) (hr : u.regs = s.regs) : KindsOnly ks s u := ⟨hm, fun _ _ _ => by rw [rd, hr, rd]⟩

theorem trans (h : KindsOnly ks s u) (h' : KindsOnly ks u v) : KindsOnly ks s v :=
  ⟨h'.mem.trans h.mem, fun pg off hk => (h'.regs pg off hk).trans (h.regs pg off hk)⟩

theorem fget (h : KindsOnly ks s u) {pg : PageKey} (f : Fld) (hk : pg.kind ∉ ks) : Machine.fget u pg f = Machine.fget s pg f := by
  rw [Machine.fget, h.regs _ _ hk, Machine.fget]

theorem wr (h : KindsOnly ks s u) {pg : PageKey} (hk : pg.kind ∈ ks) (off : Nat) (w : Word) : KindsOnly ks s (wr pg off w u) :=
  h.trans ⟨rfl, fun _ _ hn => rd_wr_kind _ _ _ _ _ _ (fun e => hn (e ▸ hk))⟩

theorem fset (h : KindsOnly ks s u) {pg : PageKey} (hk : pg.kind ∈ ks) (f : Fld) (n : Nat) : KindsOnly ks s (fset pg f n u) :=
  h.wr hk _ _

theorem setIrq (h : KindsOnly ks s u) {pg : PageKey} (hk : pg.kind ∈ ks) (i : Nat) : KindsOnly ks s (setIrq pg i u) := h.wr hk _ _

theorem recordEvent (h : KindsOnly ks s u) (code : Nat) (pg : PageKey) (d1 d2 d3 : Word) :
    KindsOnly ks s (recordEvent code pg d1 d2 d3 u) := h.trans (of_mem_regs rfl rfl)

theorem updTile (h : KindsOnly ks s u) (t : TileId) (f : Tile → Tile) : KindsOnly ks s (updTile t f u) := h.trans (of_mem_regs rfl rfl)

theorem foldl {α : Type} (h : KindsOnly ks s u) (f : State → α → State) (l : List α)
    (hf : ∀ v a, KindsOnly ks s v → KindsOnly ks s (f v a)) : KindsOnly ks s (l.foldl f u) :=
  List.foldlRecOn l f h (fun v hv a _ => hf v a hv)

theorem fsets (h : KindsOnly ks s u) {pg : PageKey} (hk : pg.kind ∈ ks) (l : List (Fld × Nat)) : KindsOnly ks s (fsets pg l u) :=
  h.foldl _ _ (fun _ _ hv => hv.fset hk _ _)

end KindsOnly

/-! ## What a job's end does before its tile is emptied (R139, R144, R215, R274, R410) -/

namespace KindsOnly

variable {ks : List PageKind} {s u : State} (h : KindsOnly ks s u) (t : TileId)
include h

theorem sendEvidence (kind : EvKind) (data : List Nat) : KindsOnly ks s (sendEvidence t kind data u) := by
  unfold Machine.sendEvidence
  dsimp only
  split <;> exact h.trans (.of_mem_regs rfl rfl)

theorem sendAdapts (l : List (Nat × Int × Nat × Nat)) : KindsOnly ks s (sendAdapts t l u) := by
  refine h.foldl _ _ (fun v o hv => ?_)
  split
  · exact hv
  · exact hv.sendEvidence _ _ _

theorem heartbeat (final : Bool) : KindsOnly ks s (heartbeat t final u) := by
  unfold Machine.heartbeat
  exact (h.sendEvidence t _ _).updTile t _

theorem shiftHistories (hk : .stats ∈ ks) : KindsOnly ks s (shiftHistories t u) := by
  have hpg : (pgStats t).kind ∈ ks := hk
  unfold Machine.shiftHistories
  refine (h.foldl _ _ (fun v k hv => ?_)).updTile t _
  extract_lets _ _ _ w _
  have hw : KindsOnly ks s w := hv.fsets hpg _
  split
  · exact hv
  · split
    · exact (hw.setIrq hpg _).recordEvent _ _ _ _ _
    · exact hw

theorem discardImem (hk : .seq ∈ ks) : KindsOnly ks s (discardImem t u) := by
  have hpg : (pgSeq t).kind ∈ ks := hk
  unfold Machine.discardImem
  split
  · exact h
  · exact (h.updTile t _).fsets hpg _

theorem reverseStep (hk : .tile ∈ ks) (p : SlotStep) : KindsOnly ks s (reverseStep p u) := by
  have hpg : (pgTile p.tile).kind ∈ ks := hk
  unfold Machine.reverseStep
  split
  · exact (((h.fset hpg _ _).fset hpg _ _).fset hpg _ _).fset hpg _ _
  · exact (h.fset hpg _ _).fset hpg _ _
  · exact h

theorem reverseBlocks (hk : .tile ∈ ks) (e : StrmId) : KindsOnly ks s (reverseBlocks t e u) := by
  unfold Machine.reverseBlocks
  refine ((h.foldl _ _ (fun v c hv => ?_)).updTile t _).updTile t _
  split
  · exact hv.foldl _ _ (fun _ p hw => hw.reverseStep hk p)
  · exact hv

theorem disarmChans (hk : .tile ∈ ks) (e : StrmId) (hpg : (pgStrm t e).kind ∈ ks) : KindsOnly ks s (disarmChans t e u) :=
  ((h.reverseBlocks t hk e).updTile t _).foldl _ _ (fun _ _ hv => (hv.updTile t _).fsets hpg _)

end KindsOnly

/-! ## A job leaves its tile (R389) -/

/-- What the end of job `j` sends to Caldera: the adaptation records `outs` of its frame step, and its last heartbeat (R144, R410). -/
def endEvidence (t : TileId) (j : TileJob) (step : Bool) (outs : List (Nat × Int × Nat × Nat)) (s : State) : State :=
  let s := if step then sendAdapts t outs s else s
  if j.safe && j.jid.isSome then heartbeat t true s else s

/-- A job counts, and its histories shift; a Geyser patch is none (R126, R139, R422). -/
def countJob (t : TileId) (j : TileJob) (s : State) : State :=
  if j.jid.isSome then fwrap (pgScale t) Fl.scaleJobCntJobs 1 (shiftHistories t s) else s

/-- The channels of a tile are disarmed, its staged instruction words discarded, and its interlock flags clear (R212, R215,
R274). -/
def endEngines (t : TileId) (s : State) : State :=
  fsets (pgSeq t) [(Fl.seqStatusAutoIl, 0), (Fl.seqStatusWideIl, 0)] (disarmChans t 1 (disarmChans t 0 (discardImem t s)))

/-- After a fault the sequencer of a tile is idle, and the tile is no longer halted (R389). -/
def endFaulted (t : TileId) (s : State) : State :=
  let s := if fget s (pgSeq t) Fl.seqStatusState = 1 then fsets (pgSeq t) [(Fl.seqStatusState, 0), (Fl.seqStatusStall, 0)] s else s
  fset (pgTile t) Fl.tileRunHalted 0 s

section
variable (t : TileId) (s : State)

theorem kindsOnly_endEvidence (j : TileJob) (step : Bool) (outs : List (Nat × Int × Nat × Nat)) :
    KindsOnly [] s (endEvidence t j step outs s) := by
  unfold endEvidence
  extract_lets u
  have hu : KindsOnly [] s u := by
    unfold u
    split
    · exact (KindsOnly.refl _).sendAdapts t _
    · exact .refl _
  split
  · exact hu.heartbeat t _
  · exact hu

theorem kindsOnly_countJob (j : TileJob) : KindsOnly [.stats, .scale] s (countJob t j s) := by
  have hpg : (pgScale t).kind ∈ [PageKind.stats, .scale] := by simp [pgScale]
  unfold countJob
  split
  · exact ((KindsOnly.refl _).shiftHistories t (by decide)).fset hpg _ _
  · exact .refl _

theorem fget_countJob (j : TileJob) : fget (countJob t j s) (pgScale t) Fl.scaleJobCntJobs =
    (fget s (pgScale t) Fl.scaleJobCntJobs + (if j.jid.isSome then 1 else 0)) % 2 ^ 32 := by
  have hshift : KindsOnly [.stats] s (shiftHistories t s) := (KindsOnly.refl s).shiftHistories t (by decide)
  unfold countJob
  split
  · rw [fwrap, fget_fset_same _ _ _ _ (by decide), hshift.fget _ (by simp [pgScale])]
    rfl
  · exact (Nat.mod_eq_of_lt (fget_lt _ _ Fl.scaleJobCntJobs)).symm

theorem kindsOnly_endEngines : KindsOnly [.seq, .tile, .strm0, .strm1] s (endEngines t s) := by
  have hseq : (pgSeq t).kind ∈ [PageKind.seq, .tile, .strm0, .strm1] := by simp [pgSeq]
  have himem : KindsOnly [.seq, .tile, .strm0, .strm1] s (discardImem t s) := (KindsOnly.refl _).discardImem t (by decide)
  exact ((himem.disarmChans t (by decide) 0 (by simp [pgStrm])).disarmChans t (by decide) 1 (by simp [pgStrm])).fsets hseq _

theorem fget_endEngines :
    fget (endEngines t s) (pgSeq t) Fl.seqStatusAutoIl = 0 ∧ fget (endEngines t s) (pgSeq t) Fl.seqStatusWideIl = 0 := by
  rw [endEngines, fsets, List.foldl_cons, List.foldl_cons, List.foldl_nil]
  refine ⟨?_, fget_fset_same _ _ Fl.seqStatusWideIl 0 (by decide)⟩
  refine (fget_fset_disjoint _ _ Fl.seqStatusWideIl Fl.seqStatusAutoIl 0 (by decide) (by decide) rfl).trans ?_
  exact fget_fset_same _ _ Fl.seqStatusAutoIl 0 (by decide)

theorem endFaulted_mem : (endFaulted t s).mem = s.mem := by
  unfold endFaulted
  dsimp only
  split <;> rfl

theorem fget_endFaulted : fget (endFaulted t s) (pgTile t) Fl.tileRunHalted = 0 := fget_fset_same _ _ Fl.tileRunHalted 0 (by decide)

end

/-! ### The tile that is left -/

/-- Ageing the tags changes rows of the accumulator alone (R209). -/
theorem ageTags_eq (b : Nat) (x : Tile) : ∃ acc undo, ageTags b x = { x with acc := acc, undo := undo } := by
  unfold ageTags
  extract_lets jump passed old
  split
  · exact ⟨x.acc, x.undo, rfl⟩
  · exact ⟨_, _, rfl⟩

/-- `x` is what a job leaves of a tile: no job, no descriptors, a frame step if `step`, and no commands after a fault (R140, R152,
R389). -/
structure Left (normal step : Bool) (x : Tile) : Prop where
  job : x.job = none
  descs : x.descs = []
  frameStep : x.frameStep = step
  queues : normal = false → ∀ q, queueOf x q = []

theorem Left.ageTags {normal step : Bool} {x : Tile} (h : Left normal step x) (b : Nat) : Left normal step (ageTags b x) := by
  obtain ⟨hjob, hdescs, hstep, hqueues⟩ := h
  obtain ⟨acc, undo, heq⟩ := ageTags_eq b x
  rw [heq]
  exact ⟨hjob, hdescs, hstep, fun hn q => by rw [← hqueues hn q]; cases q <;> rfl⟩

/-- From `v` to `u` memory and the registers are as they were, and the job has left tile `t`. -/
structure Leaves (t : TileId) (normal step : Bool) (v u : State) : Prop where
  mem : u.mem = v.mem
  regs : u.regs = v.regs
  tile : Left normal step (tile u t)

theorem leaves_of_updJob {t : TileId} {normal step : Bool} {f : Tile → Tile} (v : State) (jid : Option Nat) (g : JobRun → JobRun)
    (hf : ∀ x, Left normal step (f x)) :
    Leaves t normal step v (match jid with
      | none => updTile t (entriesLeave f) v
      | some n => updJob n g (updTile t (entriesLeave f) v)) := by
  have hleft : Left normal step (tile (updTile t (entriesLeave f) v) t) := by
    rw [tile_updTile_same]
    exact (hf _).ageTags _
  cases jid with
  | none => exact ⟨rfl, rfl, hleft⟩
  | some n => exact ⟨rfl, rfl, hleft⟩

section
variable {t : TileId} {s : State} {j : TileJob}

/-- The job of a tile has ended normally, and the tile is not frozen (R389, R404). -/
def endsNormally (s : State) (t : TileId) (j : TileJob) : Bool :=
  !j.faulted && jobDone s t j && (tile s t).kill.isNone && !fon s (pgTile t) Fl.tileCtxCtlFreeze

/-- The registers, memory and evidence that a job leaves behind, before its tile is emptied. -/
def jobEnded (t : TileId) (j : TileJob) (normal : Bool) (s : State) : State :=
  let step := normal && j.jid.isSome
  let s := endEngines t (countJob t j (endEvidence t j step (if step then frameOutcomes s t else []) s))
  if normal then s else endFaulted t s

/-- A job that has ended normally, or that has faulted and whose kill is over with no save or restore under way, leaves its tile. -/
theorem doTileJobEnd_leaves {normal : Bool} (hjob : (tile s t).job = some j) (hnormal : endsNormally s t j = normal)
    (hgo : (normal || (j.faulted && (tile s t).kill.isNone && !ctxBusy s t)) = true) :
    Leaves t normal (normal && j.jid.isSome) (jobEnded t j normal s) (doTileJobEnd t s) := by
  unfold doTileJobEnd
  extract_lets x frame
  split
  next hnone => exact absurd (hjob.symm.trans hnone) (by simp)
  next k hk =>
    obtain rfl : j = k := Option.some.inj (hjob.symm.trans hk)
    extract_lets normal'
    obtain rfl : normal = normal' := hnormal.symm
    rw [if_neg (by rw [Bool.not_eq_true, Bool.not_eq_false']; exact hgo)]
    refine leaves_of_updJob _ _ _ (fun x => ⟨rfl, rfl, rfl, fun hfault q => ?_⟩)
    have hnot : ¬ normal' = true := by rw [hfault]; decide
    cases q <;> exact if_neg hnot

theorem mem_jobEnded (normal : Bool) (s : State) : (jobEnded t j normal s).mem = s.mem := by
  have hmem : ∀ step outs, (endEngines t (countJob t j (endEvidence t j step outs s))).mem = s.mem := fun step outs =>
    ((kindsOnly_endEngines t _).mem.trans (kindsOnly_countJob t _ j).mem).trans (kindsOnly_endEvidence t s j step outs).mem
  unfold jobEnded
  dsimp only
  split
  · exact hmem _ _
  · exact (endFaulted_mem t _).trans (hmem _ _)

theorem fget_jobEnded_jobs (s : State) : fget (jobEnded t j true s) (pgScale t) Fl.scaleJobCntJobs =
    (fget s (pgScale t) Fl.scaleJobCntJobs + (if j.jid.isSome then 1 else 0)) % 2 ^ 32 := by
  unfold jobEnded
  dsimp only
  rw [if_pos rfl, (kindsOnly_endEngines t _).fget _ (by simp [pgScale]), fget_countJob, (kindsOnly_endEvidence t s j _ _).fget _ (by simp)]

theorem fget_jobEnded_flags (s : State) :
    fget (jobEnded t j true s) (pgSeq t) Fl.seqStatusAutoIl = 0 ∧ fget (jobEnded t j true s) (pgSeq t) Fl.seqStatusWideIl = 0 := by
  unfold jobEnded
  dsimp only
  rw [if_pos rfl]
  exact fget_endEngines t _

theorem fget_jobEnded_halted (s : State) : fget (jobEnded t j false s) (pgTile t) Fl.tileRunHalted = 0 := by
  unfold jobEnded
  dsimp only
  rw [if_neg (by decide)]
  exact fget_endFaulted t _

theorem Leaves.fget {normal step : Bool} {v u : State} (h : Leaves t normal step v u) (pg : PageKey) (f : Fld) :
    fget u pg f = fget v pg f := by
  rw [Machine.fget, rd, h.regs, ← rd, ← Machine.fget]

theorem tileJobEnd_normal_spec (hjob : (tile s t).job = some j) (hfaulted : j.faulted = false) (hdone : jobDone s t j = true)
    (hkill : (tile s t).kill = none) (hfreeze : fget s (pgTile t) Fl.tileCtxCtlFreeze = 0) :
    ∃ u, exec (.tileJobEnd t) s = .next u ∧ (tile u t).job = none ∧ (tile u t).descs = [] ∧ (tile u t).frameStep = j.jid.isSome ∧
      fget u (pgSeq t) Fl.seqStatusAutoIl = 0 ∧ fget u (pgSeq t) Fl.seqStatusWideIl = 0 ∧
      fget u (pgScale t) Fl.scaleJobCntJobs = (fget s (pgScale t) Fl.scaleJobCntJobs + (if j.jid.isSome then 1 else 0)) % 2 ^ 32 ∧
      u.mem = s.mem := by
  have hnormal : endsNormally s t j = true := by simp [endsNormally, hfaulted, hdone, hkill, fon, hfreeze]
  have hleaves := doTileJobEnd_leaves hjob hnormal rfl
  refine ⟨_, rfl, hleaves.tile.job, hleaves.tile.descs, hleaves.tile.frameStep, ?_, ?_, ?_, hleaves.mem.trans (mem_jobEnded _ _)⟩
  · exact (hleaves.fget _ _).trans (fget_jobEnded_flags s).1
  · exact (hleaves.fget _ _).trans (fget_jobEnded_flags s).2
  · exact (hleaves.fget _ _).trans (fget_jobEnded_jobs s)

theorem tileJobEnd_faulted_spec (hjob : (tile s t).job = some j) (hfaulted : j.faulted = true) (hkill : (tile s t).kill = none)
    (hctx : ctxBusy s t = false) :
    ∃ u, exec (.tileJobEnd t) s = .next u ∧ (tile u t).job = none ∧ (tile u t).descs = [] ∧ (tile u t).frameStep = false ∧
      (∀ q, queue u t q = []) ∧ fget u (pgTile t) Fl.tileRunHalted = 0 ∧ u.mem = s.mem := by
  have hnormal : endsNormally s t j = false := by simp [endsNormally, hfaulted]
  have hleaves := doTileJobEnd_leaves hjob hnormal (by simp [hfaulted, hkill, hctx])
  exact ⟨_, rfl, hleaves.tile.job, hleaves.tile.descs, hleaves.tile.frameStep, hleaves.tile.queues rfl,
    (hleaves.fget _ _).trans (fget_jobEnded_halted s), hleaves.mem.trans (mem_jobEnded _ _)⟩

end

end Sys2Proof.Machine

namespace Sys2Proof.Machine

open Sys2Proof.Safety

/-! ## A fold that sets one key after another -/

section
variable {σ α β : Type} (f : σ → α → σ) (key : α → Nat) (get : σ → Nat → β)

/-- A fold leaves the keys that none of its steps sets. -/
theorem foldl_get_other (hother : ∀ s a n, n ≠ key a → get (f s a) n = get s n) (l : List α) (s : σ) {n : Nat}
    (hn : n ∉ l.map key) :
    get (l.foldl f s) n = get s n := by
  induction l generalizing s with
  | nil => rfl
  | cons a r ih =>
    rw [List.map_cons, List.mem_cons, not_or] at hn
    obtain ⟨ha, hr⟩ := hn
    rw [List.foldl_cons, ih _ hr, hother _ _ _ ha]

/-- A fold over steps with different keys leaves at each key what the step with that key has set. -/
theorem foldl_get_of_nodup (P : α → β → Prop) (hother : ∀ s a n, n ≠ key a → get (f s a) n = get s n)
    (hset : ∀ s a, P a (get (f s a) (key a))) (l : List α) (s : σ) (hl : (l.map key).Nodup) {a : α} (ha : a ∈ l) :
    P a (get (l.foldl f s) (key a)) := by
  induction l generalizing s with
  | nil => cases ha
  | cons b r ih =>
    rw [List.map_cons, List.nodup_cons] at hl
    obtain ⟨hb, hr⟩ := hl
    rw [List.foldl_cons]
    rcases List.mem_cons.mp ha with rfl | ha
    · rw [foldl_get_other f key get hother _ _ hb]
      exact hset s a
    · exact ih _ hr ha

end

/-! ## The frame step's last cycle (R140, R141) -/

/-- The frame step writes LOWRUN of entry `o.1`. -/
def frameLowrun (t : TileId) (s : State) (o : Nat × Int × Nat × Nat) : State :=
  updTile t (fun x => { x with stats := Tab.put x.stats o.1 { statRec x o.1 with lowrun := o.2.2.1 } }) s

/-- The field of SCALE_FILE that holds EXP of entry `n` (R129). -/
def expFld (n : Nat) : Fld := ⟨scaleOff n + 4, 0, 4⟩

/-- SCALE_ADAPT_CNT.UP for outcome 0 and SCALE_ADAPT_CNT.DOWN for outcome 1 (R131, R140). -/
def adaptFld (k : Nat) : Fld := ⟨0x108, 16 * k, 16⟩

/-- EXP of entry `o.1` goes up or down, and that counts (R140). -/
def frameExp (t : TileId) (o : Nat × Int × Nat × Nat) (s : State) : State :=
  setIrq (pgScale t) 8 (fbump (pgScale t) (adaptFld o.2.2.2) 1 (fset (pgScale t) (expFld o.1) (unsignedOf 4 o.2.1) s))

/-- What the frame step's last cycle writes for one entry. -/
def frameWrite (t : TileId) (s : State) (o : Nat × Int × Nat × Nat) : State :=
  if o.2.2.2 ≤ 1 then frameExp t o (frameLowrun t s o)
  else if o.2.2.2 = 2 then setIrq (pgScale t) 9 (frameLowrun t s o) else frameLowrun t s o

theorem frameWrite_eq_match (t : TileId) (s : State) (o : Nat × Int × Nat × Nat) : frameWrite t s o =
    match o.2.2.2 with
    | 0 => setIrq (pgScale t) 8 (fbump (pgScale t) Fl.scaleAdaptCntUp 1
        (fset (pgScale t) (expFld o.1) (unsignedOf 4 o.2.1) (frameLowrun t s o)))
    | 1 => setIrq (pgScale t) 8 (fbump (pgScale t) Fl.scaleAdaptCntDown 1
        (fset (pgScale t) (expFld o.1) (unsignedOf 4 o.2.1) (frameLowrun t s o)))
    | 2 => setIrq (pgScale t) 9 (frameLowrun t s o)
    | _ => frameLowrun t s o := by
  obtain ⟨n, e, w, k⟩ := o
  match k with
  | 0 => rfl
  | 1 => rfl
  | 2 => rfl
  | _ + 3 => rfl

/-- IRQ_RAW bits that an entry's outcome latches (R140). -/
def frameIrq (k : Nat) : Word := if k ≤ 1 then oneBit 8 else if k = 2 then oneBit 9 else 0

section
variable (t : TileId) (s : State) (o : Nat × Int × Nat × Nat)

theorem frameWrite_mem : (frameWrite t s o).mem = s.mem := by
  unfold frameWrite
  split
  · rfl
  · split <;> rfl

theorem frameWrite_tiles : (frameWrite t s o).tiles = (frameLowrun t s o).tiles := by
  unfold frameWrite
  split
  · rfl
  · split <;> rfl

theorem lowrun_frameWrite (n : Nat) : (statRec (tile (frameWrite t s o) t) n).lowrun =
    if n = o.1 then o.2.2.1 else (statRec (tile s t) n).lowrun := by
  rw [tile, frameWrite_tiles, ← tile, frameLowrun, tile_updTile_same, statRec, Tab.get_put]
  split <;> rfl

theorem rd_frameWrite_irq : rd (frameWrite t s o) (pgScale t) 0x010 = rd s (pgScale t) 0x010 ||| frameIrq o.2.2.2 := by
  have hexp : (0x010 : Nat) ≠ (expFld o.1).off := by simp only [expFld, scaleOff]; omega
  have hcnt : (0x010 : Nat) ≠ (adaptFld o.2.2.2).off := by simp only [adaptFld]; omega
  unfold frameWrite frameIrq
  split
  · rw [frameExp, rd_setIrq, fbump, rd_fset_off _ _ _ _ _ _ hcnt, rd_fset_off _ _ _ _ _ _ hexp]
    rfl
  · split
    · exact rd_setIrq _ _ _
    · exact (BitVec.or_zero).symm

theorem fget_frameWrite_exp (n : Nat) : fget (frameWrite t s o) (pgScale t) (expFld n) =
    if n = o.1 ∧ o.2.2.2 ≤ 1 then unsignedOf 4 o.2.1 % 16 else fget s (pgScale t) (expFld n) := by
  have hirq : (expFld n).off ≠ 0x010 := by simp only [expFld, scaleOff]; omega
  have hcnt : (expFld n).off ≠ (adaptFld o.2.2.2).off := by simp only [expFld, scaleOff, adaptFld]; omega
  unfold frameWrite
  split
  next hk =>
    rw [frameExp, fget_setIrq_off _ _ _ _ _ hirq, fbump, fget_fset_off _ _ _ _ _ _ hcnt]
    by_cases hn : n = o.1
    · rw [if_pos ⟨hn, hk⟩, hn]
      exact fget_fset_same _ _ (expFld o.1) _ (by simp [expFld])
    · have hother : (expFld n).off ≠ (expFld o.1).off := by simp only [expFld, scaleOff]; omega
      rw [if_neg (fun h => hn h.1), fget_fset_off _ _ _ _ _ _ hother]
      rfl
  next hk =>
    rw [if_neg (show ¬ (n = o.1 ∧ o.2.2.2 ≤ 1) from fun h => hk h.2)]
    split
    · exact fget_setIrq_off _ _ _ _ _ hirq
    · rfl

theorem fget_frameWrite_adapt {k : Nat} (hk : k ≤ 1) : fget (frameWrite t s o) (pgScale t) (adaptFld k) =
    min (fget s (pgScale t) (adaptFld k) + (if o.2.2.2 = k then 1 else 0)) 0xFFFF := by
  have hexp : (adaptFld k).off ≠ (expFld o.1).off := by simp only [expFld, scaleOff, adaptFld]; omega
  have hirq : (adaptFld k).off ≠ 0x010 := by simp only [adaptFld]; omega
  have hfull : fget s (pgScale t) (adaptFld k) = min (fget s (pgScale t) (adaptFld k) + 0) 0xFFFF :=
    (Nat.min_eq_left (Nat.le_of_lt_succ (fget_lt s (pgScale t) (adaptFld k)))).symm
  have hbefore : fget (fset (pgScale t) (expFld o.1) (unsignedOf 4 o.2.1) (frameLowrun t s o)) (pgScale t) (adaptFld k) =
      fget s (pgScale t) (adaptFld k) := fget_fset_off _ _ _ _ _ _ hexp
  unfold frameWrite
  split
  next hadapt =>
    rw [frameExp, fget_setIrq_off _ _ _ _ _ hirq]
    have hfits : (adaptFld o.2.2.2).lo + (adaptFld o.2.2.2).width ≤ 32 := by simp only [adaptFld]; omega
    by_cases hsame : o.2.2.2 = k
    · rw [hsame] at hfits ⊢
      rw [if_pos rfl, fget_fbump_same _ _ _ _ hfits, hbefore]
      rfl
    · rw [if_neg hsame, fbump, fget_fset_disjoint _ _ _ (adaptFld k) _ hfits (by simp only [adaptFld]; omega) rfl, hbefore]
      exact hfull
  next hadapt =>
    rw [if_neg (show ¬ o.2.2.2 = k by omega)]
    split
    · exact (fget_setIrq_off _ _ _ _ _ hirq).trans hfull
    · exact hfull

/-! ### All entries -/

theorem foldl_frameWrite_mem (l : List (Nat × Int × Nat × Nat)) : (l.foldl (frameWrite t) s).mem = s.mem :=
  List.foldlRecOn (motive := fun u : State => u.mem = s.mem) l _ rfl (fun u hu a _ => (frameWrite_mem t u a).trans hu)

theorem fget_foldl_adapt {k : Nat} (hk : k ≤ 1) (l : List (Nat × Int × Nat × Nat)) :
    fget (l.foldl (frameWrite t) s) (pgScale t) (adaptFld k) =
      min (fget s (pgScale t) (adaptFld k) + (l.filter (fun o => o.2.2.2 = k)).length) 0xFFFF := by
  induction l generalizing s with
  | nil => exact (Nat.min_eq_left (Nat.le_of_lt_succ (fget_lt s (pgScale t) (adaptFld k)))).symm
  | cons o r ih =>
    rw [List.foldl_cons, ih, fget_frameWrite_adapt _ _ _ hk, List.filter_cons]
    by_cases ho : o.2.2.2 = k
    · simp only [ho, decide_true, if_true, List.length_cons]
      omega
    · simp only [ho, decide_false, if_false, Bool.false_eq_true]
      omega

theorem bitAt_foldl_irq (l : List (Nat × Int × Nat × Nat)) (i : Nat) :
    bitAt (rd (l.foldl (frameWrite t) s) (pgScale t) 0x010) i =
      (bitAt (rd s (pgScale t) 0x010) i || l.any (fun o => bitAt (frameIrq o.2.2.2) i)) := by
  induction l generalizing s with
  | nil => exact (Bool.or_false _).symm
  | cons o r ih =>
    rw [List.foldl_cons, ih, rd_frameWrite_irq, List.any_cons, ← Bool.or_assoc, bitAt, BitVec.getLsbD_or, ← bitAt, ← bitAt]

/-- An entry with outcome `k` latches the bits of that outcome. -/
theorem bitAt_foldl_irq_of_filter {l : List (Nat × Int × Nat × Nat)} {k i : Nat} (hbit : bitAt (frameIrq k) i = true)
    (hpos : 0 < (l.filter (fun o => o.2.2.2 = k)).length) : bitAt (rd (l.foldl (frameWrite t) s) (pgScale t) 0x010) i = true := by
  obtain ⟨o, ho⟩ := List.exists_mem_of_length_pos hpos
  obtain ⟨hmem, hk⟩ := List.mem_filter.mp ho
  rw [bitAt_foldl_irq, Bool.or_eq_true, List.any_eq_true]
  exact Or.inr ⟨o, hmem, by rw [of_decide_eq_true hk, hbit]⟩

end

section
variable {t : TileId} {s : State}

/-- A tile whose frame step is over keeps what it adapted until the job has ended (R141). -/
def frameOver (x : Tile) : Tile :=
  { x with
    frameStep := false
    frameOut := []
    adapted := (x.frameOut.filter (fun o => decide (o.2.2.2 ≤ 1))).map (fun o => (o.1, o.2.1)) }

theorem doFrameStepDone_eq (hstep : (tile s t).frameStep = true) :
    doFrameStepDone t s = settleAdapted t (updTile t frameOver ((tile s t).frameOut.foldl (frameWrite t) s)) := by
  have hwrite : frameWrite t = fun s o => _ := funext (fun s => funext (fun o => frameWrite_eq_match t s o))
  unfold doFrameStepDone
  extract_lets _
  rw [if_neg (by rw [Bool.not_eq_true, Bool.not_eq_false']; exact hstep), hwrite]
  rfl

/-- From `v` to `u` memory and the registers are as they were, and so are the statistics of tile `t`, whose frame step is over. -/
structure Settled (t : TileId) (v u : State) : Prop where
  mem : u.mem = v.mem
  regs : u.regs = v.regs
  stats : (tile u t).stats = (tile v t).stats
  frameStep : (tile u t).frameStep = false

theorem settleAdapted_settled (v : State) : Settled t v (settleAdapted t (updTile t frameOver v)) := by
  unfold settleAdapted
  extract_lets _ due
  split
  · exact ⟨rfl, rfl, by rw [tile_updTile_same, frameOver], by rw [tile_updTile_same, frameOver]⟩
  · refine ⟨rfl, rfl, ?_, ?_⟩ <;> rw [tile_updTile_same, tile_updTile_same, frameOver]

theorem doFrameStepDone_settled (hstep : (tile s t).frameStep = true) :
    Settled t ((tile s t).frameOut.foldl (frameWrite t) s) (doFrameStepDone t s) := by
  rw [doFrameStepDone_eq hstep]
  exact settleAdapted_settled _

theorem Settled.rd {v u : State} (h : Settled t v u) (pg : PageKey) (off : Nat) : rd u pg off = rd v pg off := by
  rw [Machine.rd, h.regs, ← Machine.rd]

theorem Settled.fget {v u : State} (h : Settled t v u) (pg : PageKey) (f : Fld) : fget u pg f = fget v pg f := by
  rw [Machine.fget, h.rd, ← Machine.fget]

theorem frameStepDone_spec (hstep : (tile s t).frameStep = true) (hnodup : ((tile s t).frameOut.map Prod.fst).Nodup) :
    let n := fun k => ((tile s t).frameOut.filter (fun o => o.2.2.2 = k)).length
    ∃ u, exec (.frameStepDone t) s = .next u ∧ (tile u t).frameStep = false ∧
      (∀ o ∈ (tile s t).frameOut, o.1 < 1024 → (statRec (tile u t) o.1).lowrun = o.2.2.1 ∧
        (o.2.2.2 ≤ 1 → fget u (pgScale t) ⟨scaleOff o.1 + 4, 0, 4⟩ = unsignedOf 4 o.2.1 % 16)) ∧
      fget u (pgScale t) Fl.scaleAdaptCntUp = min (fget s (pgScale t) Fl.scaleAdaptCntUp + n 0) 0xFFFF ∧
      fget u (pgScale t) Fl.scaleAdaptCntDown = min (fget s (pgScale t) Fl.scaleAdaptCntDown + n 1) 0xFFFF ∧
      (0 < n 0 + n 1 → bitAt (rd u (pgScale t) 0x010) 8 = true) ∧ (0 < n 2 → bitAt (rd u (pgScale t) 0x010) 9 = true) ∧
      u.mem = s.mem := by
  intro n
  have hset := doFrameStepDone_settled hstep
  have hirq : ∀ k i, bitAt (frameIrq k) i = true → 0 < n k → bitAt (rd (doFrameStepDone t s) (pgScale t) 0x010) i = true :=
    fun k i hbit hpos => by rw [hset.rd]; exact bitAt_foldl_irq_of_filter t s hbit hpos
  refine ⟨_, rfl, hset.frameStep, fun o ho _ => ⟨?_, fun hk => ?_⟩, ?_, ?_, fun hpos => ?_, hirq 2 9 (by decide),
    hset.mem.trans (foldl_frameWrite_mem t s _)⟩
  · rw [statRec, hset.stats, ← statRec]
    exact foldl_get_of_nodup (frameWrite t) Prod.fst (fun s n => (statRec (tile s t) n).lowrun) (fun o w => w = o.2.2.1)
      (fun s o n hn => (lowrun_frameWrite t s o n).trans (if_neg hn))
      (fun s o => (lowrun_frameWrite t s o o.1).trans (if_pos rfl)) _ s hnodup ho
  · rw [hset.fget]
    exact foldl_get_of_nodup (frameWrite t) Prod.fst (fun s n => fget s (pgScale t) (expFld n))
      (fun o e => o.2.2.2 ≤ 1 → e = unsignedOf 4 o.2.1 % 16)
      (fun s o n hn => (fget_frameWrite_exp t s o n).trans (if_neg (fun h => hn h.1)))
      (fun s o hk => (fget_frameWrite_exp t s o o.1).trans (if_pos ⟨rfl, hk⟩)) _ s hnodup ho hk
  · exact (hset.fget _ _).trans (fget_foldl_adapt t s (Nat.zero_le 1) _)
  · exact (hset.fget _ _).trans (fget_foldl_adapt t s (Nat.le_refl 1) _)
  · rcases Nat.eq_zero_or_pos (n 0) with h0 | h0
    · exact hirq 1 8 (by decide) (by omega)
    · exact hirq 0 8 (by decide) h0

end

end Sys2Proof.Machine

namespace Sys2Proof

open Sys2Proof.Machine Sys2Proof.Safety

/-- Settles O28, a lemma for each of its commands: copies of descriptors, slot fills, the two ends of a job on a tile, and the
frame step's last cycle. -/
theorem descriptorsSlotsAndJobEnds : Obligations.DescriptorsSlotsAndJobEnds := by
  unfold Obligations.DescriptorsSlotsAndJobEnds
  intro t s
  exact ⟨fun who v hacc => ⟨descLoad_spec hacc, descLoad_bad_spec hacc⟩, fun h => descCopyResponse_spec, fun who v => slotFill_spec,
    fun j => tileJobEnd_normal_spec, fun j => tileJobEnd_faulted_spec, frameStepDone_spec⟩

end Sys2Proof

namespace Sys2Proof.Machine

open Sys2Proof.Safety

/-! ## A queue after its own change -/

@[simp] theorem queueOf_setQueueOf_same (x : Tile) (q : Engine) (l : List QEntry) : queueOf (setQueueOf x q l) q = l := by
  cases q <;> rfl

theorem queue_updEntry_same (t : TileId) (q : Engine) (num : Nat) (f : QEntry → QEntry) (s : State) :
    queue (updEntry t q num f s) t q = (queue s t q).map (fun e => if e.num = num then f e else e) := by
  rw [queue, updEntry, setQueue, tile_updTile_same, queueOf_setQueueOf_same]

theorem queue_setPhase_length (t : TileId) (q : Engine) (num : Nat) (p : Phase) (s : State) :
    (queue (setPhase t q num p s) t q).length = (queue s t q).length := by
  rw [setPhase, queue_updEntry_same, List.length_map]

theorem inPhase_setPhase (t : TileId) (q : Engine) (num : Nat) (p : Phase) (s : State) : InPhase (setPhase t q num p s) t q num p := by
  intro x hx hnum
  rw [setPhase, queue_updEntry_same] at hx
  obtain ⟨e, -, rfl⟩ := List.mem_map.mp hx
  by_cases he : e.num = num
  · rw [if_pos he]
  · rw [if_neg he] at hnum
    exact absurd hnum he

/-! ## The ordering commands at the head of their queue (R178, R179, R261, R265) -/

section
variable {s : State} {t : TileId} {q : Engine} {op : Nat} {e : QEntry} {ds : List (Option (List Word))}

/-- A command at the head that has passed its checks does what its dispatch gives it. -/
theorem withHead_of_atHead (h : AtHead s t q op e ds) (k : QEntry → List (Option (List Word)) → State) :
    withHead s t q op k = k e ds := by
  obtain ⟨hmay, hhead, hop, htakes, hchecks⟩ := h
  simp [withHead, hmay, hhead, hop, htakes, hchecks]

theorem doNote_of_atHead (h : AtHead s t q op e []) : doNote op t q s = setPhase t q e.num .complete s :=
  withHead_of_atHead h _

theorem doCommit_of_atHead (h : AtHead s t q 0x32 e []) : doCommit t q s = setPhase t q e.num .running s :=
  withHead_of_atHead h _

theorem doWait_of_barMet (h : AtHead s t q 0x31 e []) (hmet : barMet s (tilePart s t) (cf e 0 16 6) (cf e 1 0 16) = true) :
    doWait t q s = setPhase t q e.num .complete s := by
  rw [doWait, withHead_of_atHead h, if_pos hmet]

theorem doWait_of_not_barMet (h : AtHead s t q 0x31 e []) (hmet : barMet s (tilePart s t) (cf e 0 16 6) (cf e 1 0 16) = false) :
    doWait t q s = stall t 7 s := by
  rw [doWait, withHead_of_atHead h, hmet, if_neg Bool.false_ne_true]

end

theorem fget_stall (t : TileId) (c : Nat) (s : State) :
    fget (stall t c s) (pgSpad t) (Fl.spadStallCycles c) = min (fget s (pgSpad t) (Fl.spadStallCycles c) + 1) (2 ^ 32 - 1) :=
  fget_fbump_same s (pgSpad t) (Fl.spadStallCycles c) 1 (Nat.le_refl 32)

theorem onlyRegs_stall (t : TileId) (c : Nat) (s : State) :
    OnlyRegs (keysOf (pgSpad t) [(Fl.spadStallCycles c).off]) s (stall t c s) :=
  (OnlyRegs.refl _ s).fset _ _ _ (List.mem_singleton.mpr rfl)

/-- Once its change has reached them, the partition's tiles see a barrier's own count (R266). -/
theorem barSeen_doBarrierUpdate (p : PartId) (b : Fin 64) (s : State) :
    barSeen (doBarrierUpdate p b s) p b.val = Tab.get 0 s.barriers (p, b.val) := by
  have hnone : (doBarrierUpdate p b s).barrierSeen.find? (fun e => decide (e.1 = (p, b.val))) = none :=
    List.find?_eq_none.mpr (fun e he => by simpa using (List.mem_filter.mp he).2)
  rw [barSeen, hnone]
  rfl

end Sys2Proof.Machine

namespace Sys2Proof

open Sys2Proof.Machine Sys2Proof.Safety

/-- Settles O25: each command sets the phase of its own entry, and a WAIT whose threshold is not met counts a stall. -/
theorem orderingCommandsAtTheHead : Obligations.OrderingCommandsAtTheHead := by
  unfold Obligations.OrderingCommandsAtTheHead
  intro t q e s
  have hcomplete := inPhase_setPhase t q e.num .complete s
  have hlength := queue_setPhase_length t q e.num .complete s
  refine ⟨fun h => ?signal, fun h => ?mark, fun h => ⟨fun hmet => ?met, fun hmet => ?blocked⟩, fun h => ?commit, fun p b => ?update⟩
  case signal => exact ⟨_, congrArg Host.Outcome.next (doNote_of_atHead h), hcomplete, rfl, hlength⟩
  case mark => exact ⟨_, congrArg Host.Outcome.next (doNote_of_atHead h), hcomplete, rfl, hlength⟩
  case met => exact ⟨_, congrArg Host.Outcome.next (doWait_of_barMet h hmet), hcomplete, rfl⟩
  case blocked =>
    exact ⟨_, congrArg Host.Outcome.next (doWait_of_not_barMet h hmet), fget_stall t 7 s, onlyRegs_stall t 7 s⟩
  case commit =>
    exact ⟨_, congrArg Host.Outcome.next (doCommit_of_atHead h), inPhase_setPhase t q e.num .running s, rfl⟩
  case update => exact ⟨_, rfl, barSeen_doBarrierUpdate p b s, rfl⟩

end Sys2Proof

namespace Sys2Proof.Machine

open Sys2Proof.Safety

/-! ## A MOVE that soft-resets its own engine's page (R51, R154, R176) -/

/-- The descriptor of a column of nine INT32 elements with words 0 and 1, its rows `sh` bytes apart (R153, R155). -/
def columnDesc (w0 w1 sh : Word) : List Word := [w0, w1, 0x00080000, 0, 0, 0, 0, sh, 0, 0, 0, 0xFFFF, 0, 0, 0, 0]

/-- A column in tile 0's scratchpad, at 0x20000 and up with a row in each 16 bytes. -/
def selfResetSrc : List Word := columnDesc 0x20000 0x80C00210 16

/-- A column from 0x1801005088, in an LLC window as R154 asks, with the largest row stride R155 allows. Its last row lies at
0x2001005008, which is CTRL of tile 0's STRM0 page (R35, R36, R38). -/
def selfResetDst : List Word := columnDesc 0x01005088 0x80C00118 0xFFFFFFF0

/-- The whole-tensor copy of descriptor 1 to descriptor 2. -/
def selfResetMove : QEntry := { w0 := 0x221, w1 := 0x20001, w2 := 0xFF, w3 := 0, num := 7 }

/-- Tile 0's SPAD and STRM0 pages are ON in a powered domain, PART0, which owns them, is in use and has three descriptors, and the
MOVE is the one command of queue S0. The last row of its source holds 2, SOFT_RST of CTRL; the others hold 0. -/
def selfResetStart : State :=
  fset (pgSpad 0) Fl.state 2 (fset (pgStrm 0 0) Fl.state 2 (fset pgPwr Fl.pwrDomStatOn 1 (fset (pgPart 0) Fl.partCfgValid 1
    (fset (pgPart 0) Fl.partDescCntCount 3
      { mem := [(0x1000020080, 2)]
        tiles := [(0, { s0 := [selfResetMove], descs := [(1, selfResetSrc), (2, selfResetDst)] })] }))))

theorem moveReady_selfReset : MoveReady selfResetStart 0 0 0x21 .move selfResetMove selfResetSrc selfResetDst none where
  none' := by decide
  head := ⟨by decide, by decide, by decide, by decide, by rfl⟩
  sdesc := by decide
  region := by decide
  room := by decide
  adaptive := by decide

theorem slotFree_selfReset {d : List Word} (write : Bool) (h : dLoc d ≠ 3) : SlotFree selfResetStart 0 0 7 d write := by
  intro ask
  simp [slotWait, h]

/-- The MOVE's last write resets the page, which ends what the engine has dispatched and leaves the command queued (R51; log 108). -/
theorem queue_selfReset : queue (doMove regRequest 0 (strmEng 0) selfResetStart) 0 (strmEng 0) = [selfResetMove] := by decide

end Sys2Proof.Machine

namespace Sys2Proof

open Sys2Proof.Machine Sys2Proof.Safety

/-- Refutes O30: a MOVE that dispatches need not be running when its command ends. Nothing bounds where a tensor outside the
scratchpads ends, and the rows of the destination in `selfResetStart` reach register space, where the last one writes SOFT_RST to
the page of the engine that copies. -/
theorem not_streamEnginesCopyTheirElements : ¬ Obligations.StreamEnginesCopyTheirElements := by
  unfold Obligations.StreamEnginesCopyTheirElements
  intro h
  obtain ⟨hmove, -⟩ := h 0 0 selfResetMove selfResetStart
  obtain ⟨u, hexec, hphase, -⟩ := hmove selfResetSrc selfResetDst none moveReady_selfReset (by decide) (by decide)
    (slotFree_selfReset false (by decide)) (slotFree_selfReset true (by decide))
  injection hexec with hu
  have hqueued : selfResetMove ∈ queue u 0 (strmEng 0) := by rw [← hu, queue_selfReset]; exact List.mem_singleton.mpr rfl
  have hrunning : selfResetMove.phase = .running := hphase _ hqueued rfl
  exact absurd hrunning (by decide)

end Sys2Proof

namespace Sys2Proof.Machine

open Sys2Proof.Safety

/-! ## What changes only the tiles and some registers of one page -/

theorem mem_keysOf (pg : PageKey) {off : Nat} {offs : List Nat} (h : off ∈ offs) : canonKey pg off ∈ keysOf pg offs :=
  List.mem_map_of_mem h

/-- Registers at other offsets are other registers, whatever their page. -/
theorem not_mem_keysOf (pg pg' : PageKey) {off : Nat} {offs : List Nat} (h : off ∉ offs) : canonKey pg' off ∉ keysOf pg offs := by
  intro hmem
  obtain ⟨o, ho, heq⟩ := List.mem_map.mp hmem
  exact h (canonKey_pg_eq _ _ _ _ heq ▸ ho)

/-- From `s` to `u` nothing changes but the tiles and the registers of a page at the offsets `offs`. -/
def PageOnly (pg : PageKey) (offs : List Nat) (s u : State) : Prop := OnlyRegs (keysOf pg offs) { s with tiles := u.tiles } u

namespace PageOnly

variable {pg : PageKey} {offs : List Nat} {s u v : State}

theorem refl (pg : PageKey) (offs : List Nat) (s : State) : PageOnly pg offs s s := OnlyRegs.refl _ s

theorem mem (h : PageOnly pg offs s u) : u.mem = s.mem := by
  rw [h.rest]

theorem rd (h : PageOnly pg offs s u) (pg' : PageKey) {off : Nat} (ho : off ∉ offs) : rd u pg' off = rd s pg' off :=
  h.regs _ _ (not_mem_keysOf _ _ ho)

theorem fget (h : PageOnly pg offs s u) (pg' : PageKey) (f : Fld) (ho : f.off ∉ offs) : fget u pg' f = fget s pg' f := by
  rw [Machine.fget, h.rd _ ho, Machine.fget]

theorem trans {offs' : List Nat} (h : PageOnly pg offs s u) (h' : PageOnly pg offs' u v) : PageOnly pg (offs ++ offs') s v := by
  refine ⟨?_, fun pg' off hk => ?_⟩
  · rw [h'.rest, h.rest]
  · rw [keysOf, List.map_append, List.mem_append, not_or] at hk
    exact (h'.regs _ _ hk.2).trans (h.regs _ _ hk.1)

theorem mono {offs' : List Nat} (h : PageOnly pg offs s u) (ho : ∀ off ∈ offs, off ∈ offs') : PageOnly pg offs' s u :=
  OnlyRegs.mono h (fun _ hk => List.map_subset _ ho hk)

theorem updTile (h : PageOnly pg offs s u) (t : TileId) (f : Tile → Tile) : PageOnly pg offs s (updTile t f u) :=
  ⟨by rw [h.rest]; rfl, h.regs⟩

theorem wr (h : PageOnly pg offs s u) {off : Nat} (ho : off ∈ offs) (w : Word) : PageOnly pg offs s (wr pg off w u) :=
  OnlyRegs.wr h pg off w (mem_keysOf pg ho)

theorem fset (h : PageOnly pg offs s u) (f : Fld) (n : Nat) (ho : f.off ∈ offs) : PageOnly pg offs s (fset pg f n u) := h.wr ho _

theorem setIrq (h : PageOnly pg offs s u) (i : Nat) (ho : 0x010 ∈ offs) : PageOnly pg offs s (setIrq pg i u) := h.wr ho _

theorem foldl {α : Type} (h : PageOnly pg offs s u) (f : State → α → State) (l : List α)
    (hf : ∀ a ∈ l, ∀ v, PageOnly pg offs s v → PageOnly pg offs s (f v a)) : PageOnly pg offs s (l.foldl f u) :=
  List.foldlRecOn l f h (fun v hv a ha => hf a ha v hv)

/-- A counter of the sequencer at another offset reads as before. -/
theorem cntOf {t : TileId} {c : Nat} (h : PageOnly pg offs s u) (ho : 0x120 + 0x4 * c ∉ offs) : cntOf u t c = cntOf s t c :=
  h.fget (pgSeq t) (Fl.seqCntValue c) ho

end PageOnly

@[simp] theorem fget_updTile (t : TileId) (f : Tile → Tile) (s : State) (pg : PageKey) (g : Fld) :
    fget (updTile t f s) pg g = fget s pg g := rfl

/-! ## The state of a sequencer: counters and loop stack (R196, R198) -/

section
variable (t : TileId) (s : State)

theorem pageOnly_setCnt (c v : Nat) : PageOnly (pgSeq t) [0x120 + 0x4 * c] s (setCnt t c v s) :=
  (PageOnly.refl _ _ s).fset _ _ (List.mem_singleton.mpr rfl)

@[simp] theorem tile_setCnt (c v : Nat) : tile (setCnt t c v s) t = tile s t := rfl

@[simp] theorem cntOf_setCnt_same (c v : Nat) : cntOf (setCnt t c v s) t c = v % 2 ^ 24 := by
  rw [cntOf, setCnt, fget_fset_same _ _ _ _ (by simp [Fl.seqCntValue])]
  exact Nat.mod_mod _ _

theorem cntOf_setCnt_other {c d : Nat} (v : Nat) (h : d ≠ c) : cntOf (setCnt t c v s) t d = cntOf s t d :=
  (pageOnly_setCnt t s c v).cntOf (by rw [List.mem_singleton]; omega)

theorem pageOnly_setLoops (l : List LoopEnt) : PageOnly (pgSeq t) [0x104] s (setLoops t l s) :=
  ((PageOnly.refl _ _ s).updTile t _).fset _ _ (List.mem_singleton.mpr rfl)

@[simp] theorem tile_setLoops (l : List LoopEnt) : tile (setLoops t l s) t = { tile s t with loops := l } :=
  tile_updTile_same t (fun x => { x with loops := l }) s

theorem loopDepth_setLoops {l : List LoopEnt} (h : l.length ≤ 4) : fget (setLoops t l s) (pgSeq t) Fl.seqStatusLoopDepth = l.length := by
  rw [setLoops, fget_fset_same _ _ _ _ (by decide)]
  exact Nat.mod_eq_of_lt (show l.length < 8 by omega)

end

/-! ## An instruction issues (R195, R217) -/

/-- The instruction that issues next does what its OP gives it. -/
theorem withInstr_of_issues {s : State} {t : TileId} {op pc : Nat} {w : Word} {p : Nat → Bool} (h : Issues s t op pc w)
    (hp : p op = true) (k : Nat → Word → State) : withInstr t p s k = k pc w := by
  obtain ⟨hruns, hrunning, hfence, rfl, rfl, hop, hfields, -⟩ := h
  have hreserved : (!within 0xB 0xE op && (imemWord s t (tile s t).nextPc).toNat &&& seqFieldMask op
      != (imemWord s t (tile s t).nextPc).toNat) = false := by
    rcases hfields with hundef | hzero
    · rw [hundef]; rfl
    · rw [hzero, bne_self_eq_false, Bool.and_false]
  simp [withInstr, hruns, fon, hrunning, hfence, hop, hp, hreserved]

/-- SEQ_PC, STALL and SEQ_ISSUED show that the instruction at `pc` has issued. -/
def countIssue (t : TileId) (pc : Nat) (s : State) : State :=
  fwrap (pgSeq t) Fl.seqIssuedCount 1 (fsets (pgSeq t) [(Fl.seqPcPc, pc), (Fl.seqStatusStall, 0)] s)

section
variable {t : TileId} {pc next : Nat} {w : Word} {s v : State}

theorem pageOnly_countIssue (t : TileId) (pc : Nat) (s : State) : PageOnly (pgSeq t) [0x104, 0x108, 0x160] s (countIssue t pc s) :=
  (((PageOnly.refl _ _ s).fset Fl.seqPcPc _ (by decide)).fset Fl.seqStatusStall _ (by decide)).fset _ _ (by decide)

@[simp] theorem tile_countIssue (t : TileId) (pc : Nat) (s : State) : tile (countIssue t pc s) t = tile s t := rfl

theorem fget_countIssue (hpc : pc < 4096) : fget (countIssue t pc s) (pgSeq t) Fl.seqPcPc = pc ∧
    fget (countIssue t pc s) (pgSeq t) Fl.seqStatusStall = 0 ∧
    fget (countIssue t pc s) (pgSeq t) Fl.seqIssuedCount = (fget s (pgSeq t) Fl.seqIssuedCount + 1) % 2 ^ 32 ∧
    fget (countIssue t pc s) (pgSeq t) Fl.seqStatusLoopDepth = fget s (pgSeq t) Fl.seqStatusLoopDepth := by
  have hshow : PageOnly (pgSeq t) [0x104, 0x108] s (fsets (pgSeq t) [(Fl.seqPcPc, pc), (Fl.seqStatusStall, 0)] s) :=
    ((PageOnly.refl _ _ s).fset Fl.seqPcPc _ (by decide)).fset Fl.seqStatusStall _ (by decide)
  have hcount : ∀ f : Fld, f.off ≠ 0x160 → fget (countIssue t pc s) (pgSeq t) f =
      fget (fset (pgSeq t) Fl.seqStatusStall 0 (fset (pgSeq t) Fl.seqPcPc pc s)) (pgSeq t) f :=
    fun f hf => fget_fset_off _ _ _ Fl.seqIssuedCount f _ hf
  have hdepth := fget_fset_disjoint (fset (pgSeq t) Fl.seqPcPc pc s) (pgSeq t) Fl.seqStatusStall Fl.seqStatusLoopDepth 0 (by decide)
    (by decide) rfl
  refine ⟨?_, ?_, ?_, ?_⟩
  · rw [hcount _ (by decide), fget_fset_off _ _ _ _ _ _ (by decide), fget_fset_same _ _ _ _ (by decide)]
    exact Nat.mod_eq_of_lt hpc
  · rw [hcount _ (by decide), fget_fset_same _ _ _ _ (by decide)]
    rfl
  · rw [countIssue, fwrap, fget_fset_same _ _ _ _ (by decide), hshow.fget _ _ (by decide)]
    rfl
  · rw [hcount _ (by decide), hdepth, fget_fset_off _ _ _ _ _ _ (by decide)]

theorem issued_of_lt (h : next < 4096) (w : Word) (s : State) :
    issued t pc w next s = updTile t (fun x => { x with nextPc := next }) (countIssue t pc s) :=
  if_neg (by omega)

theorem tile_issued (h : next < 4096) : tile (issued t pc w next s) t = { tile s t with nextPc := next } := by
  rw [issued_of_lt h, tile_updTile_same, tile_countIssue]

theorem pageOnly_issued (h : next < 4096) : PageOnly (pgSeq t) [0x104, 0x108, 0x160] s (issued t pc w next s) := by
  rw [issued_of_lt h]
  exact (pageOnly_countIssue t pc s).updTile t _

theorem loopDepth_issued (hpc : pc < 4096) (h : next < 4096) :
    fget (issued t pc w next s) (pgSeq t) Fl.seqStatusLoopDepth = fget s (pgSeq t) Fl.seqStatusLoopDepth := by
  obtain ⟨-, -, -, hdepth⟩ := fget_countIssue (t := t) (s := s) hpc
  rw [issued_of_lt h, fget_updTile, hdepth]

theorem cntOf_issued {c : Nat} (h : next < 4096) (hc : c < 8) : cntOf (issued t pc w next s) t c = cntOf s t c :=
  (pageOnly_issued h).cntOf (by simp; omega)

/-- An instruction issues from a state that its own effect on the sequencer has reached. -/
theorem issued_issued {offs : List Nat} (hpc : pc < 4096) (h : next < 4096) (hv : PageOnly (pgSeq t) offs s v)
    (ho : 0x160 ∉ offs) : Issued s (issued t pc w next v) t pc next := by
  obtain ⟨hshown, hstall, hcount, -⟩ := fget_countIssue (t := t) (s := v) hpc
  have hbefore : fget v (pgSeq t) Fl.seqIssuedCount = fget s (pgSeq t) Fl.seqIssuedCount := hv.fget _ _ ho
  refine ⟨?_, ?_, ?_, by rw [tile_issued h], (pageOnly_issued h).mem.trans hv.mem⟩ <;> rw [issued_of_lt h, fget_updTile]
  · exact hshown
  · exact hstall
  · rw [hcount, hbefore]

end

theorem sf_lt (w : Word) (lo n : Nat) : sf w lo n < 2 ^ n := bitsOf_lt _ _ _

end Sys2Proof.Machine

namespace Sys2Proof.Machine

open Sys2Proof.Safety

/-! ## The instructions that count, loop and jump (R196, R198) -/

section
variable {s : State} {t : TileId} {pc : Nat} {w : Word}

theorem delay_spec (h : Issues s t 0 pc w) (hn : pc + 1 < 4096) :
    ∃ u, exec (.delay t) s = .next u ∧ Issued s u t pc (pc + 1) ∧ PageOnly (pgSeq t) [0x104, 0x108, 0x160] s u :=
  ⟨_, congrArg Host.Outcome.next (withInstr_of_issues h rfl _), issued_issued h.low hn (PageOnly.refl _ [] s) (List.not_mem_nil),
    pageOnly_issued hn⟩

/-- An instruction that sets one counter and goes on. -/
theorem issued_setCnt {c : Nat} (v : Nat) {next : Nat} (hc : c < 8) (hpc : pc < 4096) (hn : next < 4096) :
    Issued s (issued t pc w next (setCnt t c v s)) t pc next ∧ cntOf (issued t pc w next (setCnt t c v s)) t c = v % 2 ^ 24 ∧
      ∀ d, d < 8 → d ≠ c → cntOf (issued t pc w next (setCnt t c v s)) t d = cntOf s t d := by
  refine ⟨issued_issued hpc hn (pageOnly_setCnt t s c v) (by rw [List.mem_singleton]; omega), ?_, fun d hd hdc => ?_⟩
  · rw [cntOf_issued hn hc, cntOf_setCnt_same]
  · rw [cntOf_issued hn hd, cntOf_setCnt_other _ _ _ hdc]

theorem doSet_counter (h : Issues s t 1 pc w) (hd : sf w 24 4 < 8) :
    doSet t s = issued t pc w (pc + 1) (setCnt t (sf w 24 4) (sf w 0 24) s) := by
  rw [doSet, withInstr_of_issues h rfl]
  exact if_pos hd

theorem doSet_compare (h : Issues s t 1 pc w) (hlo : 8 ≤ sf w 24 4) (hhi : sf w 24 4 < 12) :
    doSet t s = issued t pc w (pc + 1) (fset (pgSeq t) (Fl.seqCmpRef (sf w 24 4 - 8)) (sf w 0 24) s) := by
  rw [doSet, withInstr_of_issues h rfl]
  exact (if_neg (Nat.not_lt.mpr hlo)).trans (if_pos hhi)

theorem set_counter_spec (h : Issues s t 1 pc w) (hn : pc + 1 < 4096) (hd : sf w 24 4 < 8) :
    ∃ u, exec (.set t) s = .next u ∧ Issued s u t pc (pc + 1) ∧ cntOf u t (sf w 24 4) = sf w 0 24 ∧
      ∀ c, c < 8 → c ≠ sf w 24 4 → cntOf u t c = cntOf s t c := by
  obtain ⟨hissued, hcnt, hother⟩ := issued_setCnt (s := s) (t := t) (w := w) (sf w 0 24) hd h.low hn
  refine ⟨_, congrArg Host.Outcome.next (doSet_counter h hd), hissued, ?_, hother⟩
  rw [hcnt, Nat.mod_eq_of_lt (sf_lt _ _ _)]

theorem set_compare_spec (h : Issues s t 1 pc w) (hn : pc + 1 < 4096) (hlo : 8 ≤ sf w 24 4) (hhi : sf w 24 4 < 12) :
    ∃ u, exec (.set t) s = .next u ∧ Issued s u t pc (pc + 1) ∧ fget u (pgSeq t) (Fl.seqCmpRef (sf w 24 4 - 8)) = sf w 0 24 ∧
      ∀ c, c < 8 → cntOf u t c = cntOf s t c := by
  have hset : PageOnly (pgSeq t) [0x140 + 0x4 * (sf w 24 4 - 8)] s (fset (pgSeq t) (Fl.seqCmpRef (sf w 24 4 - 8)) (sf w 0 24) s) :=
    (PageOnly.refl _ _ s).fset _ _ (List.mem_singleton.mpr rfl)
  refine ⟨_, congrArg Host.Outcome.next (doSet_compare h hlo hhi), ?_, ?_, fun c hc => ?_⟩
  · exact issued_issued h.low hn hset (by rw [List.mem_singleton]; omega)
  · rw [(pageOnly_issued hn).fget _ _ (by simp [Fl.seqCmpRef]; omega), fget_fset_same _ _ _ _ (by simp [Fl.seqCmpRef])]
    exact Nat.mod_eq_of_lt (sf_lt _ _ _)
  · rw [cntOf_issued hn hc, hset.cntOf (by rw [List.mem_singleton]; omega)]

theorem addi_spec (h : Issues s t 2 pc w) (hn : pc + 1 < 4096) :
    ∃ u, exec (.addi t) s = .next u ∧ Issued s u t pc (pc + 1) ∧
      cntOf u t (sf w 24 3) = (cntOf s t (sf w 24 3) + sf w 0 24) % 2 ^ 24 ∧
      ∀ c, c < 8 → c ≠ sf w 24 3 → cntOf u t c = cntOf s t c :=
  ⟨_, congrArg Host.Outcome.next (withInstr_of_issues h rfl _), issued_setCnt _ (sf_lt _ _ _) h.low hn⟩

/-! ### Loops -/

/-- An instruction that sets one counter and replaces the loop stack. -/
theorem issued_setCnt_setLoops {c : Nat} (v : Nat) {l : List LoopEnt} {next : Nat} (hc : c < 8) (hl : l.length ≤ 4) (hpc : pc < 4096)
    (hn : next < 4096) :
    Issued s (issued t pc w next (setLoops t l (setCnt t c v s))) t pc next ∧
      cntOf (issued t pc w next (setLoops t l (setCnt t c v s))) t c = v % 2 ^ 24 ∧
      (tile (issued t pc w next (setLoops t l (setCnt t c v s))) t).loops = l ∧
      fget (issued t pc w next (setLoops t l (setCnt t c v s))) (pgSeq t) Fl.seqStatusLoopDepth = l.length := by
  refine ⟨?_, ?_, ?_, ?_⟩
  · exact issued_issued hpc hn ((pageOnly_setCnt t s c v).trans (pageOnly_setLoops t _ l)) (by simp; omega)
  · rw [cntOf_issued hn hc, (pageOnly_setLoops t _ l).cntOf (by rw [List.mem_singleton]; omega), cntOf_setCnt_same]
  · rw [tile_issued hn, tile_setLoops]
  · rw [loopDepth_issued hpc hn, loopDepth_setLoops _ _ hl]

theorem doLoop_enter (h : Issues s t 3 pc w) (hl : (tile s t).loops.length < 4) (hz : sf w 0 12 ≠ 0) :
    doLoop t s = issued t pc w (pc + 1)
      (setLoops t (⟨pc, sf w 12 12, sf w 0 12, sf w 25 3⟩ :: (tile s t).loops) (setCnt t (sf w 25 3) 0 s)) := by
  rw [doLoop, withInstr_of_issues h rfl]
  exact (if_neg (Nat.not_le.mpr hl)).trans (if_neg hz)

theorem doLoop_skip (h : Issues s t 3 pc w) (hl : (tile s t).loops.length < 4) (hz : sf w 0 12 = 0) :
    doLoop t s = issued t pc w (sf w 12 12 + 1) (setCnt t (sf w 25 3) 0 s) := by
  rw [doLoop, withInstr_of_issues h rfl]
  exact (if_neg (Nat.not_le.mpr hl)).trans (if_pos hz)

theorem loop_spec (h : Issues s t 3 pc w) (hl : (tile s t).loops.length < 4) :
    (sf w 0 12 ≠ 0 → pc + 1 < 4096 → ∃ u, exec (.loop t) s = .next u ∧ Issued s u t pc (pc + 1) ∧ cntOf u t (sf w 25 3) = 0 ∧
      (tile u t).loops = ⟨pc, sf w 12 12, sf w 0 12, sf w 25 3⟩ :: (tile s t).loops ∧
      fget u (pgSeq t) Fl.seqStatusLoopDepth = (tile s t).loops.length + 1) ∧
    (sf w 0 12 = 0 → sf w 12 12 + 1 < 4096 → ∃ u, exec (.loop t) s = .next u ∧ Issued s u t pc (sf w 12 12 + 1) ∧
      cntOf u t (sf w 25 3) = 0 ∧ (tile u t).loops = (tile s t).loops) := by
  refine ⟨fun hz hn => ?enter, fun hz hn => ?skip⟩
  case enter =>
    exact ⟨_, congrArg Host.Outcome.next (doLoop_enter h hl hz), issued_setCnt_setLoops 0 (sf_lt _ _ _) hl h.low hn⟩
  case skip =>
    obtain ⟨hissued, hcnt, -⟩ := issued_setCnt (s := s) (t := t) (w := w) 0 (sf_lt w 25 3) h.low hn
    refine ⟨_, congrArg Host.Outcome.next (doLoop_skip h hl hz), hissued, hcnt, ?_⟩
    rw [tile_issued hn, tile_setCnt]

section
variable {l : LoopEnt} {r : List LoopEnt} (h : Issues s t 4 pc w) (hloops : (tile s t).loops = l :: r) (hlast : l.last = pc)
include h hloops hlast

/-- ENDL at the end of the innermost loop counts a pass, and tells by the count whether passes are left. -/
theorem doEndl_innermost : doEndl t s =
    if (cntOf s t l.c + 1) % 2 ^ 24 < l.n then issued t pc w (l.pc + 1) (setCnt t l.c (cntOf s t l.c + 1) s)
    else issued t pc w (pc + 1) (setLoops t r (setCnt t l.c (cntOf s t l.c + 1) s)) := by
  rw [doEndl, withInstr_of_issues h rfl]
  simp only [hloops, hlast, bne_self_eq_false, Bool.false_eq_true, if_false, cntOf_setCnt_same]

theorem endl_spec (hc : l.c < 8) (hr : r.length < 4) :
    ((cntOf s t l.c + 1) % 2 ^ 24 < l.n → l.pc + 1 < 4096 → ∃ u, exec (.endl t) s = .next u ∧ Issued s u t pc (l.pc + 1) ∧
      cntOf u t l.c = (cntOf s t l.c + 1) % 2 ^ 24 ∧ (tile u t).loops = l :: r) ∧
    (l.n ≤ (cntOf s t l.c + 1) % 2 ^ 24 → pc + 1 < 4096 → ∃ u, exec (.endl t) s = .next u ∧ Issued s u t pc (pc + 1) ∧
      cntOf u t l.c = (cntOf s t l.c + 1) % 2 ^ 24 ∧ (tile u t).loops = r ∧ fget u (pgSeq t) Fl.seqStatusLoopDepth = r.length) := by
  have hendl := doEndl_innermost h hloops hlast
  refine ⟨fun hleft hn => ?again, fun hover hn => ?leave⟩
  case again =>
    rw [if_pos hleft] at hendl
    obtain ⟨hissued, hcnt, -⟩ := issued_setCnt (s := s) (t := t) (w := w) (cntOf s t l.c + 1) hc h.low hn
    refine ⟨_, congrArg Host.Outcome.next hendl, hissued, hcnt, ?_⟩
    rw [tile_issued hn, tile_setCnt, hloops]
  case leave =>
    rw [if_neg (Nat.not_lt.mpr hover)] at hendl
    exact ⟨_, congrArg Host.Outcome.next hendl, issued_setCnt_setLoops _ hc (Nat.le_of_lt hr) h.low hn⟩

end

/-! ### Jumps -/

theorem cmpj_spec (h : Issues s t 5 pc w) :
    (relHolds (sf w 21 2) (cntOf s t (sf w 25 3)) (fget s (pgSeq t) (Fl.seqCmpRef (sf w 23 2))) = true →
      ∃ u, exec (.cmpj t) s = .next u ∧ Issued s u t pc (sf w 0 12) ∧ (tile u t).loops = loopsAt (sf w 0 12) (tile s t).loops) ∧
    (relHolds (sf w 21 2) (cntOf s t (sf w 25 3)) (fget s (pgSeq t) (Fl.seqCmpRef (sf w 23 2))) = false → pc + 1 < 4096 →
      ∃ u, exec (.cmpj t) s = .next u ∧ Issued s u t pc (pc + 1) ∧ (tile u t).loops = (tile s t).loops) := by
  have hcmpj : doCmpj t s = _ := withInstr_of_issues h rfl _
  have htarget : sf w 0 12 < 4096 := sf_lt _ _ _
  refine ⟨fun hrel => ?jump, fun hrel hn => ?goOn⟩
  case jump =>
    rw [if_pos hrel] at hcmpj
    refine ⟨_, congrArg Host.Outcome.next hcmpj, issued_issued h.low htarget (pageOnly_setLoops t s _) (by decide), ?_⟩
    rw [tile_issued htarget, tile_setLoops]
  case goOn =>
    rw [if_neg (by rw [hrel]; decide)] at hcmpj
    refine ⟨_, congrArg Host.Outcome.next hcmpj, issued_issued h.low hn (PageOnly.refl _ [] s) (List.not_mem_nil), ?_⟩
    rw [tile_issued hn]

end

end Sys2Proof.Machine

namespace Sys2Proof

open Sys2Proof.Machine Sys2Proof.Safety

/-- Settles O22: each instruction changes its counter, compare register or loop stack, and then issues (`issued_issued`). -/
theorem sequencerCountsAndLoops : Obligations.SequencerCountsAndLoops := by
  unfold Obligations.SequencerCountsAndLoops
  intro t s pc w
  exact ⟨delay_spec, set_counter_spec, set_compare_spec, addi_spec, loop_spec, fun l r h => endl_spec h, cmpj_spec⟩

end Sys2Proof

namespace Sys2Proof.Machine

open Sys2Proof.Safety

/-! ## Commands pushed onto the queues (R202, R209) -/

theorem queueOf_congr {x y : Tile} (hl : x.lane = y.lane) (hv : x.vec = y.vec) (h0 : x.s0 = y.s0) (h1 : x.s1 = y.s1) (q : Engine) :
    queueOf x q = queueOf y q := by
  cases q <;> assumption

theorem queueOf_setQueueOf_other {q q' : Engine} (x : Tile) (l : List QEntry) (h : q' ≠ q) :
    queueOf (setQueueOf x q l) q' = queueOf x q' := by
  cases q <;> cases q' <;> simp [queueOf, setQueueOf] at h ⊢

/-- The entry that a push makes of a command's words. -/
def pushEntry (x : Tile) (ws : List Word) : QEntry :=
  { w0 := ws.getD 0 0, w1 := ws.getD 1 0, w2 := ws.getD 2 0, w3 := ws.getD 3 0, num := x.nextNum }

/-- A tile after a push. -/
def pushTile (q : Engine) (ws : List Word) (x : Tile) : Tile :=
  let x' := setQueueOf x q (queueOf x q ++ [pushEntry x ws])
  { x' with nextNum := (x'.nextNum + 1) % 2 ^ 16 }

theorem pushTile_nextNum (q : Engine) (ws : List Word) (x : Tile) : (pushTile q ws x).nextNum = (x.nextNum + 1) % 2 ^ 16 := by
  cases q <;> rfl

theorem pushTile_imemStaged (q : Engine) (ws : List Word) (x : Tile) : (pushTile q ws x).imemStaged = x.imemStaged := by
  cases q <;> rfl

theorem queueOf_pushTile_same (q : Engine) (ws : List Word) (x : Tile) :
    queueOf (pushTile q ws x) q = queueOf x q ++ [pushEntry x ws] :=
  (queueOf_congr rfl rfl rfl rfl q).trans (queueOf_setQueueOf_same x q (queueOf x q ++ [pushEntry x ws]))

theorem queueOf_pushTile_other {q q' : Engine} (ws : List Word) (x : Tile) (h : q' ≠ q) :
    queueOf (pushTile q ws x) q' = queueOf x q' :=
  (queueOf_congr rfl rfl rfl rfl q').trans (queueOf_setQueueOf_other x (queueOf x q ++ [pushEntry x ws]) h)

section
variable (t : TileId) (q : Engine) (ws : List Word) (s : State)

theorem pushCmd_eq : pushCmd t q ws s =
    fwrap (pgSeq t) Fl.seqEmittedCount 1 (updTile t (pushTile q ws) s) := rfl

theorem tile_pushCmd : tile (pushCmd t q ws s) t = pushTile q ws (tile s t) := by
  rw [pushCmd_eq]
  exact tile_updTile_same t (pushTile q ws) s

theorem pageOnly_pushCmd : PageOnly (pgSeq t) [0x164] s (pushCmd t q ws s) := by
  rw [pushCmd_eq]
  exact ((PageOnly.refl _ _ s).updTile t _).fset _ _ (by decide)

theorem emitted_pushCmd : fget (pushCmd t q ws s) (pgSeq t) Fl.seqEmittedCount = (fget s (pgSeq t) Fl.seqEmittedCount + 1) % 2 ^ 32 := by
  rw [pushCmd_eq, fwrap, fget_fset_same _ _ _ _ (by decide), fget_updTile]
  rfl

theorem queue_pushCmd_same : queue (pushCmd t q ws s) t q = queue s t q ++ [pushEntry (tile s t) ws] := by
  rw [queue, tile_pushCmd, queueOf_pushTile_same, queue]

theorem queue_pushCmd_other {q' : Engine} (h : q' ≠ q) : queue (pushCmd t q ws s) t q' = queue s t q' := by
  rw [queue, tile_pushCmd, queueOf_pushTile_other _ _ h, queue]

end

section
variable {s : State} {t : TileId} {pc next : Nat} {w : Word}

theorem queue_issued (h : next < 4096) (q : Engine) : queue (issued t pc w next s) t q = queue s t q := by
  rw [queue, tile_issued h]
  exact queueOf_congr rfl rfl rfl rfl q

/-- An instruction that pushes one command, onto a queue with room for it. -/
theorem pushOne_spec {q : Engine} {ws : List Word} (hpush : canPush s t [q] = true) (hpc : pc < 4096) (hn : pc + 1 < 4096) :
    Issued s (pushOne t pc w q ws s) t pc (pc + 1) ∧ Pushed s (pushOne t pc w q ws s) t q ((List.range 4).map (fun i => ws.getD i 0)) := by
  rw [pushOne, if_pos hpush]
  have hpushed := pageOnly_pushCmd t q ws s
  refine ⟨issued_issued hpc hn hpushed (by decide), ⟨pushEntry (tile s t) ws, ?_, rfl, rfl, rfl⟩, fun q' hq => ?_, ?_, ?_⟩
  · rw [queue_issued hn, queue_pushCmd_same]
  · rw [queue_issued hn, queue_pushCmd_other _ _ _ _ hq]
  · rw [tile_issued hn, tile_pushCmd, pushTile_nextNum]
  · rw [(pageOnly_issued hn).fget _ _ (by decide), emitted_pushCmd]

/-! ## EMIT, SIGNAL and MARK (R201 to R204) -/

theorem doEmit_of_fits (h : Issues s t 6 pc w) (htpl : sf w 22 6 < fget s (pgSeq t) Fl.seqTplCntCount)
    (hfits : (fillTemplate s t (sf w 22 6)).2 = true) :
    doEmit t s = pushOne t pc w (engOf (bitsOf ((fillTemplate s t (sf w 22 6)).1.getD 0 0).toNat 8 2)) (fillTemplate s t (sf w 22 6)).1 s := by
  rw [doEmit, withInstr_of_issues h rfl]
  exact (if_neg (Nat.not_le.mpr htpl)).trans (if_neg (by rw [hfits]; decide))

theorem emit_spec (h : Issues s t 6 pc w) (hn : pc + 1 < 4096) (htpl : sf w 22 6 < fget s (pgSeq t) Fl.seqTplCntCount)
    (hfits : (fillTemplate s t (sf w 22 6)).2 = true)
    (hpush : canPush s t [engOf (bitsOf ((fillTemplate s t (sf w 22 6)).1.getD 0 0).toNat 8 2)] = true) :
    ∃ u, exec (.emit t) s = .next u ∧ Issued s u t pc (pc + 1) ∧
      Pushed s u t (engOf (bitsOf ((fillTemplate s t (sf w 22 6)).1.getD 0 0).toNat 8 2))
        ((List.range 4).map (fun i => (fillTemplate s t (sf w 22 6)).1.getD i 0)) :=
  ⟨_, congrArg Host.Outcome.next (doEmit_of_fits h htpl hfits), pushOne_spec hpush h.low hn⟩

theorem seqSignal_spec (h : Issues s t 8 pc w) (hn : pc + 1 < 4096) (hpush : canPush s t [engOf (sf w 20 2)] = true) :
    ∃ u, exec (.seqSignal t) s = .next u ∧ Issued s u t pc (pc + 1) ∧
      Pushed s u t (engOf (sf w 20 2)) [BitVec.ofNat 32 (0x30 + 256 * sf w 20 2 + 0x10000 * sf w 22 6), BitVec.ofNat 32 (sf w 0 16), 0, 0] :=
  ⟨_, congrArg Host.Outcome.next (withInstr_of_issues h rfl _),
    pushOne_spec (ws := orderWords 0x30 (sf w 20 2) (sf w 22 6) (sf w 0 16)) hpush h.low hn⟩

theorem seqMark_spec (h : Issues s t 9 pc w) (hn : pc + 1 < 4096) (hpush : canPush s t [engOf (sf w 20 2)] = true) :
    ∃ u, exec (.seqMark t) s = .next u ∧ Issued s u t pc (pc + 1) ∧
      Pushed s u t (engOf (sf w 20 2)) [BitVec.ofNat 32 (0x34 + 256 * sf w 20 2 + 0x10000 * sf w 0 8), 0, 0, 0] :=
  ⟨_, congrArg Host.Outcome.next (withInstr_of_issues h rfl _),
    pushOne_spec (ws := orderWords 0x34 (sf w 20 2) (sf w 0 8) 0) hpush h.low hn⟩

end

/-! ## Staged instruction words apply (R214) -/

/-- Instruction words stored in SEQ_IMEM, in order. -/
def storeImem (t : TileId) (l : List (Nat × Word)) (s : State) : State :=
  l.foldl (fun s e => wr (pgSeq t) (0x20000 + 4 * e.1) e.2 s) s

/-- The registers that the staged words and their report are kept in. -/
def imemOffs (l : List (Nat × Word)) : List Nat := l.map (fun e => 0x20000 + 4 * e.1) ++ [0x154, 0x010]

theorem not_mem_imemOffs {off : Nat} (l : List (Nat × Word)) (hlow : off < 0x20000) (hstat : off ≠ 0x154) (hirq : off ≠ 0x010) :
    off ∉ imemOffs l := by
  rw [imemOffs, List.mem_append, List.mem_map]
  rintro (⟨e, -, he⟩ | hmem)
  · omega
  · simp [hstat, hirq] at hmem

section
variable (t : TileId) (l : List (Nat × Word)) (s : State)

theorem imemWord_storeImem_other {k : Nat} (hk : ∀ p ∈ l, p.1 ≠ k) : imemWord (storeImem t l s) t k = imemWord s t k := by
  refine foldl_get_other _ Prod.fst (fun s k => imemWord s t k) (fun v e n hne => ?_) l s (fun hmem => ?_)
  · exact rd_wr_off _ _ _ _ _ _ (by omega)
  · obtain ⟨p, hp, hpk⟩ := List.mem_map.mp hmem
    exact hk p hp hpk

/-- A word staged once is what its place holds afterwards. -/
theorem imemWord_storeImem_same {p : Nat × Word} (hp : p ∈ l) (hone : ∀ p' ∈ l, p'.1 = p.1 → p' = p) :
    imemWord (storeImem t l s) t p.1 = p.2 := by
  induction l generalizing s with
  | nil => cases hp
  | cons e r ih =>
    change imemWord (storeImem t r (wr (pgSeq t) (0x20000 + 4 * e.1) e.2 s)) t p.1 = p.2
    by_cases hr : p ∈ r
    · exact ih _ hr (fun p' hp' => hone p' (List.mem_cons_of_mem _ hp'))
    · obtain rfl : p = e := (List.mem_cons.mp hp).resolve_right hr
      rw [imemWord_storeImem_other t r _ (fun p' hp' he => hr (hone p' (List.mem_cons_of_mem _ hp') he ▸ hp')), imemWord, rd_wr_same]

theorem pageOnly_storeImem : PageOnly (pgSeq t) (imemOffs l) s (storeImem t l s) :=
  (PageOnly.refl _ _ s).foldl _ _ (fun _ he _ hv => hv.wr (List.mem_append_left _ (List.mem_map_of_mem he)) _)

theorem tile_storeImem : tile (storeImem t l s) t = tile s t :=
  List.foldlRecOn (motive := fun u => tile u t = tile s t) l _ rfl (fun _ hv _ _ => hv)

end

section
variable {t : TileId} {s : State}

/-- SEQ_IMEM_STAT and the interrupt show that the staged words have applied. -/
def imemApplied (t : TileId) (s : State) : State :=
  setIrq (pgSeq t) 11 (fwrap (pgSeq t) Fl.seqImemStatRound 1
    (fsets (pgSeq t) [(Fl.seqImemStatGstate, 2), (Fl.seqImemStatStaged, 0)] (updTile t (fun x => { x with imemStaged := [] }) s)))

theorem applyImem_of_nil (h : (tile s t).imemStaged = []) : applyImem t s = s := by
  simp [applyImem, h]

theorem applyImem_of_ne_nil (h : (tile s t).imemStaged ≠ []) : applyImem t s = imemApplied t (storeImem t (tile s t).imemStaged s) :=
  if_neg (by rw [List.isEmpty_iff]; exact h)

theorem pageOnly_imemApplied (t : TileId) (s : State) : PageOnly (pgSeq t) [0x154, 0x010] s (imemApplied t s) :=
  (((((PageOnly.refl _ _ s).updTile t _).fset Fl.seqImemStatGstate _ (by decide)).fset Fl.seqImemStatStaged _ (by decide)).fset
    Fl.seqImemStatRound _ (by decide)).setIrq _ (by decide)

theorem tile_imemApplied (t : TileId) (s : State) : tile (imemApplied t s) t = { tile s t with imemStaged := [] } :=
  tile_updTile_same t (fun x => { x with imemStaged := [] }) s

theorem gstate_imemApplied (t : TileId) (s : State) : fget (imemApplied t s) (pgSeq t) Fl.seqImemStatGstate = 2 := by
  rw [imemApplied, fget_setIrq_off _ _ _ _ _ (by decide), fwrap,
    fget_fset_disjoint _ _ Fl.seqImemStatRound Fl.seqImemStatGstate _ (by decide) (by decide) rfl, fsets, List.foldl_cons,
    List.foldl_cons, List.foldl_nil,
    fget_fset_disjoint _ _ Fl.seqImemStatStaged Fl.seqImemStatGstate _ (by decide) (by decide) rfl,
    fget_fset_same _ _ _ _ (by decide)]
  rfl

theorem pageOnly_applyImem (t : TileId) (s : State) : PageOnly (pgSeq t) (imemOffs (tile s t).imemStaged) s (applyImem t s) := by
  by_cases h : (tile s t).imemStaged = []
  · rw [applyImem_of_nil h]
    exact .refl _ _ _
  · rw [applyImem_of_ne_nil h]
    exact ((pageOnly_storeImem t _ s).trans (pageOnly_imemApplied t _)).mono
      (fun _ ho => (List.mem_append.mp ho).elim id (List.mem_append_right _))

theorem tile_applyImem (t : TileId) (s : State) : tile (applyImem t s) t = { tile s t with imemStaged := [] } := by
  by_cases h : (tile s t).imemStaged = []
  · rw [applyImem_of_nil h, ← h]
  · rw [applyImem_of_ne_nil h, tile_imemApplied, tile_storeImem]

theorem imemWord_applyImem (t : TileId) (s : State) (k : Nat) :
    imemWord (applyImem t s) t k = imemWord (storeImem t (tile s t).imemStaged s) t k := by
  by_cases h : (tile s t).imemStaged = []
  · rw [applyImem_of_nil h, h]
    rfl
  · rw [applyImem_of_ne_nil h]
    exact (pageOnly_imemApplied t _).rd _ (by simp; omega)

end

/-! ## FENCE (R204, R206, R214) -/

/-- Commands pushed in order. -/
def pushAll (t : TileId) (l : List (Engine × List Word)) (s : State) : State := l.foldl (fun s p => pushCmd t p.1 p.2 s) s

section
variable (t : TileId) (l : List (Engine × List Word)) (s : State)

theorem pageOnly_pushAll : PageOnly (pgSeq t) [0x164] s (pushAll t l s) :=
  (PageOnly.refl _ _ s).foldl _ _ (fun _ _ v hv => (hv.trans (pageOnly_pushCmd t _ _ v)).mono (by simp))

theorem imemStaged_pushAll : (tile (pushAll t l s) t).imemStaged = (tile s t).imemStaged :=
  List.foldlRecOn (motive := fun u => (tile u t).imemStaged = (tile s t).imemStaged) l _ rfl (fun v hv p _ => by
    rw [tile_pushCmd, pushTile_imemStaged, hv])

theorem queue_pushAll_other {q : Engine} (h : ∀ p ∈ l, p.1 ≠ q) : queue (pushAll t l s) t q = queue s t q :=
  List.foldlRecOn (motive := fun u => queue u t q = queue s t q) l _ rfl (fun v hv p hp => by
    rw [queue_pushCmd_other t p.1 p.2 v (h p hp).symm, hv])

/-- A queue that one of the pushes names takes that command. -/
theorem queue_pushAll_same {p : Engine × List Word} (hl : (l.map Prod.fst).Nodup) (hp : p ∈ l) :
    ∃ x, queue (pushAll t l s) t p.1 = queue s t p.1 ++ [pushEntry x p.2] := by
  induction l generalizing s with
  | nil => cases hp
  | cons e r ih =>
    rw [List.map_cons, List.nodup_cons] at hl
    obtain ⟨he, hr⟩ := hl
    change ∃ x, queue (pushAll t r (pushCmd t e.1 e.2 s)) t p.1 = _
    rcases List.mem_cons.mp hp with rfl | hmem
    · refine ⟨tile s t, ?_⟩
      rw [queue_pushAll_other t r _ (fun p' hp' heq => he (List.mem_map.mpr ⟨p', hp', heq⟩)), queue_pushCmd_same]
    · have hne : p.1 ≠ e.1 := fun heq => he (List.mem_map.mpr ⟨p, hmem, heq⟩)
      obtain ⟨x, hx⟩ := ih (pushCmd t e.1 e.2 s) hr hmem
      exact ⟨x, by rw [hx, queue_pushCmd_other _ _ _ _ hne]⟩

end

/-- The queues of a FENCE's mask. -/
def fenceQueues (w : Word) : List Engine := allEngines.filter (fun q => (sf w 24 4).testBit (engNo q))

/-- The COMMITs that a FENCE pushes. -/
def fenceCommits (w : Word) : List (Engine × List Word) := (fenceQueues w).map (fun q => (q, orderWords 0x32 (engNo q) 0 0))

/-- The numbers that a FENCE with WAITC waits for, its first COMMIT taking `first`. -/
def fenceNums (w : Word) (first : Nat) : List Nat :=
  if sf w 23 1 = 1 then (upTo (fenceQueues w).length).map (fun i => (first + i) % 2 ^ 16) else []

theorem mem_fenceQueues (w : Word) (q : Engine) : q ∈ fenceQueues w ↔ (sf w 24 4).testBit (engNo q) = true := by
  have hall : q ∈ allEngines := by cases q <;> decide
  simp [fenceQueues, hall]

theorem fenceCommits_nodup (w : Word) : ((fenceCommits w).map Prod.fst).Nodup := by
  have hnodup : (fenceQueues w).Nodup := List.Pairwise.filter _ (show allEngines.Nodup by decide)
  simpa [fenceCommits, List.map_map, Function.comp_def] using hnodup

theorem opcodeOf_pushEntry_commit (x : Tile) (q : Engine) : opcodeOf (pushEntry x (orderWords 0x32 (engNo q) 0 0)) = 0x32 := by
  have hw0 : bitsOf ((orderWords 0x32 (engNo q) 0 0).getD 0 0).toNat 0 8 = 0x32 := by cases q <;> decide
  exact hw0

section
variable {s : State} {t : TileId} {pc : Nat} {w : Word}

/-- The state a FENCE issues from: its COMMITs are pushed and the staged words applied. -/
def fenced (t : TileId) (w : Word) (s : State) : State :=
  updTile t (fun x => { x with fenceWait := fenceNums w (tile s t).nextNum }) (applyImem t (pushAll t (fenceCommits w) s))

theorem doFence_of_canPush (h : Issues s t 0xA pc w) (hpush : canPush s t (fenceQueues w) = true) :
    doFence t s = issued t pc w (pc + 1) (fenced t w s) := by
  rw [doFence, withInstr_of_issues h rfl]
  exact if_neg (by rw [← fenceQueues, hpush]; decide)

theorem tile_fenced (t : TileId) (w : Word) (s : State) : tile (fenced t w s) t =
    { tile (pushAll t (fenceCommits w) s) t with imemStaged := [], fenceWait := fenceNums w (tile s t).nextNum } := by
  rw [fenced, tile_updTile_same, tile_applyImem]

theorem pageOnly_fenced (t : TileId) (w : Word) (s : State) :
    PageOnly (pgSeq t) ([0x164] ++ imemOffs (tile s t).imemStaged) s (fenced t w s) := by
  have happly := pageOnly_applyImem t (pushAll t (fenceCommits w) s)
  rw [imemStaged_pushAll] at happly
  exact ((pageOnly_pushAll t _ s).trans happly).updTile t _

theorem queue_fenced (q : Engine) : queue (fenced t w s) t q = queue (pushAll t (fenceCommits w) s) t q := by
  rw [queue, tile_fenced]
  exact queueOf_congr rfl rfl rfl rfl q

theorem queue_fenced_pushed {q : Engine} (hq : (sf w 24 4).testBit (engNo q) = true) :
    ∃ e : QEntry, queue (fenced t w s) t q = queue s t q ++ [e] ∧ opcodeOf e = 0x32 ∧ e.phase = .queued := by
  have hmem : (q, orderWords 0x32 (engNo q) 0 0) ∈ fenceCommits w :=
    List.mem_map.mpr ⟨q, (mem_fenceQueues w q).mpr hq, rfl⟩
  obtain ⟨x, hx⟩ := queue_pushAll_same t _ s (fenceCommits_nodup w) hmem
  exact ⟨_, (queue_fenced q).trans hx, opcodeOf_pushEntry_commit x q, rfl⟩

theorem queue_fenced_other {q : Engine} (hq : (sf w 24 4).testBit (engNo q) = false) : queue (fenced t w s) t q = queue s t q := by
  rw [queue_fenced, queue_pushAll_other]
  intro p hp hpq
  obtain ⟨q', hq', rfl⟩ := List.mem_map.mp hp
  rw [mem_fenceQueues, show q' = q from hpq, hq] at hq'
  exact Bool.false_ne_true hq'

theorem gstate_fenced (h : (tile s t).imemStaged ≠ []) : fget (fenced t w s) (pgSeq t) Fl.seqImemStatGstate = 2 := by
  rw [fenced, fget_updTile, applyImem_of_ne_nil (by rw [imemStaged_pushAll]; exact h), gstate_imemApplied]

/-- What SEQ_IMEM holds after a FENCE: the words stored in it as if nothing had been pushed. -/
theorem imemWord_fenced (k : Nat) :
    imemWord (fenced t w s) t k = imemWord (storeImem t (tile s t).imemStaged (pushAll t (fenceCommits w) s)) t k := by
  have happly := imemWord_applyImem t (pushAll t (fenceCommits w) s) k
  rw [imemStaged_pushAll] at happly
  exact happly

theorem imemWord_pushAll (l : List (Engine × List Word)) (k : Nat) : imemWord (pushAll t l s) t k = imemWord s t k :=
  (pageOnly_pushAll t l s).rd _ (by rw [List.mem_singleton]; omega)

theorem imemWord_issued {next : Nat} (h : next < 4096) (k : Nat) : imemWord (issued t pc w next s) t k = imemWord s t k :=
  (pageOnly_issued h).rd _ (by simp; omega)

theorem fence_spec (h : Issues s t 0xA pc w) (hn : pc + 1 < 4096) (hpush : canPush s t (fenceQueues w) = true) :
    ∃ u, exec (.fence t) s = .next u ∧ Issued s u t pc (pc + 1) ∧ (tile u t).imemStaged = [] ∧
      (∀ q, (sf w 24 4).testBit (engNo q) = true →
        ∃ e : QEntry, queue u t q = queue s t q ++ [e] ∧ opcodeOf e = 0x32 ∧ e.phase = .queued) ∧
      (∀ q, (sf w 24 4).testBit (engNo q) = false → queue u t q = queue s t q) ∧
      (sf w 23 1 = 0 → (tile u t).fenceWait = []) ∧
      ((tile s t).imemStaged ≠ [] → fget u (pgSeq t) Fl.seqImemStatGstate = 2) ∧
      (∀ k, (∀ p ∈ (tile s t).imemStaged, p.1 ≠ k) → imemWord u t k = imemWord s t k) ∧
      (∀ p ∈ (tile s t).imemStaged, (∀ p' ∈ (tile s t).imemStaged, p'.1 = p.1 → p' = p) → imemWord u t p.1 = p.2) := by
  refine ⟨_, congrArg Host.Outcome.next (doFence_of_canPush h hpush), ?_, ?_, fun q hq => ?_, fun q hq => ?_, fun hgo => ?_,
    fun hstaged => ?_, fun k hk => ?_, fun p hp hone => ?_⟩
  · refine issued_issued h.low hn (pageOnly_fenced t w s) ?_
    rw [List.mem_append, not_or]
    exact ⟨by decide, not_mem_imemOffs _ (by decide) (by decide) (by decide)⟩
  · rw [tile_issued hn, tile_fenced]
  · rw [queue_issued hn]
    exact queue_fenced_pushed hq
  · rw [queue_issued hn, queue_fenced_other hq]
  · rw [tile_issued hn, tile_fenced, fenceNums, hgo]
    rfl
  · rw [(pageOnly_issued hn).fget _ _ (by decide), gstate_fenced hstaged]
  · rw [imemWord_issued hn, imemWord_fenced, imemWord_storeImem_other t _ _ hk, imemWord_pushAll]
  · rw [imemWord_issued hn, imemWord_fenced, imemWord_storeImem_same t _ _ hp hone]

/-! ## WAITB, HALT and DONE (R205, R207, R217) -/

/-- WAITB on a barrier that the tile's job, if it has one, may name (R205, R264; a tile with no job may name each: log 92). -/
theorem doWaitb_of_named (h : Issues s t 7 pc w) (hnamed : ∀ j, (tile s t).job = some j → j.barMask.testBit (sf w 22 6) = true) :
    doWaitb t s = if barMet s (tilePart s t) (sf w 22 6) (sf w 0 16) then issued t pc w (pc + 1) s else stall t 7 (seqStall t 2 s) := by
  rw [doWaitb, withInstr_of_issues h rfl]
  cases hjob : (tile s t).job with
  | none => rfl
  | some j => exact if_neg (by simp [hnamed j hjob])

/-- A stalled WAITB: the attempt to issue counts as one stalled cycle (R217; log 87). -/
theorem fget_stalledWaitb (t : TileId) (s : State) :
    fget (stall t 7 (seqStall t 2 s)) (pgSeq t) Fl.seqStatusStall = 2 ∧
    fget (stall t 7 (seqStall t 2 s)) (pgSeq t) Fl.seqStallCycCycles = min (fget s (pgSeq t) Fl.seqStallCycCycles + 1) (2 ^ 32 - 1) := by
  have hspad : ∀ f : Fld, f.off ≠ 0x15C → fget (stall t 7 (seqStall t 2 s)) (pgSeq t) f = fget (seqStall t 2 s) (pgSeq t) f :=
    fun f hf => (onlyRegs_stall t 7 _).fget _ f (not_mem_keysOf _ _ (by rw [List.mem_singleton]; exact hf))
  refine ⟨?_, ?_⟩
  · rw [hspad _ (by decide), seqStall, fbump, fget_fset_off _ _ _ _ _ _ (by decide), fget_fset_same _ _ _ _ (by decide)]
    rfl
  · rw [hspad _ (by decide), seqStall, fget_fbump_same _ _ _ _ (by decide), fget_fset_off _ _ _ _ _ _ (by decide)]
    rfl

theorem waitb_spec (h : Issues s t 7 pc w) (hnamed : ∀ j, (tile s t).job = some j → j.barMask.testBit (sf w 22 6) = true) :
    (barMet s (tilePart s t) (sf w 22 6) (sf w 0 16) = true → pc + 1 < 4096 →
      ∃ u, exec (.waitb t) s = .next u ∧ Issued s u t pc (pc + 1)) ∧
    (barMet s (tilePart s t) (sf w 22 6) (sf w 0 16) = false → ∃ u, exec (.waitb t) s = .next u ∧ (tile u t).nextPc = pc ∧
      fget u (pgSeq t) Fl.seqStatusStall = 2 ∧
      fget u (pgSeq t) Fl.seqStallCycCycles = min (fget s (pgSeq t) Fl.seqStallCycCycles + 1) (2 ^ 32 - 1) ∧
      u.tiles = s.tiles ∧ u.mem = s.mem) := by
  have hwaitb := doWaitb_of_named h hnamed
  refine ⟨fun hmet hn => ?reached, fun hmet => ?stalls⟩
  case reached =>
    rw [if_pos hmet] at hwaitb
    exact ⟨_, congrArg Host.Outcome.next hwaitb, issued_issued h.low hn (PageOnly.refl _ [] s) List.not_mem_nil⟩
  case stalls =>
    rw [hmet, if_neg Bool.false_ne_true] at hwaitb
    obtain ⟨hstall, hcycles⟩ := fget_stalledWaitb t s
    exact ⟨_, congrArg Host.Outcome.next hwaitb, h.at', hstall, hcycles, rfl, rfl⟩

/-- The state that HALT leaves: nothing issues after it (R207). -/
def halted (t : TileId) (pc : Nat) (s : State) : State :=
  updTile t (fun x => { x with haltPc := some pc, haltFlush := true }) (countIssue t pc (applyImem t s))

theorem doHalt_of_issues (h : Issues s t 0xF pc w) : doHalt t s = halted t pc s := withInstr_of_issues h rfl _

theorem tile_halted (t : TileId) (pc : Nat) (s : State) : tile (halted t pc s) t =
    { tile s t with imemStaged := [], haltPc := some pc, haltFlush := true } := by
  rw [halted, tile_updTile_same, tile_countIssue, tile_applyImem]

theorem seqRuns_of_halted {pc' : Nat} (h : (tile s t).haltPc = some pc') : seqRuns s t = false := by
  simp [seqRuns, h]

theorem halt_spec (h : Issues s t 0xF pc w) : ∃ u, exec (.halt t) s = .next u ∧ (tile u t).haltPc = some pc ∧
    (tile u t).haltFlush = true ∧ fget u (pgSeq t) Fl.seqPcPc = pc ∧
    fget u (pgSeq t) Fl.seqIssuedCount = (fget s (pgSeq t) Fl.seqIssuedCount + 1) % 2 ^ 32 ∧ seqRuns u t = false ∧ u.mem = s.mem := by
  obtain ⟨hshown, -, hcount, -⟩ := fget_countIssue (t := t) (s := applyImem t s) h.low
  have happly := pageOnly_applyImem t s
  have hpc : (tile (halted t pc s) t).haltPc = some pc := by rw [tile_halted]
  refine ⟨_, congrArg Host.Outcome.next (doHalt_of_issues h), hpc, by rw [tile_halted], ?_, ?_, seqRuns_of_halted hpc, ?_⟩
  · rw [halted, fget_updTile, hshown]
  · rw [halted, fget_updTile, hcount, happly.fget _ _ (not_mem_imemOffs _ (by decide) (by decide) (by decide))]
  · exact ((pageOnly_countIssue t pc _).updTile t _).mem.trans happly.mem

/-- The sequencer in DONE (R207). -/
def seqDoneState (t : TileId) (s : State) : State :=
  setIrq (pgSeq t) 8 (fset (pgSeq t) Fl.seqStatusState 2 (updTile t (fun x => { x with haltPc := none, haltFlush := false }) s))

theorem doSeqDone_of_halted (hhalt : (tile s t).haltPc.isSome = true) (hqueues : ∀ q, queue s t q = []) (hkill : (tile s t).kill = none)
    (hstate : fget s (pgSeq t) Fl.seqStatusState = 1) : doSeqDone t s = seqDoneState t s := by
  obtain ⟨pc, hpc⟩ := Option.isSome_iff_exists.mp hhalt
  have hempty : allEngines.any (fun q => !(queueOf (tile s t) q).isEmpty) = false := by
    rw [List.any_eq_false]
    intro q _
    rw [← queue, hqueues]
    decide
  refine if_neg ?_
  rw [hempty, hkill, hstate, hpc]
  exact Bool.false_ne_true

theorem pageOnly_seqDoneState (t : TileId) (s : State) : PageOnly (pgSeq t) [0x010, 0x104] s (seqDoneState t s) :=
  (((PageOnly.refl _ _ s).updTile t _).fset Fl.seqStatusState _ (by decide)).setIrq _ (by decide)

theorem seqDone_spec (hhalt : (tile s t).haltPc.isSome = true) (hqueues : ∀ q, queue s t q = []) (hkill : (tile s t).kill = none)
    (hstate : fget s (pgSeq t) Fl.seqStatusState = 1) :
    ∃ u, exec (.seqDone t) s = .next u ∧ fget u (pgSeq t) Fl.seqStatusState = 2 ∧ (tile u t).haltPc = none ∧
      rd u (pgSeq t) 0x010 = rd s (pgSeq t) 0x010 ||| oneBit 8 ∧ PageOnly (pgSeq t) [0x010, 0x104] s u := by
  have hirq : ∀ v : State, rd (fset (pgSeq t) Fl.seqStatusState 2 v) (pgSeq t) 0x010 = rd v (pgSeq t) 0x010 :=
    fun v => rd_fset_off _ _ _ _ _ _ (by decide)
  have htile : tile (seqDoneState t s) t = { tile s t with haltPc := none, haltFlush := false } :=
    tile_updTile_same t (fun x => { x with haltPc := none, haltFlush := false }) s
  refine ⟨_, congrArg Host.Outcome.next (doSeqDone_of_halted hhalt hqueues hkill hstate), ?_, by rw [htile], ?_,
    pageOnly_seqDoneState t s⟩
  · rw [seqDoneState, fget_setIrq_off _ _ _ _ _ (by decide), fget_fset_same _ _ _ _ (by decide)]
    rfl
  · rw [seqDoneState, rd_setIrq, hirq]
    rfl

end

end Sys2Proof.Machine

namespace Sys2Proof

open Sys2Proof.Machine Sys2Proof.Safety

/-- Settles O23: a pushed command takes its queue's end, FENCE and HALT apply the staged words, and a barrier not reached stalls. That a
WAITB of a tile with no job may name every barrier is log 92, and that an attempt is one stalled cycle is log 87: the model's choices. -/
theorem sequencerPushesAndWaits : Obligations.SequencerPushesAndWaits := by
  unfold Obligations.SequencerPushesAndWaits
  intro t s pc w
  exact ⟨emit_spec, seqSignal_spec, seqMark_spec, fence_spec, waitb_spec, halt_spec, seqDone_spec⟩

end Sys2Proof

namespace Sys2Proof.Machine

open Sys2Proof.Safety

/-! ## The staged instruction words are discarded (R215) -/

section
variable {t : TileId} {s : State}

/-- SEQ_IMEM_STAT shows that the staged words are discarded. -/
def imemAborted (t : TileId) (s : State) : State := fsets (pgSeq t) [(Fl.seqImemStatGstate, 3), (Fl.seqImemStatStaged, 0)] s

theorem discardImem_of_nil (h : (tile s t).imemStaged = []) : discardImem t s = s := if_pos (List.isEmpty_iff.mpr h)

theorem discardImem_of_ne_nil (h : (tile s t).imemStaged ≠ []) :
    discardImem t s = imemAborted t (updTile t (fun x => { x with imemStaged := [] }) s) :=
  if_neg (by rw [List.isEmpty_iff]; exact h)

theorem pageOnly_imemAborted (t : TileId) (s : State) : PageOnly (pgSeq t) [0x154] s (imemAborted t s) :=
  ((PageOnly.refl _ _ s).fset Fl.seqImemStatGstate _ (by decide)).fset Fl.seqImemStatStaged _ (by decide)

theorem gstate_imemAborted (t : TileId) (s : State) : fget (imemAborted t s) (pgSeq t) Fl.seqImemStatGstate = 3 := by
  have hstaged := fget_fset_disjoint (fset (pgSeq t) Fl.seqImemStatGstate 3 s) (pgSeq t) Fl.seqImemStatStaged Fl.seqImemStatGstate 0
    (by decide) (by decide) rfl
  exact hstaged.trans (fget_fset_same s (pgSeq t) Fl.seqImemStatGstate 3 (by decide))

end

/-! ## What stopping tiles leaves (R185, R186, R215, R274) -/

theorem tile_setTile (t u : TileId) (x : Tile) (s : State) : tile (setTile t x s) u = if u = t then x else tile s u :=
  Tab.get_put _ _ _ _ _

/-- From `x` to `y` a tile that has faulted, or that runs a job, still does, and what was being killed still is. -/
structure StaysDown (x y : Tile) : Prop where
  job : y.job.isSome = x.job.isSome
  faulted : tileFaulted x = true → tileFaulted y = true
  killed : ∀ q, beingKilled x q = true → beingKilled y q = true

theorem StaysDown.refl (x : Tile) : StaysDown x x := ⟨rfl, id, fun _ => id⟩

theorem StaysDown.of_eq {x y : Tile} (hj : y.job = x.job) (hs : y.stopped = x.stopped) (hk : y.kill = x.kill) : StaysDown x y := by
  refine ⟨by rw [hj], fun h => ?_, fun q h => ?_⟩
  · rwa [tileFaulted, hj, hs, ← tileFaulted]
  · rwa [beingKilled, hk, ← beingKilled]

/-- From `s` to `u` memory is as it was, the registers of the sequencers are but for SEQ_IMEM_STAT, and tiles that have faulted and
engines that are being killed stay so. -/
structure StopKept (s u : State) : Prop where
  mem : u.mem = s.mem
  seq : ∀ t off, off ≠ 0x154 → rd u (pgSeq t) off = rd s (pgSeq t) off
  down : ∀ t, StaysDown (tile s t) (tile u t)

namespace StopKept

variable {s u v : State}

theorem refl (s : State) : StopKept s s := ⟨rfl, fun _ _ _ => rfl, fun _ => .refl _⟩

theorem trans (h : StopKept s u) (h' : StopKept u v) : StopKept s v :=
  ⟨h'.mem.trans h.mem, fun t off ho => (h'.seq t off ho).trans (h.seq t off ho),
    fun t => ⟨(h'.down t).job.trans (h.down t).job, (h'.down t).faulted ∘ (h.down t).faulted,
      fun q => (h'.down t).killed q ∘ (h.down t).killed q⟩⟩

theorem fget (h : StopKept s u) (t : TileId) (f : Fld) (ho : f.off ≠ 0x154) : Machine.fget u (pgSeq t) f = Machine.fget s (pgSeq t) f := by
  rw [Machine.fget, h.seq _ _ ho, Machine.fget]

theorem fset (h : StopKept s u) {pg : PageKey} (hk : pg.kind ≠ .seq) (f : Fld) (n : Nat) : StopKept s (fset pg f n u) :=
  h.trans ⟨rfl, fun _ _ _ => rd_wr_kind _ _ _ _ _ _ hk.symm, fun _ => .refl _⟩

theorem setIrq (h : StopKept s u) {pg : PageKey} (hk : pg.kind ≠ .seq) (i : Nat) : StopKept s (setIrq pg i u) :=
  h.trans ⟨rfl, fun _ _ _ => rd_wr_kind _ _ _ _ _ _ hk.symm, fun _ => .refl _⟩

theorem foldl {α : Type} (h : StopKept s u) (f : State → α → State) (l : List α)
    (hf : ∀ v a, StopKept s v → StopKept s (f v a)) : StopKept s (l.foldl f u) :=
  List.foldlRecOn l f h (fun v hv a _ => hf v a hv)

theorem fsets (h : StopKept s u) {pg : PageKey} (hk : pg.kind ≠ .seq) (l : List (Fld × Nat)) : StopKept s (fsets pg l u) :=
  h.foldl _ _ (fun _ _ hv => hv.fset hk _ _)

theorem setTile (h : StopKept s u) (t : TileId) (x : Tile) (hx : StaysDown (tile u t) x) : StopKept s (setTile t x u) := by
  refine h.trans ⟨rfl, fun _ _ _ => rfl, fun t' => ?_⟩
  rw [tile_setTile]
  split
  next heq => rw [heq]; exact hx
  next => exact .refl _

theorem updTile (h : StopKept s u) (t : TileId) (f : Tile → Tile) (hf : ∀ x, StaysDown x (f x)) : StopKept s (updTile t f u) :=
  h.setTile t _ (hf _)

theorem reverseStep (h : StopKept s u) (p : SlotStep) : StopKept s (reverseStep p u) := by
  have hpg : (pgTile p.tile).kind ≠ .seq := by simp [pgTile]
  unfold Machine.reverseStep
  split
  · exact (((h.fset hpg _ _).fset hpg _ _).fset hpg _ _).fset hpg _ _
  · exact (h.fset hpg _ _).fset hpg _ _
  · exact h

section
variable (t : TileId) (e : StrmId)

theorem setChans (h : StopKept s u) (l : List StrmChan) : StopKept s (setChans t e l u) :=
  h.updTile t _ (fun x => by split <;> exact .of_eq rfl rfl rfl)

theorem setStr (h : StopKept s u) (r : StrmSt) : StopKept s (setStr t e r u) :=
  h.updTile t _ (fun x => by split <;> exact .of_eq rfl rfl rfl)

theorem reverseBlocks (h : StopKept s u) : StopKept s (reverseBlocks t e u) := by
  unfold Machine.reverseBlocks
  refine ((h.foldl _ _ (fun v c hv => ?_)).setChans t e _).setStr t e _
  split
  · exact hv.foldl _ _ (fun _ p hw => hw.reverseStep p)
  · exact hv

theorem disarmChans (h : StopKept s u) : StopKept s (disarmChans t e u) := by
  have hpg : (pgStrm t e).kind ≠ .seq := by
    by_cases he : e.val = 0 <;> simp [pgStrm, he]
  have harm : ∀ x : Tile, StaysDown x (if e.val = 0 then { x with arm0 := [] } else { x with arm1 := [] }) :=
    fun x => by split <;> exact .of_eq rfl rfl rfl
  exact ((h.reverseBlocks t e).updTile t _ harm).foldl _ _ (fun _ _ hv => (hv.setChans t e _).fsets hpg _)

end

/-- A change of registers of a sequencer's page that is of SEQ_IMEM_STAT alone. -/
theorem of_pageOnly {t : TileId} (h : PageOnly (pgSeq t) [0x154] s u) (ht : u.tiles = s.tiles) : StopKept s u := by
  refine ⟨h.mem, fun t' off ho => h.rd _ (by rw [List.mem_singleton]; exact ho), fun t' => ?_⟩
  rw [tile, tile, ht]
  exact .refl _

theorem discardImem (h : StopKept s u) (t : TileId) : StopKept s (discardImem t u) := by
  by_cases hnil : (tile u t).imemStaged = []
  · rw [discardImem_of_nil hnil]
    exact h
  · rw [discardImem_of_ne_nil hnil]
    exact (h.updTile t (fun x => { x with imemStaged := [] }) (fun x => .of_eq rfl rfl rfl)).trans
      (of_pageOnly (pageOnly_imemAborted t _) rfl)

end StopKept

/-! ### A kill starts (R186, R187) -/

theorem beingKilled_of_kill {x : Tile} {k : KillRun} (h : x.kill = some k) (q : Engine) : beingKilled x q = k.engines.contains q := by
  rw [beingKilled, h]

/-- A tile whose kill of the named engines is accepted. -/
def killTile (engs : List Engine) (halts : Bool) (x : Tile) : Tile :=
  let new := engs.filter (fun q => !beingKilled x q)
  { x with
    kill := some (match x.kill with
      | none => ⟨engs, 93, halts⟩
      | some k => ⟨k.engines ++ new, k.cycles, k.halts || halts⟩)
    epoch0 := if new.contains .s0 then x.epoch0 + 1 else x.epoch0
    epoch1 := if new.contains .s1 then x.epoch1 + 1 else x.epoch1 }

/-- TILE_KILL_STAT, and TILE_RUN for a kill that halts, show a kill. -/
def killShown (t : TileId) (halts : Bool) (s : State) : State :=
  let s := fset (pgTile t) Fl.tileKillStatBusy 1 s
  if halts then setIrq (pgTile t) 9 (fset (pgTile t) Fl.tileRunHalted 1 s) else s

theorem startKill_of_ne_nil {engs : List Engine} (hne : engs ≠ []) (t : TileId) (halts : Bool) (s : State) :
    startKill t engs halts s = killShown t halts (updTile t (killTile engs halts) s) :=
  if_neg (by rw [List.isEmpty_iff]; exact hne)

/-- The engines that are being killed are killed on; the others that are named are now killed too. -/
theorem beingKilled_killTile (engs : List Engine) (halts : Bool) (x : Tile) (q : Engine) :
    beingKilled (killTile engs halts x) q = (beingKilled x q || engs.contains q) := by
  cases hkill : x.kill with
  | none => simp [beingKilled, killTile, hkill]
  | some k =>
    have hkilled := beingKilled_of_kill hkill
    have hboth : beingKilled (killTile engs halts x) q = (k.engines ++ engs.filter (fun q => !beingKilled x q)).contains q := by
      rw [killTile, hkill, beingKilled_of_kill rfl]
    rw [hboth, hkilled, List.contains_eq_mem, List.contains_eq_mem, List.contains_eq_mem, Bool.eq_iff_iff]
    by_cases hq : q ∈ k.engines <;> simp [hkilled, hq]

theorem staysDown_killTile (engs : List Engine) (halts : Bool) (x : Tile) : StaysDown x (killTile engs halts x) :=
  ⟨rfl, id, fun q hq => by rw [beingKilled_killTile, hq, Bool.true_or]⟩

theorem tile_killShown (t : TileId) (halts : Bool) (s : State) (u : TileId) : tile (killShown t halts s) u = tile s u := by
  cases halts <;> rfl

/-- A named engine is being killed once a kill of it has started. -/
theorem beingKilled_startKill {engs : List Engine} {q : Engine} (hq : q ∈ engs) (t : TileId) (halts : Bool) (s : State) :
    beingKilled (tile (startKill t engs halts s) t) q = true := by
  rw [startKill_of_ne_nil (List.ne_nil_of_mem hq), tile_killShown, tile_updTile_same, beingKilled_killTile,
    List.contains_iff_mem.mpr hq, Bool.or_true]

/-- A tile whose job, if it has one, has faulted. -/
def faultJobOf (x : Tile) : Tile := { x with job := x.job.map (fun k => { k with faulted := true }) }

theorem tileFaulted_faultJobOf {x : Tile} (h : x.job.isSome = true) : tileFaulted (faultJobOf x) = true := by
  obtain ⟨j, hj⟩ := Option.isSome_iff_exists.mp h
  simp [tileFaulted, faultJobOf, hj]

theorem staysDown_faultJobOf (x : Tile) : StaysDown x (faultJobOf x) := by
  refine ⟨Option.isSome_map, fun hx => ?_, fun _ => id⟩
  cases hj : x.job with
  | none => simpa [tileFaulted, faultJobOf, hj] using hx
  | some j => exact tileFaulted_faultJobOf (by rw [hj]; rfl)

theorem staysDown_stopped (x : Tile) : StaysDown x { x with stopped := true } := ⟨rfl, fun _ => rfl, fun _ => id⟩

namespace StopKept

variable {s u : State}

theorem startKill (h : StopKept s u) (t : TileId) (engs : List Engine) (halts : Bool) : StopKept s (startKill t engs halts u) := by
  have hpg : (pgTile t).kind ≠ .seq := by simp [pgTile]
  by_cases hne : engs = []
  · rw [hne]
    exact h
  · rw [startKill_of_ne_nil hne]
    have hbusy := (h.updTile t _ (staysDown_killTile engs halts)).fset hpg Fl.tileKillStatBusy 1
    cases halts with
    | false => exact hbusy
    | true => exact (hbusy.fset hpg _ _).setIrq hpg _

/-- The channels of a tile are disarmed and its staged instruction words discarded. -/
theorem disarmTile (h : StopKept s u) (t : TileId) :
    StopKept s (Machine.discardImem t (Machine.disarmChans t 1 (Machine.disarmChans t 0 u))) :=
  ((h.disarmChans t 0).disarmChans t 1).discardImem t

theorem stopTile (h : StopKept s u) (t : TileId) : StopKept s (stopTile t u) :=
  ((h.updTile t _ staysDown_faultJobOf).startKill t allEngines false).disarmTile t

theorem stopTiles (h : StopKept s u) (l : List TileId) : StopKept s (l.foldl (fun s t => Machine.stopTile t s) u) :=
  h.foldl _ _ (fun _ t hv => hv.stopTile t)

theorem endingJob (h : StopKept s u) (n status : Nat) (cause : Option (Nat × TileId)) : StopKept s (endingJob n status cause u) :=
  h.trans ⟨rfl, fun _ _ _ => rfl, fun _ => .refl _⟩

end StopKept

/-! ### A job faults (R185) -/

theorem Tab.get_mem_of_ne {κ α : Type} [DecidableEq κ] {d : α} {l : Tab κ α} {k : κ} (h : Tab.get d l k ≠ d) :
    (k, Tab.get d l k) ∈ l := by
  induction l with
  | nil => exact absurd rfl h
  | cons e r ih =>
    obtain ⟨j, v⟩ := e
    by_cases hk : k = j
    · simp [Tab.get, hk]
    · simp only [Tab.get, if_neg hk] at h ⊢
      exact List.mem_cons_of_mem _ (ih h)

/-- A tile runs its own job. -/
theorem mem_jobMates {s : State} {t : TileId} {j : TileJob} (hjob : (tile s t).job = some j) : t ∈ jobMates s t j := by
  cases hjid : j.jid with
  | none => simp [jobMates, hjid]
  | some n =>
    have hlisted : (t, tile s t) ∈ s.tiles := by
      refine Tab.get_mem_of_ne (fun hdefault => ?_)
      rw [tile, hdefault] at hjob
      cases hjob
    simp only [jobMates, hjid]
    exact List.mem_map.mpr ⟨_, List.mem_filter.mpr ⟨hlisted, by simp [hjob, hjid]⟩, rfl⟩

section
variable {t : TileId} {s : State}

theorem tileFaulted_stopTile (h : (tile s t).job.isSome = true) : tileFaulted (tile (stopTile t s) t) = true := by
  have hfaulted : tileFaulted (tile (updTile t faultJobOf s) t) = true := by
    rw [tile_updTile_same]
    exact tileFaulted_faultJobOf h
  exact ((((StopKept.refl (updTile t faultJobOf s)).startKill t allEngines false).disarmTile t).down t).faulted hfaulted

/-- A tile among those that are stopped has faulted afterwards. -/
theorem tileFaulted_stopTiles {l : List TileId} (ht : t ∈ l) (h : (tile s t).job.isSome = true) :
    tileFaulted (tile (l.foldl (fun s t => stopTile t s) s) t) = true := by
  obtain ⟨before, after, rfl⟩ := List.append_of_mem ht
  rw [List.foldl_append, List.foldl_cons]
  have hbefore := ((StopKept.refl s).stopTiles before).down t
  exact (((StopKept.refl _).stopTiles after).down t).faulted (tileFaulted_stopTile (hbefore.job.trans h))

/-- What a fault of a tile's job does to the tile that it came from, with or without a job (log 92). -/
theorem faultJob_stops (t : TileId) (cls det : Nat) (s : State) : StopKept (startKill t allEngines false s) (faultJob t cls det s) ∧
    tileFaulted (tile (faultJob t cls det s) t) = true := by
  unfold faultJob
  dsimp only
  generalize startKill t allEngines false s = v
  split
  · have hstopped : tileFaulted (tile (updTile t (fun x => { x with stopped := true }) v) t) = true := by
      rw [tile_updTile_same]
      rfl
    exact ⟨((StopKept.refl v).updTile t _ staysDown_stopped).disarmTile t, (((StopKept.refl _).disarmTile t).down t).faulted hstopped⟩
  next j hj =>
    have hmates := (StopKept.refl v).stopTiles (jobMates v t j)
    have hfaulted := tileFaulted_stopTiles (mem_jobMates hj) (by rw [hj]; rfl)
    split
    · exact ⟨hmates, hfaulted⟩
    · exact ⟨hmates.endingJob _ _ _, hfaulted⟩

theorem stopKept_faultJob (t : TileId) (cls det : Nat) (s : State) : StopKept s (faultJob t cls det s) :=
  ((StopKept.refl s).startKill t allEngines false).trans (faultJob_stops t cls det s).1

theorem tileFaulted_faultJob (t : TileId) (cls det : Nat) (s : State) : tileFaulted (tile (faultJob t cls det s) t) = true :=
  (faultJob_stops t cls det s).2

/-- A fault of a tile's job kills all four engines of the tile. -/
theorem beingKilled_faultJob (t : TileId) (cls det : Nat) (s : State) (q : Engine) :
    beingKilled (tile (faultJob t cls det s) t) q = true := by
  have hq : q ∈ allEngines := by cases q <;> decide
  exact ((faultJob_stops t cls det s).1.down t).killed q (beingKilled_startKill hq t false s)

end

/-! ## Faults recorded on a sequencer's page (R43, R190, R199) -/

/-- A field that shares no bit with the one written keeps its value, in the same register or another. -/
theorem fget_fset_ne (s : State) (pg : PageKey) (f g : Fld) (v : Nat) (hf : f.lo + f.width ≤ 32)
    (h : g.off ≠ f.off ∨ g.lo + g.width ≤ f.lo ∨ f.lo + f.width ≤ g.lo) : fget (fset pg f v s) pg g = fget s pg g := by
  by_cases ho : g.off = f.off
  · exact fget_fset_disjoint s pg f g v hf (h.resolve_left (not_not_intro ho)) ho
  · exact fget_fset_off s pg pg f g v ho

theorem pageOnly_latchFault (pg : PageKey) (cls det : Nat) (s : State) : PageOnly pg [0x010, 0x01C] s (latchFault pg cls det s) := by
  have hset : ∀ f : Fld, f.off = 0x01C → ∀ v w, PageOnly pg [0x010, 0x01C] s w → PageOnly pg [0x010, 0x01C] s (fset pg f v w) :=
    fun f hf v w hw => hw.fset f v (by rw [hf]; decide)
  unfold latchFault
  refine PageOnly.setIrq ?_ 0 (by decide)
  split
  · exact hset Fl.faultClass rfl _ _ (hset Fl.faultDetail rfl _ _ (.refl _ _ s))
  · exact hset Fl.faultMore rfl _ _ (.refl _ _ s)

theorem rd_latchFault_irq (pg : PageKey) (cls det : Nat) (s : State) :
    rd (latchFault pg cls det s) pg 0x010 = rd s pg 0x010 ||| oneBit 0 := by
  rw [latchFault, rd_setIrq]
  split
  · rw [rd_fset_off _ _ _ _ _ _ (by decide), rd_fset_off _ _ _ _ _ _ (by decide)]
  · rw [rd_fset_off _ _ _ _ _ _ (by decide)]

theorem fget_latchFault_first {pg : PageKey} (cls det : Nat) {s : State} (h : fget s pg Fl.faultClass = 0) :
    fget (latchFault pg cls det s) pg Fl.faultClass = cls % 256 ∧ fget (latchFault pg cls det s) pg Fl.faultDetail = det % 256 := by
  obtain ⟨hclass, hdetail, -⟩ := fault_first s pg cls det h
  exact ⟨hclass, hdetail⟩

namespace StopKept

variable {s u : State}

/-- A fault on a page that is no sequencer's. -/
theorem latchFault (h : StopKept s u) {pg : PageKey} (hk : pg.kind ≠ .seq) (cls det : Nat) : StopKept s (latchFault pg cls det u) := by
  unfold Machine.latchFault
  refine setIrq ?_ hk 0
  split
  · exact (h.fset hk _ _).fset hk _ _
  · exact h.fset hk _ _

theorem captureFault (h : StopKept s u) (t : TileId) (qn cls det : Nat) (cmd : List Word) :
    StopKept s (captureFault t qn cls det cmd u) := by
  have hpg : (pgTile t).kind ≠ .seq := by simp [pgTile]
  unfold Machine.captureFault
  split
  · exact h
  · exact (h.fsets hpg _).fsets hpg _

theorem sendFum (h : StopKept s u) (code : Nat) (pg : PageKey) (d0 d1 d2 d3 : Word) : StopKept s (sendFum code pg d0 d1 d2 d3 u) :=
  h.trans ⟨rfl, fun _ _ _ => rfl, fun _ => .refl _⟩

theorem commandFault (h : StopKept s u) {pg : PageKey} (hk : pg.kind ≠ .seq) (t : TileId) (qn cls det : Nat) (cmd : List Word) :
    StopKept s (commandFault t pg qn cls det cmd u) :=
  ((h.latchFault hk cls det).sendFum _ _ _ _ _ _).captureFault t qn cls det cmd

end StopKept

section
variable {t : TileId} {s : State}

/-- What a command's fault leaves on its page once it is latched there: the capture is on the TILE page. -/
theorem stopKept_commandFault_latched (t : TileId) (pg : PageKey) (qn cls det : Nat) (cmd : List Word) (s : State) :
    StopKept (latchFault pg cls det s) (commandFault t pg qn cls det cmd s) :=
  ((StopKept.refl _).sendFum _ _ _ _ _ _).captureFault t qn cls det cmd

/-- The sequencer's registers show that it has stopped in FAULT at `pc`. -/
def seqStopped (t : TileId) (pc cause : Nat) (s : State) : State :=
  setIrq (pgSeq t) 9 (fsets (pgSeq t)
    [(Fl.seqStatusState, 3), (Fl.seqStatusStall, 0), (Fl.seqPcPc, pc), (Fl.seqFaultCause, cause), (Fl.seqFaultPc, pc)] s)

theorem seqFault_eq (t : TileId) (pc : Nat) (w : Word) (cause cls det : Nat) (s : State) : seqFault t pc w cause cls det s =
    faultJob t cls det (commandFault t (pgSeq t) (faultCmd s t w).1 cls det (faultCmd s t w).2 (seqStopped t pc cause s)) := rfl

theorem fget_seqStopped {pc cause : Nat} (hpc : pc < 4096) (hcause : cause < 16) :
    fget (seqStopped t pc cause s) (pgSeq t) Fl.seqStatusState = 3 ∧ fget (seqStopped t pc cause s) (pgSeq t) Fl.seqFaultCause = cause ∧
      fget (seqStopped t pc cause s) (pgSeq t) Fl.seqFaultPc = pc ∧
      fget (seqStopped t pc cause s) (pgSeq t) Fl.faultClass = fget s (pgSeq t) Fl.faultClass := by
  refine ⟨?_, ?_, ?_, ?_⟩ <;>
    simp (disch := decide) only [seqStopped, fget_setIrq_off, fsets, List.foldl_cons, List.foldl_nil, fget_fset_ne, fget_fset_same]
  · rfl
  · exact Nat.mod_eq_of_lt hcause
  · exact Nat.mod_eq_of_lt hpc

theorem bitAt_or (v w : Word) (i : Nat) : bitAt (v ||| w) i = (bitAt v i || bitAt w i) := BitVec.getLsbD_or

end

end Sys2Proof.Machine

namespace Sys2Proof.Machine

open Sys2Proof.Safety

section
variable {t : TileId} {s : State}

/-! ## The sequencer stops in FAULT (R199) -/

theorem pageOnly_seqStopped (t : TileId) (pc cause : Nat) (s : State) :
    PageOnly (pgSeq t) [0x104, 0x108, 0x110, 0x010] s (seqStopped t pc cause s) :=
  ((((((PageOnly.refl _ _ s).fset Fl.seqStatusState _ (by decide)).fset Fl.seqStatusStall _ (by decide)).fset Fl.seqPcPc _
    (by decide)).fset Fl.seqFaultCause _ (by decide)).fset Fl.seqFaultPc _ (by decide)).setIrq _ (by decide)

/-- From the latched fault on, a fault of an instruction keeps the sequencer's registers. -/
theorem stopKept_seqFault (t : TileId) (pc : Nat) (w : Word) (cause cls det : Nat) (s : State) :
    StopKept (latchFault (pgSeq t) cls det (seqStopped t pc cause s)) (seqFault t pc w cause cls det s) := by
  rw [seqFault_eq]
  exact (stopKept_commandFault_latched t (pgSeq t) _ cls det _ _).trans (stopKept_faultJob t cls det _)

/-- An instruction's fault stops the sequencer at it, and the job of the tile has faulted (a tile with no job stops: log 92). -/
theorem seqFault_spec {pc cause : Nat} (w : Word) (cls det : Nat) (hpc : pc < 4096) (hcause : cause < 16) :
    fget (seqFault t pc w cause cls det s) (pgSeq t) Fl.seqStatusState = 3 ∧
      fget (seqFault t pc w cause cls det s) (pgSeq t) Fl.seqFaultCause = cause ∧
      fget (seqFault t pc w cause cls det s) (pgSeq t) Fl.seqFaultPc = pc ∧
      (fget s (pgSeq t) Fl.faultClass = 0 → fget (seqFault t pc w cause cls det s) (pgSeq t) Fl.faultClass = cls % 256 ∧
        fget (seqFault t pc w cause cls det s) (pgSeq t) Fl.faultDetail = det % 256) ∧
      bitAt (rd (seqFault t pc w cause cls det s) (pgSeq t) 0x010) 9 = true ∧
      tileFaulted (tile (seqFault t pc w cause cls det s) t) = true ∧ (seqFault t pc w cause cls det s).mem = s.mem := by
  have hkept := stopKept_seqFault t pc w cause cls det s
  have hlatch := pageOnly_latchFault (pgSeq t) cls det (seqStopped t pc cause s)
  obtain ⟨hstate, hc, hp, hclass⟩ := fget_seqStopped (t := t) (s := s) hpc hcause
  refine ⟨?_, ?_, ?_, fun hclear => ?_, ?_, ?_, ?_⟩
  · rw [hkept.fget _ _ (by decide), hlatch.fget _ _ (by decide), hstate]
  · rw [hkept.fget _ _ (by decide), hlatch.fget _ _ (by decide), hc]
  · rw [hkept.fget _ _ (by decide), hlatch.fget _ _ (by decide), hp]
  · rw [hkept.fget _ _ (by decide), hkept.fget _ _ (by decide)]
    exact fget_latchFault_first cls det (hclass.trans hclear)
  · rw [hkept.seq _ _ (by decide), rd_latchFault_irq, seqStopped, rd_setIrq, bitAt_or, bitAt_or]
    simp [bitAt, oneBit]
  · rw [seqFault_eq]
    exact tileFaulted_faultJob _ _ _ _
  · rw [hkept.mem, hlatch.mem, (pageOnly_seqStopped t pc cause s).mem]

theorem undefinedOp_spec {op pc : Nat} {w : Word} (hop : within 0xB 0xE op = true) (h : Issues s t op pc w) :
    ∃ u, exec (.undefinedOp t) s = .next u ∧ fget u (pgSeq t) Fl.seqStatusState = 3 ∧ fget u (pgSeq t) Fl.seqFaultCause = 2 ∧
      fget u (pgSeq t) Fl.seqFaultPc = pc ∧
      (fget s (pgSeq t) Fl.faultClass = 0 → fget u (pgSeq t) Fl.faultClass = 2 ∧ fget u (pgSeq t) Fl.faultDetail = 0x10) ∧
      bitAt (rd u (pgSeq t) 0x010) 9 = true ∧ tileFaulted (tile u t) = true ∧ u.mem = s.mem :=
  ⟨_, congrArg Host.Outcome.next (withInstr_of_issues h hop _), seqFault_spec w 2 0x10 h.low (by decide)⟩

/-! ## The sequencer starts (R194) -/

/-- The loop stack and the counters cleared. -/
def seqCleared (t : TileId) (s : State) : State := (upTo 8).foldl (fun s c => setCnt t c 0 s) (setLoops t [] s)

/-- The sequencer's registers show that it runs, its counts cleared. -/
def seqShownRunning (t : TileId) (s : State) : State :=
  fsets (pgSeq t)
    [(Fl.seqStatusViol, 0), (Fl.seqStatusStall, 0), (Fl.seqIssuedCount, 0), (Fl.seqEmittedCount, 0), (Fl.seqStatusState, 1)] s

/-- The state in which SEQ_START clears and starts: what a tile without a job holds of faulted commands is gone (log 92). -/
def seqReady (t : TileId) (s : State) : State := if (tile s t).kill.isNone then dropStopped t s else s

theorem seqStart_of_go {v : Word} (hgo : Fl.seqStartGo.get v = 1) (hon : pageOn s (pgSeq t) = true)
    (hidle : fget s (pgSeq t) Fl.seqStatusState ≠ 1) : seqStart t v s =
      updTile t (fun x => { x with nextPc := Fl.seqStartPc.get v, haltPc := none, haltFlush := false, fenceWait := [] })
        (seqShownRunning t (seqCleared t (seqReady t s))) :=
  if_neg (by simp [hgo, hon, hidle])

theorem seqReady_mem (t : TileId) (s : State) : (seqReady t s).mem = s.mem := by
  unfold seqReady dropStopped
  split
  · split
    · rfl
    · dsimp only
      split <;> rfl
  · rfl

theorem cntOf_seqCleared (s : State) {c : Nat} (hc : c < 8) : cntOf (seqCleared t s) t c = 0 := by
  refine foldl_get_of_nodup _ id (fun s c => cntOf s t c) (fun _ b => b = 0) (fun v d c hcd => cntOf_setCnt_other t v 0 hcd)
    (fun v d => cntOf_setCnt_same t v d 0) (upTo 8) _ ?_ (List.mem_range.mpr hc)
  decide

theorem tile_seqCleared (t : TileId) (s : State) : tile (seqCleared t s) t = { tile s t with loops := [] } :=
  List.foldlRecOn (motive := fun u => tile u t = { tile s t with loops := [] }) _ _ (tile_setLoops t s []) (fun _ hv _ _ => hv)

theorem seqCleared_mem (t : TileId) (s : State) : (seqCleared t s).mem = s.mem :=
  List.foldlRecOn (motive := fun u : State => u.mem = s.mem) _ _ rfl (fun _ hv _ _ => hv)

theorem pageOnly_seqShownRunning (t : TileId) (s : State) : PageOnly (pgSeq t) [0x104, 0x160, 0x164] s (seqShownRunning t s) :=
  (((((PageOnly.refl _ _ s).fset Fl.seqStatusViol _ (by decide)).fset Fl.seqStatusStall _ (by decide)).fset Fl.seqIssuedCount _
    (by decide)).fset Fl.seqEmittedCount _ (by decide)).fset Fl.seqStatusState _ (by decide)

theorem fget_seqShownRunning (t : TileId) (s : State) : fget (seqShownRunning t s) (pgSeq t) Fl.seqStatusState = 1 ∧
    fget (seqShownRunning t s) (pgSeq t) Fl.seqIssuedCount = 0 ∧ fget (seqShownRunning t s) (pgSeq t) Fl.seqEmittedCount = 0 ∧
    fget (seqShownRunning t s) (pgSeq t) Fl.seqStatusViol = 0 := by
  refine ⟨?_, ?_, ?_, ?_⟩ <;>
    simp (disch := decide) only [seqShownRunning, fsets, List.foldl_cons, List.foldl_nil, fget_fset_ne, fget_fset_same] <;> rfl

theorem tile_seqShownRunning (t : TileId) (s : State) : tile (seqShownRunning t s) t = tile s t := rfl

theorem seqStart_spec {who : Requester} {v : Word} (hacc : Accepted s who (pgSeq t) 0x10C 0) (hgo : Fl.seqStartGo.get v = 1)
    (hon : pageOn s (pgSeq t) = true) (hidle : fget s (pgSeq t) Fl.seqStatusState ≠ 1) :
    ∃ u, exec (.seqStart who t v) s = .next u ∧ fget u (pgSeq t) Fl.seqStatusState = 1 ∧ (tile u t).nextPc = Fl.seqStartPc.get v ∧
      (tile u t).loops = [] ∧ (∀ c, c < 8 → cntOf u t c = 0) ∧ fget u (pgSeq t) Fl.seqIssuedCount = 0 ∧
      fget u (pgSeq t) Fl.seqEmittedCount = 0 ∧ fget u (pgSeq t) Fl.seqStatusViol = 0 ∧ (tile u t).haltPc = none ∧ u.mem = s.mem := by
  obtain ⟨hrun, hissued, hemitted, hviol⟩ := fget_seqShownRunning t (seqCleared t (seqReady t s))
  have hexec := (guarded_accepted (seqStart t v) hacc).trans (seqStart_of_go hgo hon hidle)
  have hshown := pageOnly_seqShownRunning t (seqCleared t (seqReady t s))
  refine ⟨_, congrArg Host.Outcome.next hexec, ?_, ?_, ?_, fun c hc => ?_, ?_, ?_, ?_, ?_, ?_⟩
  · rw [fget_updTile, hrun]
  · rw [tile_updTile_same]
  · rw [tile_updTile_same, tile_seqShownRunning, tile_seqCleared]
  · rw [(hshown.updTile t _).cntOf (by simp; omega), cntOf_seqCleared _ hc]
  · rw [fget_updTile, hissued]
  · rw [fget_updTile, hemitted]
  · rw [fget_updTile, hviol]
  · rw [tile_updTile_same]
  · rw [(hshown.updTile t _).mem, seqCleared_mem, seqReady_mem]

/-! ## The instruction group (R213, R215) -/

/-- An instruction word staged. -/
def imemStagedWith (t : TileId) (l : List (Nat × Word)) (s : State) : State :=
  fsets (pgSeq t) [(Fl.seqImemStatGstate, 1), (Fl.seqImemStatStaged, l.length)] (updTile t (fun x => { x with imemStaged := l }) s)

theorem imemWrite_of_running (i : Nat) (v : Word) (hrun : fget s (pgSeq t) Fl.seqStatusState = 1) :
    imemWrite t i v s = imemStagedWith t ((tile s t).imemStaged.filter (fun e => e.1 != i) ++ [(i, v)]) s :=
  if_neg (by rw [hrun]; decide)

theorem pageOnly_imemStagedWith (t : TileId) (l : List (Nat × Word)) (s : State) :
    PageOnly (pgSeq t) [0x154] s (imemStagedWith t l s) :=
  (((PageOnly.refl _ _ s).updTile t _).fset Fl.seqImemStatGstate _ (by decide)).fset Fl.seqImemStatStaged _ (by decide)

theorem tile_imemStagedWith (t : TileId) (l : List (Nat × Word)) (s : State) :
    tile (imemStagedWith t l s) t = { tile s t with imemStaged := l } :=
  tile_updTile_same t (fun x => { x with imemStaged := l }) s

theorem gstate_imemStagedWith (t : TileId) (l : List (Nat × Word)) (s : State) :
    fget (imemStagedWith t l s) (pgSeq t) Fl.seqImemStatGstate = 1 := by
  simp (disch := decide) only [imemStagedWith, fsets, List.foldl_cons, List.foldl_nil, fget_fset_ne, fget_fset_same]
  rfl

theorem imemStage_spec {who : Requester} {i : Fin 4096} {v : Word} (hacc : Accepted s who (pgSeq t) (0x20000 + 4 * i.val) 0)
    (hlock : fget s (pgSeq t) Fl.lockCfg = 0) (hrun : fget s (pgSeq t) Fl.seqStatusState = 1) :
    ∃ u, exec (.imemStage who t i v) s = .next u ∧
      (tile u t).imemStaged = (tile s t).imemStaged.filter (fun e => e.1 != i.val) ++ [(i.val, v)] ∧
      fget u (pgSeq t) Fl.seqImemStatGstate = 1 ∧ (∀ k, imemWord u t k = imemWord s t k) ∧ PageOnly (pgSeq t) [0x154] s u := by
  have hexec := ((guarded_accepted (unlocked (pgSeq t) (imemWrite t i.val v)) hacc).trans (unlocked_of _ hlock)).trans
    (imemWrite_of_running i.val v hrun)
  have honly := pageOnly_imemStagedWith t ((tile s t).imemStaged.filter (fun e => e.1 != i.val) ++ [(i.val, v)]) s
  refine ⟨_, congrArg Host.Outcome.next hexec, ?_, gstate_imemStagedWith _ _ _, fun k => ?_, honly⟩
  · rw [tile_imemStagedWith]
  · exact honly.rd _ (by rw [List.mem_singleton]; omega)

theorem pageOnly_seqCause (t : TileId) (cause : Nat) (s : State) : PageOnly (pgSeq t) [0x110, 0x010] s (seqCause t cause s) :=
  (((PageOnly.refl _ _ s).fset Fl.seqFaultCause _ (by decide)).fset Fl.seqFaultPc _ (by decide)).setIrq _ (by decide)

theorem fget_seqCause {cause : Nat} (hcause : cause < 16) (s : State) : fget (seqCause t cause s) (pgSeq t) Fl.seqFaultCause = cause := by
  simp (disch := decide) only [seqCause, fget_setIrq_off, fsets, List.foldl_cons, List.foldl_nil, fget_fset_ne, fget_fset_same]
  exact Nat.mod_eq_of_lt hcause

theorem fget_recordFault_other (s : State) (pg pg' : PageKey) (cls det : Nat) (f : Fld) (hirq : f.off ≠ 0x010) (hfault : f.off ≠ 0x01C) :
    fget (recordFault pg cls det s) pg' f = fget s pg' f := by
  rw [fget, rd_recordFault_other _ _ _ _ _ _ hirq hfault, fget]

theorem imemTimeout_of_late {cycles : Nat} (hstaged : (tile s t).imemStaged ≠ [])
    (hlate : fget s (pgSeq t) Fl.seqTxnTimeoutCycles < cycles) :
    imemTimeout t cycles s = recordFault (pgSeq t) 6 0x0B (seqCause t 1 (discardImem t s)) :=
  if_neg (by simp [hstaged, hlate])

theorem imemTxnTimeout_spec {cycles : Nat} (hstaged : (tile s t).imemStaged ≠ [])
    (hlate : fget s (pgSeq t) Fl.seqTxnTimeoutCycles < cycles) :
    ∃ u, exec (.imemTxnTimeout t cycles) s = .next u ∧ (tile u t).imemStaged = [] ∧ fget u (pgSeq t) Fl.seqImemStatGstate = 3 ∧
      fget u (pgSeq t) Fl.seqFaultCause = 1 ∧
      (fget s (pgSeq t) Fl.faultClass = 0 → fget u (pgSeq t) Fl.faultClass = 6 ∧ fget u (pgSeq t) Fl.faultDetail = 0x0B) ∧
      (∀ k, imemWord u t k = imemWord s t k) := by
  have hdiscard : PageOnly (pgSeq t) [0x154] s (discardImem t s) := by
    rw [discardImem_of_ne_nil hstaged]
    exact ((PageOnly.refl _ [] s).updTile t _).trans (pageOnly_imemAborted t _)
  have hcause := pageOnly_seqCause t 1 (discardImem t s)
  refine ⟨_, congrArg Host.Outcome.next (imemTimeout_of_late hstaged hlate), ?_, ?_, ?_, fun hclear => ?_, fun k => ?_⟩
  · have htile : tile (discardImem t s) t = { tile s t with imemStaged := [] } := by
      rw [discardImem_of_ne_nil hstaged]
      exact tile_updTile_same t (fun x => { x with imemStaged := [] }) s
    rw [recordFault_rest]
    exact congrArg Tile.imemStaged htile
  · rw [fget_recordFault_other _ _ _ _ _ _ (by decide) (by decide), hcause.fget _ _ (by decide), discardImem_of_ne_nil hstaged, gstate_imemAborted]
  · rw [fget_recordFault_other _ _ _ _ _ _ (by decide) (by decide), fget_seqCause (by decide)]
  · have hstill : fget (seqCause t 1 (discardImem t s)) (pgSeq t) Fl.faultClass = 0 := by
      rw [hcause.fget _ _ (by decide), hdiscard.fget _ _ (by decide), hclear]
    obtain ⟨hclass, hdetail, -⟩ := fault_first _ (pgSeq t) 6 0x0B hstill
    exact ⟨hclass, hdetail⟩
  · rw [imemWord, rd_recordFault_other _ _ _ _ _ _ (by omega) (by omega), hcause.rd _ (by simp; omega),
      hdiscard.rd _ (by simp; omega), imemWord]

/-! ## Violations and the interlock's limit (R211, R212) -/

/-- A violation of an engine is recorded on its page, and on the lane engine's for a guard hit. -/
def violationShown (t : TileId) (q : Engine) (e : QEntry) (det : Nat) (s : State) : State :=
  let s := commandFault t (pgEngine t q) (engNo q) 2 det (entryWords e) s
  if det = 3 then setIrq (pgLane t) 9 (setIrq (pgEngine t q) 9 s) else s

theorem stopKept_violationShown (t : TileId) (q : Engine) (e : QEntry) (det : Nat) (s : State) :
    StopKept s (violationShown t q e det s) := by
  have hlane : (pgLane t).kind ≠ .seq := by simp [pgLane]
  have hpg : (pgEngine t q).kind ≠ .seq := by cases q <;> simp [pgEngine, pgLane, pgVec, pgStrm]
  have hfault := (StopKept.refl s).commandFault hpg t (engNo q) 2 det (entryWords e)
  unfold violationShown
  dsimp only
  split
  · exact (hfault.setIrq hpg 9).setIrq hlane 9
  · exact hfault

/-- A violation with interlock and AUTO_ILOCK off faults the job with CAUSE 8. -/
def violationFaults (t : TileId) (det : Nat) (s : State) : State := faultJob t 2 det (seqCause t 8 s)

/-- The first violation with interlock in force, or about to be, is counted and its engine killed. -/
def violationCounts (t : TileId) (q : Engine) (s : State) : State :=
  let s := fbump (pgSeq t) Fl.seqViolCntCount 1 (fset (pgSeq t) Fl.seqStatusViol 1 s)
  let s := if ilActive s t then s else setIrq (pgSeq t) 10 (fset (pgSeq t) Fl.seqStatusAutoIl 1 s)
  startKill t [q] false s

/-- What a violation does, by VIOL and by the interlock. -/
theorem violation_eq {q : Engine} (h : beingKilled (tile s t) q = false) (e : QEntry) (det : Nat) : violation t q e det s =
    let v := violationShown t q e det s
    if fon v (pgSeq t) Fl.seqStatusViol then violationFaults t det v
    else if !ilActive v t && !fon v (pgSeq t) Fl.seqCtrlAutoIlock then violationFaults t det (fset (pgSeq t) Fl.seqStatusViol 1 v)
    else violationCounts t q v :=
  if_neg (by rw [h]; exact Bool.false_ne_true)

theorem fget_viol_fset (s : State) : fget (fset (pgSeq t) Fl.seqStatusViol 1 s) (pgSeq t) Fl.seqStatusViol = 1 :=
  fget_fset_same s (pgSeq t) Fl.seqStatusViol 1 (by decide)

/-- A violation that faults the job leaves VIOL as it was, and every engine is killed. -/
theorem violationFaults_spec (t : TileId) (det : Nat) (s : State) (q : Engine) :
    fget (violationFaults t det s) (pgSeq t) Fl.seqStatusViol = fget s (pgSeq t) Fl.seqStatusViol ∧
      beingKilled (tile (violationFaults t det s) t) q = true ∧ (violationFaults t det s).mem = s.mem ∧
      tileFaulted (tile (violationFaults t det s) t) = true := by
  have hkept := stopKept_faultJob t 2 det (seqCause t 8 s)
  have hcause := pageOnly_seqCause t 8 s
  refine ⟨?_, beingKilled_faultJob _ _ _ _ _, hkept.mem.trans hcause.mem, tileFaulted_faultJob _ _ _ _⟩
  exact (hkept.fget _ _ (by decide)).trans (hcause.fget _ _ (by decide))

theorem violationCounts_spec (t : TileId) (q : Engine) (s : State) :
    fget (violationCounts t q s) (pgSeq t) Fl.seqStatusViol = 1 ∧ beingKilled (tile (violationCounts t q s) t) q = true ∧
      (violationCounts t q s).mem = s.mem ∧
      fget (violationCounts t q s) (pgSeq t) Fl.seqViolCntCount = min (fget s (pgSeq t) Fl.seqViolCntCount + 1) 0xFFFF := by
  unfold violationCounts
  extract_lets v u
  have hviol : fget v (pgSeq t) Fl.seqStatusViol = 1 :=
    (fget_fset_off _ _ _ Fl.seqViolCntCount Fl.seqStatusViol _ (by decide)).trans (fget_viol_fset s)
  have hcount : fget v (pgSeq t) Fl.seqViolCntCount = min (fget s (pgSeq t) Fl.seqViolCntCount + 1) 0xFFFF := by
    rw [fget_fbump_same _ _ _ _ (by decide), fget_fset_off _ _ _ _ _ _ (by decide)]
    rfl
  have hauto : fget u (pgSeq t) Fl.seqStatusViol = fget v (pgSeq t) Fl.seqStatusViol ∧
      fget u (pgSeq t) Fl.seqViolCntCount = fget v (pgSeq t) Fl.seqViolCntCount ∧ u.mem = s.mem := by
    unfold u
    split
    · exact ⟨rfl, rfl, rfl⟩
    · refine ⟨?_, ?_, rfl⟩ <;> simp (disch := decide) only [fget_setIrq_off, fget_fset_ne]
  obtain ⟨hviol', hcount', hmem⟩ := hauto
  have hkept := (StopKept.refl u).startKill t [q] false
  refine ⟨?_, beingKilled_startKill (List.mem_singleton.mpr rfl) t false u, hkept.mem.trans hmem, ?_⟩
  · rw [hkept.fget _ _ (by decide), hviol', hviol]
  · rw [hkept.fget _ _ (by decide), hcount', hcount]

theorem fon_iff (s : State) (pg : PageKey) (f : Fld) : fon s pg f = true ↔ fget s pg f ≠ 0 := bne_iff_ne

theorem ilActive_of_seq {v : State} (h : StopKept s v) : ilActive v t = ilActive s t := by
  simp only [ilActive, fon, h.fget t Fl.seqCtrlIlock (by decide), h.fget t Fl.seqStatusAutoIl (by decide),
    h.fget t Fl.seqStatusWideIl (by decide)]

theorem violation_spec {q : Engine} (h : beingKilled (tile s t) q = false) (e : QEntry) (det : Nat) :
    fget (violation t q e det s) (pgSeq t) Fl.seqStatusViol = 1 ∧ beingKilled (tile (violation t q e det s) t) q = true ∧
      (violation t q e det s).mem = s.mem ∧
      (ilActive s t = true → fget s (pgSeq t) Fl.seqStatusViol = 0 →
        fget (violation t q e det s) (pgSeq t) Fl.seqViolCntCount = min (fget s (pgSeq t) Fl.seqViolCntCount + 1) 0xFFFF) ∧
      (fget s (pgSeq t) Fl.seqStatusViol = 1 → tileFaulted (tile (violation t q e det s) t) = true) := by
  have hshown := stopKept_violationShown t q e det s
  have hil : ilActive (violationShown t q e det s) t = ilActive s t := ilActive_of_seq hshown
  have hviol := hshown.fget t Fl.seqStatusViol (by decide)
  have hcount := hshown.fget t Fl.seqViolCntCount (by decide)
  have hbit : fget s (pgSeq t) Fl.seqStatusViol < 2 := fget_lt _ _ _
  rw [violation_eq h]
  generalize violationShown t q e det s = v at *
  dsimp only
  split
  next hon =>
    rw [fon_iff, hviol] at hon
    obtain ⟨hsame, hkilled, hmem, hfaulted⟩ := violationFaults_spec t det v q
    exact ⟨by rw [hsame, hviol]; omega, hkilled, hmem.trans hshown.mem, fun _ hzero => absurd hzero hon, fun _ => hfaulted⟩
  next hoff =>
    rw [fon_iff, hviol, Decidable.not_not] at hoff
    split
    next hfirst =>
      obtain ⟨hsame, hkilled, hmem, hfaulted⟩ := violationFaults_spec t det (fset (pgSeq t) Fl.seqStatusViol 1 v) q
      rw [hil, Bool.and_eq_true, Bool.not_eq_true'] at hfirst
      refine ⟨hsame.trans (fget_viol_fset v), hkilled, hmem.trans hshown.mem, fun hact _ => ?_, fun _ => hfaulted⟩
      exact absurd (hfirst.1.symm.trans hact) Bool.false_ne_true
    next =>
      obtain ⟨hset, hkilled, hmem, hcounted⟩ := violationCounts_spec t q v
      exact ⟨hset, hkilled, hmem.trans hshown.mem, fun _ _ => by rw [hcounted, hcount], fun hone => by omega⟩

theorem not_beingKilled_of_mayDispatch {q : Engine} (h : mayDispatch s t q = true) : beingKilled (tile s t) q = false := by
  simp only [mayDispatch, Bool.and_eq_true, Bool.not_eq_true'] at h
  obtain ⟨⟨⟨⟨-, hkilled⟩, -⟩, -⟩, -⟩ := h
  exact hkilled

theorem doIlockLimit_of_late {q : Engine} {waited : Nat} {e : QEntry} (hhead : headEntry (queue s t q) = some e) (hdet : e.waitDet ≠ 0)
    (hmay : mayDispatch s t q = true) (hlate : fget s (pgSeq t) Fl.seqIlockLimitCycles < max waited e.waited) :
    doIlockLimit t q waited s = violation t q e e.waitDet s := by
  unfold doIlockLimit
  rw [hhead]
  refine if_neg ?_
  rw [hmay, decide_eq_false hdet, decide_eq_false (Nat.not_le.mpr hlate)]
  exact Bool.false_ne_true

theorem ilockLimit_spec {q : Engine} {waited : Nat} {e : QEntry} (hhead : headEntry (queue s t q) = some e) (hdet : e.waitDet ≠ 0)
    (hmay : mayDispatch s t q = true) (hlate : fget s (pgSeq t) Fl.seqIlockLimitCycles < max waited e.waited) :
    ∃ u, exec (.ilockLimit t q waited) s = .next u ∧ fget u (pgSeq t) Fl.seqStatusViol = 1 ∧ beingKilled (tile u t) q = true ∧
      u.mem = s.mem ∧
      (ilActive s t = true → fget s (pgSeq t) Fl.seqStatusViol = 0 →
        fget u (pgSeq t) Fl.seqViolCntCount = min (fget s (pgSeq t) Fl.seqViolCntCount + 1) 0xFFFF) ∧
      (fget s (pgSeq t) Fl.seqStatusViol = 1 → tileFaulted (tile u t) = true) :=
  ⟨_, congrArg Host.Outcome.next (doIlockLimit_of_late hhead hdet hmay hlate), violation_spec (not_beingKilled_of_mayDispatch hmay) e _⟩

end

end Sys2Proof.Machine

namespace Sys2Proof

open Sys2Proof.Machine Sys2Proof.Safety

/-- Settles O24: a fault of the job keeps the sequencer's registers but SEQ_IMEM_STAT (`stopKept_faultJob`), so what was recorded
before it stands. That a tile with no job faults by stopping is log 92: the model's choice. -/
theorem sequencerStartsAndFaults : Obligations.SequencerStartsAndFaults := by
  unfold Obligations.SequencerStartsAndFaults
  intro t s
  exact ⟨fun who v => seqStart_spec, fun op pc w => undefinedOp_spec, fun who i v => imemStage_spec,
    fun cycles => imemTxnTimeout_spec, fun q waited e => ilockLimit_spec⟩

end Sys2Proof

namespace Sys2Proof.Machine

open Sys2Proof.Safety

/-! ## A local engine's read that loses its bank to a path of a rank no scratchpad bank sees -/

/-- The row path's read of line 0 loses bank 0 to the path of rank 8, and the count of that rank lies past SPAD_CONFLICT5 (R280). -/
theorem rd_strayAccess : rd (spadAccess 0 0 false false 0 [] .clean strayPath) (pgSpad 0) 0x128 = 1 := by decide

/-! ## A RECV whose padding soft-resets its own engine's page (R51, R157, R276) -/

/-- One INT32 element in tile 0's scratchpad, padded at its top with the constant 2, SOFT_RST of CTRL (R153, R157). -/
def padResetSrc : List Word := [0x20000, 0x80C00210, 0, 0, 0x10000, 0, 0, 16, 0, 0, 0x20000, 0xFFFF, 0, 0, 0, 0]

/-- The column of `selfResetDst` with a tenth row: its ninth row is CTRL of tile 0's STRM0 page. -/
def padResetDst : List Word := [0x01005088, 0x80C00118, 0x00090000, 0, 0, 0, 0, 0xFFFFFFF0, 0, 0, 0, 0xFFFF, 0, 0, 0, 0]

/-- A stream descriptor of PART0 with ROLE RECV: one element, with nine rows of padding above it (R255). -/
def padResetSdesc : List Word := [0, 0, 0x88000009, 0, 0, 0, 0, 0]

/-- The RECV by stream descriptor 0 from descriptor 1 to descriptor 2. -/
def padResetRecv : QEntry := { w0 := 0x221, w1 := 0x20001, w2 := 0, w3 := 0, num := 7 }

/-- The tile of `selfResetStart` with that RECV as the one command of queue S0, and no SEND anywhere. -/
def padResetStart : State :=
  wr (pgStrm 0 0) 0x408 0x88000009
    (updTile 0 (fun x => { x with s0 := [padResetRecv], descs := [(1, padResetSrc), (2, padResetDst)] }) selfResetStart)

theorem moveReady_padReset :
    MoveReady padResetStart 0 0 0x21 .move padResetRecv padResetSrc padResetDst (some padResetSdesc) where
  none' := by decide
  head := ⟨by decide, by decide, by decide, by decide, by rfl⟩
  sdesc := by decide
  region := by decide
  room := by decide
  adaptive := by decide

/-- An operand outside the slot rings waits for no step. -/
theorem slotFree_of_not_slot {d : List Word} (h : dLoc d ≠ 3) (s : State) (t : TileId) (g : StrmId) (num : Nat) (write : Bool) :
    SlotFree s t g num d write := by
  intro ask
  simp [slotWait, h]

/-- The nine lines of padding wait for no line of the SEND and are written at dispatch; the last of them resets the page (R258). -/
theorem queue_padReset : queue (doRecv regRequest 0 0 padResetStart) 0 (strmEng 0) = [padResetRecv] := by
  decide +kernel

/-! ## A channel whose next block soft-resets its own engine's page (R51, R271) -/

/-- One INT32 element in tile 0's scratchpad, at the cell of `selfResetStart` that holds 2, SOFT_RST of CTRL. -/
def stepResetSrc : List Word := [0x20080, 0x80C00210, 0, 0, 0, 0, 0, 16, 0, 0, 0, 0xFFFF, 0, 0, 0, 0]

/-- One INT32 element at 0x1802005008, in an LLC window as R154 asks. -/
def stepResetDst : List Word := [0x02005008, 0x80C00118, 0, 0, 0, 0, 0, 16, 0, 0, 0, 0xFFFF, 0, 0, 0, 0]

/-- The operands of an armed MOVE from descriptor 1 to descriptor 2: two blocks, whose destinations lie 0x7FF000000 bytes apart, so
that the second is CTRL of tile 0's STRM0 page (R255, R271). -/
def stepResetOps : ChanOps := ⟨1, 2, 0, false, [0, 0, 0x80400000, 0, 0x10000, 0, 0x7FF00000, 0]⟩

/-- Channel 0 armed with them, with nothing left to do for its block 0. -/
def stepResetChan : StrmChan := { armed := true, busy := true, ops := some stepResetOps }

/-- The tile of `selfResetStart` with that channel and its queue S0 empty. -/
def stepResetStart : State :=
  updTile 0 (fun x => { x with s0 := [], descs := [(1, stepResetSrc), (2, stepResetDst)], chans0 := [stepResetChan, {}, {}, {}] })
    selfResetStart

/-- Block 0 commits and block 1 starts at once; its write disarms every channel of the page (R51, R274). -/
theorem chansOf_stepReset : chansOf (tile (doBlockDone regRequest 0 0 0 stepResetStart) 0) 0 = [{}, {}, {}, {}] := by decide

/-- A soft reset leaves no kill running. -/
theorem beingKilled_stepReset : beingKilled (tile (doBlockDone regRequest 0 0 0 stepResetStart) 0) (strmEng 0) = false := by decide

end Sys2Proof.Machine

namespace Sys2Proof

open Sys2Proof.Machine Sys2Proof.Safety

/-- Refutes O29: a clean read of a scratchpad may change a register that `Safety.conflictKeys` does not list. In `strayPath` the
bank it reads is in use by a path of rank 8, so `useBank` counts at offset 0x128 of SPAD, past the six conflict counters. As for
O41, no run reaches that state, but the statement has no premise that leaves it out. -/
theorem not_scratchpadAccessByPort : ¬ Obligations.ScratchpadAccessByPort := by
  unfold Obligations.ScratchpadAccessByPort
  intro h
  obtain ⟨hserved, -⟩ := h 0 0 false false 0 [] .clean strayPath
  obtain ⟨-, hclean, -⟩ := hserved (by decide)
  obtain ⟨u, hexec, -, hregs⟩ := hclean rfl rfl
  injection hexec with hu
  have hkept : rd u (pgSpad 0) 0x128 = rd strayPath (pgSpad 0) 0x128 := hregs (pgSpad 0) 0x128 (by decide)
  have hbefore : rd strayPath (pgSpad 0) 0x128 = 0 := by decide
  rw [← hu, hbefore] at hkept
  exact absurd (rd_strayAccess.symm.trans hkept) (by decide)

/-- Refutes O31: a RECV that dispatches need not be running when its command ends. Nothing bounds where a tensor outside the
scratchpads ends, and the rows of the destination in `padResetStart` reach register space; the rows of padding are written before
any SEND is there, and the last of them is SOFT_RST of the receiving engine's own page. (Rows before it that no die decodes are
refused, which ends no command at dispatch.) -/
theorem not_multicastAndRemoteSlots : ¬ Obligations.MulticastAndRemoteSlots := by
  unfold Obligations.MulticastAndRemoteSlots
  intro h
  obtain ⟨-, hrecv, -⟩ := h 0 0 padResetStart
  obtain ⟨u, hexec, hphase, -⟩ := hrecv padResetRecv padResetSrc padResetDst padResetSdesc moveReady_padReset (by decide) (by decide)
    (slotFree_of_not_slot (by decide) _ _ _ _ _)
  injection hexec with hu
  have hqueued : padResetRecv ∈ queue u 0 (strmEng 0) := by rw [← hu, queue_padReset]; exact List.mem_singleton.mpr rfl
  have hrunning : padResetRecv.phase = .running := hphase _ hqueued rfl
  exact absurd hrunning (by decide)

/-- Refutes O32: after a block that is not the last, the channel need not keep its operands and go on to the next block, though no
kill runs. Nothing bounds what the steps of a stream descriptor reach, and block 1 in `stepResetStart`, which starts as block 0
commits, writes SOFT_RST to the page of its own engine and so disarms its channels. -/
theorem not_persistentChannels : ¬ Obligations.PersistentChannels := by
  unfold Obligations.PersistentChannels
  intro h
  obtain ⟨-, -, -, hdone⟩ := h 0 0 stepResetStart
  obtain ⟨-, -, hnext⟩ := hdone 0 stepResetChan stepResetOps (by decide) (by decide) (by decide) rfl rfl (by decide)
  obtain ⟨u, hexec, hgoes⟩ := hnext (by decide)
  injection hexec with hu
  rw [← hu] at hgoes
  obtain ⟨d, hslot, hops, -⟩ := hgoes beingKilled_stepReset
  rw [chansOf_stepReset] at hslot
  have hfree : d = {} := (Option.some.inj hslot).symm
  rw [hfree] at hops
  exact absurd hops (by decide)

end Sys2Proof
